-- ==== Sys2Proof/Word.lean ====
section
/-!
DEFINITION. Bytes and the fixed-length records "one per channel", "one per load", "one per group" that
the spec indexes by identifier (00_scope.md, Identifiers).
-/

namespace Sys2Proof

/-- One byte of a frame, an image or a payload. -/
abbrev Byte := BitVec 8

/-- Three like things: the correction entries 0…2. -/
structure Three (α : Type) where
  (x0 x1 x2 : α)
  deriving DecidableEq, Repr

/-- Four like things: the groups G0…G3 or the sensors T0…T3. -/
structure Four (α : Type) where
  (x0 x1 x2 x3 : α)
  deriving DecidableEq, Repr

/-- Six like things: the channels C0…C5 or the zones Z0…Z5. -/
structure Six (α : Type) where
  (x0 x1 x2 x3 x4 x5 : α)
  deriving DecidableEq, Repr

/-- Eight like things: the loads L0…L7 or the alert classes A0…A7. -/
structure Eight (α : Type) where
  (x0 x1 x2 x3 x4 x5 x6 x7 : α)
  deriving DecidableEq, Repr

variable {α β : Type}

namespace Three

def get (v : Three α) (i : Fin 3) : α :=
  match i with
  | 0 => v.x0 | 1 => v.x1 | 2 => v.x2

def set (v : Three α) (i : Fin 3) (x : α) : Three α :=
  match i with
  | 0 => { v with x0 := x } | 1 => { v with x1 := x } | 2 => { v with x2 := x }

def fill (x : α) : Three α := ⟨x, x, x⟩
def toList (v : Three α) : List α := [v.x0, v.x1, v.x2]
def map (f : α → β) (v : Three α) : Three β := ⟨f v.x0, f v.x1, f v.x2⟩

end Three

namespace Four

def get (v : Four α) (i : Fin 4) : α :=
  match i with
  | 0 => v.x0 | 1 => v.x1 | 2 => v.x2 | 3 => v.x3

def set (v : Four α) (i : Fin 4) (x : α) : Four α :=
  match i with
  | 0 => { v with x0 := x } | 1 => { v with x1 := x }
  | 2 => { v with x2 := x } | 3 => { v with x3 := x }

def fill (x : α) : Four α := ⟨x, x, x, x⟩
def toList (v : Four α) : List α := [v.x0, v.x1, v.x2, v.x3]
def map (f : α → β) (v : Four α) : Four β := ⟨f v.x0, f v.x1, f v.x2, f v.x3⟩
def ofFn (f : Fin 4 → β) : Four β := ⟨f 0, f 1, f 2, f 3⟩

end Four

namespace Six

def get (v : Six α) (i : Fin 6) : α :=
  match i with
  | 0 => v.x0 | 1 => v.x1 | 2 => v.x2 | 3 => v.x3 | 4 => v.x4 | 5 => v.x5

def set (v : Six α) (i : Fin 6) (x : α) : Six α :=
  match i with
  | 0 => { v with x0 := x } | 1 => { v with x1 := x } | 2 => { v with x2 := x }
  | 3 => { v with x3 := x } | 4 => { v with x4 := x } | 5 => { v with x5 := x }

def fill (x : α) : Six α := ⟨x, x, x, x, x, x⟩
def toList (v : Six α) : List α := [v.x0, v.x1, v.x2, v.x3, v.x4, v.x5]
def map (f : α → β) (v : Six α) : Six β := ⟨f v.x0, f v.x1, f v.x2, f v.x3, f v.x4, f v.x5⟩
def ofFn (f : Fin 6 → β) : Six β := ⟨f 0, f 1, f 2, f 3, f 4, f 5⟩

end Six

namespace Eight

def get (v : Eight α) (i : Fin 8) : α :=
  match i with
  | 0 => v.x0 | 1 => v.x1 | 2 => v.x2 | 3 => v.x3 | 4 => v.x4 | 5 => v.x5 | 6 => v.x6 | 7 => v.x7

def set (v : Eight α) (i : Fin 8) (x : α) : Eight α :=
  match i with
  | 0 => { v with x0 := x } | 1 => { v with x1 := x } | 2 => { v with x2 := x }
  | 3 => { v with x3 := x } | 4 => { v with x4 := x } | 5 => { v with x5 := x }
  | 6 => { v with x6 := x } | 7 => { v with x7 := x }

def fill (x : α) : Eight α := ⟨x, x, x, x, x, x, x, x⟩
def toList (v : Eight α) : List α := [v.x0, v.x1, v.x2, v.x3, v.x4, v.x5, v.x6, v.x7]
def map (f : α → β) (v : Eight α) : Eight β :=
  ⟨f v.x0, f v.x1, f v.x2, f v.x3, f v.x4, f v.x5, f v.x6, f v.x7⟩
def ofFn (f : Fin 8 → β) : Eight β := ⟨f 0, f 1, f 2, f 3, f 4, f 5, f 6, f 7⟩

end Eight

/-- A list of entries as "one per …", in order; a missing entry is `d`. -/
def Three.ofList (d : α) (l : List α) : Three α := ⟨l.getD 0 d, l.getD 1 d, l.getD 2 d⟩

/-- A list of entries as one per channel or zone, in order; a missing entry is `d`. -/
def Six.ofList (d : α) (l : List α) : Six α :=
  ⟨l.getD 0 d, l.getD 1 d, l.getD 2 d, l.getD 3 d, l.getD 4 d, l.getD 5 d⟩

/-- A list of entries as one per load or class, in order; a missing entry is `d`. -/
def Eight.ofList (d : α) (l : List α) : Eight α :=
  ⟨l.getD 0 d, l.getD 1 d, l.getD 2 d, l.getD 3 d, l.getD 4 d, l.getD 5 d, l.getD 6 d, l.getD 7 d⟩

end Sys2Proof
end

