-- ==== Sys2Proof/Config.lean ====
section
/-!
DEFINITION. What the part fixes (the limits of 00_scope.md, Principal quantities, and of the rules), and the
free values: what the spec leaves open, as constants that have no body.
-/

namespace Sys2Proof.Config

/-! ### Fixed quantities -/

/-- Nanoseconds in a second and in a millisecond. -/
abbrev second : Nat := 1000000000
abbrev milli : Nat := 1000000

/-- The largest seconds label, 2^40 - 1 (R13). -/
abbrev maxLabel : Nat := 1099511627775

/-- Outstanding-strobe list, Event Table, holds, Alert Queue (Principal quantities). -/
abbrev strobeLimit : Nat := 4
abbrev recordLimit : Nat := 12
abbrev holdLimit : Nat := 2
abbrev alertLimit : Nat := 12

/-- Segments, frames per segment, kept limit (R81, R87). -/
abbrev segmentCount : Nat := 128
abbrev segmentFrames : Nat := 2048
abbrev keptLimit : Nat := 112

/-- Reply, notice and DATA queues (R125 to R127). -/
abbrev replyLimit : Nat := 6
abbrev noticeLimit : Nat := 8
abbrev dataLimit : Nat := 24

/-- Payload limits of the link (section 7.1). -/
abbrev downPayload : Nat := 96
abbrev upPayload : Nat := 320

/-- The largest magnitude of a departure or characteristic value (R43, R56). -/
abbrev maxDeparture : Nat := 16777215

/-- The threshold of the wrap notice (R187). -/
abbrev noticeThreshold : BitVec 32 := 3758096384

/-- The configuration image: its length and the value of its length field (R183). -/
abbrev imageLength : Nat := 358
abbrev imageBody : Nat := 354

/-! ### Free values (the third, `Config.payloadLength`, stands beside State, whose types it takes) -/

/-- FREE VALUE. The start order the writer gives after 4,294,967,295: the spec states the range and no wrap
(05, state table; log entry 22). -/
opaque startOrderAfterLast : Nat

/-- FREE VALUE. The raise order ALU gives after 4,294,967,295 (06, state table; log entry 22). -/
opaque raiseOrderAfterLast : Nat

end Sys2Proof.Config
end

