-- ==== Sys2Proof/Syntax.lean ====
section
/-!
DEFINITION. The commands of spec/opcode_table.json: one constructor of `Instr` per row, with the operands
that the row's rule needs. The table gives no bits and names no operands; the operands are read from the
rules (log entry 3).
-/

namespace Sys2Proof

/-- Where a centre's command comes from: the oscillator time in ns since the step before, the sending
centre and the tag of the frame's header, and whether the frame was addressed to 65,535 (R134, R135). -/
structure Sender where
  after : Nat
  centre : Byte
  tag : Byte
  broadcast : Bool
  deriving DecidableEq, Repr

/-- An operand of a command at which the strap pins may be read (R134, R138), and what they read then. -/
structure WithStraps (α : Type) where
  given : α
  straps : Byte
  deriving DecidableEq, Repr

/-- What the six monitor inputs read at a scan (R139, R140): `none` is a reading that the input reports as
outside its range or as an open input. Voltage in mV, current in mA, temperatures in tenths of a degree. -/
structure MonitorInputs where
  v : Option Int
  i : Option Int
  temps : Four (Option Int)
  deriving DecidableEq, Repr

/-- The step that brings a sample instant about: the arrival of a digitizer frame, or a strobe that pushes
a frameless entry out of a full list (R41; 95_what_each_step_holds.md lists both). -/
inductive InstantStep where
  | strobe
  | frame (after : Nat) (bytes : List Byte)
  deriving DecidableEq, Repr

/-- The 10-byte header of a link frame after its two sync bytes (section 7.1). -/
structure LinkHeader where
  kind : Byte
  flags : Byte
  station : BitVec 16
  centre : Byte
  tag : Byte
  length : BitVec 16
  deriving DecidableEq, Repr

/-- The commands, in the table's order. `after` is the oscillator time in ns since the step before. -/
inductive Instr where
  /-- POWER_ON (R185): supply applied; the strap pins and whether the configuration memory answers. -/
  | powerOn (straps : Byte) (memoryAnswers : Bool)
  | coldStartWaitEnd
  | strobe
  | digitizerFrame (after : Nat) (bytes : List Byte)
  | warmUpComplete (channel : Fin 6) (via : InstantStep)
  | forcedTriggerOff (channel : Fin 6) (via : InstantStep)
  | blankingEnd (channel : Fin 6) (via : InstantStep)
  | contributionEnd (channel : Fin 6) (via : InstantStep)
  | forcedClosing (via : InstantStep)
  | eventClose (via : InstantStep)
  | quietTailEnd (via : InstantStep)
  | segmentComplete (via : InstantStep)
  | hold (src : Sender) (event : BitVec 16) (minutes : Byte)
  | release (src : Sender) (event : BitVec 16)
  | holdExpiry (event : BitVec 16)
  | waveRequest (src : Sender) (event : BitVec 16) (offset : Byte) (count : Byte)
  | waveCancel (src : Sender)
  | reCheckEnd (cls : Fin 8)
  | repeatDue (id : Byte)
  | alertAck (src : Sender) (id : Byte)
  | alertList (src : Sender)
  | secondTick
  | timeMessage (after : Nat) (bytes : List Byte)
  | ppsEdge (after : Nat)
  | holdoverEntry
  | driftingEntry
  | restartAgeExpiry
  | gnssSettled
  | dutyRelease
  | refixRequest
  | refixBoundCrossed
  | frameBegin
  | transmissionComplete
  | warmUpExpiry
  | lingerExpiry
  | listenPeriod
  | listenWindowEnd
  /-- DOWNSTREAM_FRAME (R132 to R136): bytes of the line; a RESTART among them reads the straps. -/
  | downstreamFrame (after : WithStraps Nat) (bytes : List Byte)
  | receiveTimeout
  | scan (inputs : MonitorInputs)
  | fullRecalibration (inputs : MonitorInputs)
  | voltageOverride (inputs : MonitorInputs)
  | overrideRelease (inputs : MonitorInputs)
  | cutoff (inputs : MonitorInputs)
  | spacingExpiry
  | inrushAgeExpiry
  | inrushSuspensionEnd
  | burstEnd (load : Fin 8)
  | restEnd (load : Fin 8)
  | loadTest (src : Sender) (load : Byte) (seconds : Byte)
  | status (src : Sender)
  | tableWriteStation (src : Sender) (first count : Byte) (entries : List Byte)
  | tableWriteChannel (src : Sender) (first count : Byte) (entries : List Byte)
  | tableWriteEvent (src : Sender) (first count : Byte) (entries : List Byte)
  | tableWriteTime (src : Sender) (first count : Byte) (entries : List Byte)
  | tableWriteCorrection (src : Sender) (first count : Byte) (entries : List Byte)
  | tableWriteAlert (src : Sender) (first count : Byte) (entries : List Byte)
  | tableWriteLoad (src : Sender) (first count : Byte) (entries : List Byte)
  | tableWriteZone (src : Sender) (first count : Byte) (entries : List Byte)
  | tableWriteBattery (src : Sender) (first count : Byte) (entries : List Byte)
  | tableWriteCountermask (src : Sender) (first count : Byte) (entries : List Byte)
  | tableRead (src : Sender) (table first count : Byte)
  | counterRead (src : Sender) (first count : Byte)
  | counterClear (src : Sender) (first count : Byte)
  | timeSet (src : Sender) (label : BitVec 40) (fraction : BitVec 24)
  | eventList (src : Sender)
  | eventRead (src : Sender) (event : BitVec 16)
  | save (src : Sender)
  /-- SAVE_COMPLETE (R184): the memory has taken the image; `readBack` is the image read back from it. -/
  | saveComplete (after : Nat) (readBack : List Byte)
  /-- SAVE_NO_ANSWER (R184): the memory stopped answering after it had taken `written` bytes. -/
  | saveNoAnswer (after : Nat) (written : Nat)
  /-- RESTART (R182), which reads the straps. -/
  | restart (src : WithStraps Sender)
  | payloadLengthAbove96 (after : Nat) (header : LinkHeader)
  | supplyLoss
  deriving DecidableEq, Repr

end Sys2Proof
end

