-- ==== Sys2Proof/Decode.lean ====
section
/-!
DEFINITION. Reading and writing the byte layouts the spec gives: the frame check (00_scope.md, Conventions),
the digitizer frame (section 1.2), the GNSS time message (R14), the link header (section 7.1) and the common
part of the command payload with the command catalogue (sections 10.1, 10.2).
`decodeTableWord` is what the host asks of a block: no row of the opcode table gives bits, so no word spells
a command.
-/

namespace Sys2Proof

/-- The command a word of the table's bits spells: none, since no row of the table gives bits. -/
def decodeTableWord (_nbits _w : Nat) : Option Instr := none

/-! ### Byte order and sign (Conventions: most significant byte first; R174: two's complement) -/

/-- The number a run of bytes spells, most significant byte first. -/
def beNat (bs : List Byte) : Nat := bs.foldl (fun acc b => acc * 256 + b.toNat) 0

/-- `n` bytes, most significant first, that spell `v` modulo 2^(8n). -/
def toBytes : (n : Nat) → (v : Nat) → List Byte
  | 0, _ => []
  | n + 1, v => BitVec.ofNat 8 (v / 256 ^ n) :: toBytes n v

/-- The two's complement value of a run of bytes. -/
def beInt (bs : List Byte) : Int :=
  let v := beNat bs
  if v < 256 ^ bs.length / 2 then (v : Int) else (v : Int) - (256 ^ bs.length : Nat)

/-- `n` bytes of two's complement that spell `v`. -/
def intBytes (n : Nat) (v : Int) : List Byte := toBytes n (v % (256 ^ n : Nat)).toNat

/-- Bytes `i` to `i + n - 1` of a run. -/
def field (i n : Nat) (bs : List Byte) : List Byte := (bs.drop i).take n

/-- The flag in bit `i` of a byte. -/
def bit (b : Byte) (i : Nat) : Bool := b.getLsbD i

/-- The byte whose bit `i` is the `i`-th flag. -/
def flagByte (l : List Bool) : Byte :=
  BitVec.ofNat 8 (l.foldr (fun f acc => (if f then 1 else 0) + 2 * acc) 0)

/-! ### The frame check (Conventions): x^16 + x^12 + x^5 + 1, initial 0xFFFF, most significant bit first -/

/-- One bit of the check: the register shifts left, and takes the generator when the bit shifted out is 1. -/
def crcBit (c : BitVec 16) : BitVec 16 := if c.getLsbD 15 then (c <<< 1) ^^^ 0x1021 else c <<< 1

/-- One byte of the check. -/
def crcByte (c : BitVec 16) (b : Byte) : BitVec 16 :=
  crcBit (crcBit (crcBit (crcBit (crcBit (crcBit (crcBit (crcBit (c ^^^ (b.zeroExtend 16 <<< 8)))))))))

/-- The CRC-16 of a run of bytes (Conventions, Frame check). -/
def crc16 (bs : List Byte) : BitVec 16 := bs.foldl crcByte 0xFFFF

/-- A run of bytes followed by its check, most significant byte first. -/
def withCheck (bs : List Byte) : List Byte := bs ++ toBytes 2 (crc16 bs).toNat

/-- Whether the last two bytes are the check of the bytes before them. -/
def checkGood (bs : List Byte) : Bool :=
  decide (2 ≤ bs.length) &&
    beNat (bs.drop (bs.length - 2)) == (crc16 (bs.take (bs.length - 2))).toNat

/-! ### The digitizer frame (section 1.2, R4) -/

/-- A well-formed digitizer frame: the sequence answered, six samples, six clip flags, the fault flag. -/
structure DigFrame where
  seq : Byte
  samples : Six Int
  clips : Six Bool
  fault : Bool
  deriving DecidableEq, Repr

/-- The frame that 22 bytes with a good check spell, and none otherwise (R4's form check). -/
def decodeDigFrame (bs : List Byte) : Option DigFrame :=
  if bs.length = 22 ∧ checkGood bs then
    let flags := bs.getD 19 0
    some
      { seq := bs.getD 0 0
        samples := Six.ofFn fun c => beInt (field (1 + 3 * c.val) 3 bs)
        clips := Six.ofFn fun c => bit flags c.val
        fault := bit flags 6 }
  else none

/-- The 22 bytes of a frame (bit 7 of the flags is not used and is sent 0). -/
def encodeDigFrame (f : DigFrame) : List Byte :=
  withCheck
    (f.seq :: ((f.samples.toList.map (intBytes 3)).flatten ++ [flagByte (f.clips.toList ++ [f.fault])]))

/-! ### The GNSS time message (R14) -/

/-- A good time message: label of the coming edge, whether the fix is valid, satellites in use. -/
structure TimeMessage where
  label : Nat
  fixValid : Bool
  satellites : Nat
  deriving DecidableEq, Repr

/-- The message that nine bytes with a good check spell, and none otherwise. -/
def decodeTimeMessage (bs : List Byte) : Option TimeMessage :=
  if bs.length = 9 ∧ checkGood bs then
    some
      { label := beNat (field 0 5 bs)
        fixValid := bs.getD 5 0 == 1
        satellites := (bs.getD 6 0).toNat }
  else none

/-- The nine bytes of a message (fix status 1 for a valid fix, 0 for none). -/
def encodeTimeMessage (m : TimeMessage) : List Byte :=
  withCheck (toBytes 5 m.label ++ [if m.fixValid then 1 else 0] ++ toBytes 1 m.satellites)

/-! ### The link frame (section 7.1) -/

/-- The 10 header bytes, sync included. -/
def encodeHeader (h : LinkHeader) : List Byte :=
  [0x5A, 0xC3, h.kind, h.flags] ++ toBytes 2 h.station.toNat ++ [h.centre, h.tag] ++
    toBytes 2 h.length.toNat

/-- The header that the first 10 bytes of a frame spell. -/
def decodeHeader (bs : List Byte) : LinkHeader where
  kind := bs.getD 2 0
  flags := bs.getD 3 0
  station := BitVec.ofNat 16 (beNat (field 4 2 bs))
  centre := bs.getD 6 0
  tag := bs.getD 7 0
  length := BitVec.ofNat 16 (beNat (field 8 2 bs))

/-- A whole link frame: header, payload, check over both. -/
def encodeFrame (h : LinkHeader) (payload : List Byte) : List Byte :=
  withCheck (encodeHeader h ++ payload)

/-! ### The command payload (sections 10.1, 10.2) -/

/-- A command as CMD takes it: the seventeen of the catalogue, and the three forms that R172's common
checks refuse (an empty payload, a kind that is no code, a length that does not fit the kind). -/
inductive Command where
  | status
  | tableWrite (table first count : Nat) (entries : List Byte)
  | tableRead (table first count : Nat)
  | counterRead (first count : Nat)
  | counterClear (first count : Nat)
  | timeSet (label fraction : Nat)
  | alertAck (id : Nat)
  | alertList
  | eventList
  | eventRead (event : Nat)
  | hold (event minutes : Nat)
  | release (event : Nat)
  | waveRequest (event offset count : Nat)
  | waveCancel
  | loadTest (load seconds : Nat)
  | save
  | restart
  | emptyPayload
  | unknownKind (kind : Byte)
  | badLength (kind : Byte)
  deriving DecidableEq, Repr

/-- The command kind a reply echoes: the code as received, 0 for an empty payload. -/
def Command.kind : Command → Byte
  | .status => 1
  | .tableWrite .. => 2
  | .tableRead .. => 3
  | .counterRead .. => 4
  | .counterClear .. => 5
  | .timeSet .. => 6
  | .alertAck .. => 7
  | .alertList => 8
  | .eventList => 9
  | .eventRead .. => 10
  | .hold .. => 11
  | .release .. => 12
  | .waveRequest .. => 13
  | .waveCancel => 14
  | .loadTest .. => 15
  | .save => 16
  | .restart => 17
  | .emptyPayload => 0
  | .unknownKind k => k
  | .badLength k => k

/-- The payload length that the catalogue gives each kind; TABLE_WRITE's depends on the table (R175). -/
def payloadLengthOf (kind : Nat) : Nat :=
  match kind with
  | 3 => 4 | 4 => 3 | 5 => 3 | 6 => 9 | 7 => 2 | 10 => 3 | 11 => 4 | 12 => 3 | 13 => 5 | 15 => 3
  | _ => 1

/-- CMD's reading of a command payload: R172's common checks, then the fields of the catalogue. -/
def decodeCommand (p : List Byte) : Command :=
  match p with
  | [] => .emptyPayload
  | k :: fs =>
    if k.toNat < 1 ∨ 17 < k.toNat then .unknownKind k
    else if k.toNat = 2 then
      if p.length < 4 then .badLength k
      else .tableWrite (beNat (field 0 1 fs)) (beNat (field 1 1 fs)) (beNat (field 2 1 fs)) (fs.drop 3)
    else if p.length ≠ payloadLengthOf k.toNat then .badLength k
    else
      let at1 (i : Nat) : Nat := beNat (field i 1 fs)
      let at2 (i : Nat) : Nat := beNat (field i 2 fs)
      match k.toNat with
      | 1 => .status
      | 3 => .tableRead (at1 0) (at1 1) (at1 2)
      | 4 => .counterRead (at1 0) (at1 1)
      | 5 => .counterClear (at1 0) (at1 1)
      | 6 => .timeSet (beNat (field 0 5 fs)) (beNat (field 5 3 fs))
      | 7 => .alertAck (at1 0)
      | 8 => .alertList
      | 9 => .eventList
      | 10 => .eventRead (at2 0)
      | 11 => .hold (at2 0) (at1 2)
      | 12 => .release (at2 0)
      | 13 => .waveRequest (at2 0) (at1 2) (at1 3)
      | 14 => .waveCancel
      | 15 => .loadTest (at1 0) (at1 1)
      | 16 => .save
      | _ => .restart

/-- The payload of a command, in the order of the catalogue's fields. -/
def encodeCommand (c : Command) : List Byte :=
  match c with
  | .emptyPayload => []
  | .unknownKind k => [k]
  | .badLength k => [k]
  | .tableWrite t f n es => c.kind :: (toBytes 1 t ++ toBytes 1 f ++ toBytes 1 n ++ es)
  | .tableRead t f n => c.kind :: (toBytes 1 t ++ toBytes 1 f ++ toBytes 1 n)
  | .counterRead f n => c.kind :: (toBytes 1 f ++ toBytes 1 n)
  | .counterClear f n => c.kind :: (toBytes 1 f ++ toBytes 1 n)
  | .timeSet l f => c.kind :: (toBytes 5 l ++ toBytes 3 f)
  | .alertAck i => c.kind :: toBytes 1 i
  | .eventRead e => c.kind :: toBytes 2 e
  | .hold e m => c.kind :: (toBytes 2 e ++ toBytes 1 m)
  | .release e => c.kind :: toBytes 2 e
  | .waveRequest e o n => c.kind :: (toBytes 2 e ++ toBytes 1 o ++ toBytes 1 n)
  | .loadTest l s => c.kind :: (toBytes 1 l ++ toBytes 1 s)
  | .status | .alertList | .eventList | .waveCancel | .save | .restart => [c.kind]

/-- The values the fields of the catalogue can carry: what `encodeCommand` loses nothing of. -/
def Command.fits : Command → Bool
  | .tableWrite t f n _ => decide (t < 256 ∧ f < 256 ∧ n < 256)
  | .tableRead t f n => decide (t < 256 ∧ f < 256 ∧ n < 256)
  | .counterRead f n => decide (f < 256 ∧ n < 256)
  | .counterClear f n => decide (f < 256 ∧ n < 256)
  | .timeSet l f => decide (l < 2 ^ 40 ∧ f < 2 ^ 24)
  | .alertAck i => decide (i < 256)
  | .eventRead e => decide (e < 65536)
  | .hold e m => decide (e < 65536 ∧ m < 256)
  | .release e => decide (e < 65536)
  | .waveRequest e o n => decide (e < 65536 ∧ o < 256 ∧ n < 256)
  | .loadTest l s => decide (l < 256 ∧ s < 256)
  | .unknownKind _ | .badLength _ => false
  | _ => true

end Sys2Proof
end

