-- ==== Sys2Proof/Machine/State.lean ====
section
/-!
DEFINITION. The state of the GX-318, block by block (00_scope.md, Blocks), as plain data, and the state right
after a cold start. INVENTORY.md lists every field with the rule that names it and its reset value.
-/

namespace Sys2Proof.Machine

/-! ### Names shared by the blocks -/

/-- A station time: seconds label and fraction in units of 100 ns (section 2.1). -/
structure Time where
  label : Nat
  frac : Nat
  deriving DecidableEq, Repr

/-- The six time-quality states (section 2.4). -/
inductive TimeQuality where
  | locked | holdover | acquiring | drifting | coarse | unset
  deriving DecidableEq, Repr

/-- A timestamp with its time quality. -/
structure Stamp where
  time : Time
  tq : TimeQuality
  deriving DecidableEq, Repr

/-- The shed levels, lowest first (Conventions, Order of shed levels). -/
inductive ShedLevel where
  | full | conserve | essential | survival | cutoff
  deriving DecidableEq, Repr

/-! ### The loadable tables (section 10.3) -/

/-- STATION (chapters 1, 7 and 9). -/
structure StationTable where
  address : Nat
  sampleRate : Nat
  dataPacking : Nat
  listenPeriod : Nat
  listenWindow : Nat
  radioWarmUp : Nat
  radioLinger : Nat
  gapReset : Nat
  inrushLimit : Nat
  inrushWindow : Nat
  shortSpacing : Nat
  longSpacing : Nat
  deriving DecidableEq, Repr

/-- CHANNEL (chapters 3, 4 and 7). -/
structure ChannelEntry where
  enable : Bool
  h : Nat
  a : Nat
  b : Nat
  ron : Nat
  roff : Nat
  lmin : Nat
  maxTrigger : Nat
  weight : Nat
  strongMotion : Nat
  mask : Four Bool
  stream : Bool
  deriving DecidableEq, Repr

/-- EVENT (chapter 4); the window W is in tenths of a second. -/
structure EventTable where
  threshold : Nat
  window : Nat
  preEvent : Nat
  postEvent : Nat
  maxLength : Nat
  quietTail : Nat
  deriving DecidableEq, Repr

/-- How the GNSS receiver is worked (section 2.8). -/
inductive GnssMode where
  | continuous | duty
  deriving DecidableEq, Repr

/-- TIME (sections 2.4 and 2.8), in the order of section 10.3. -/
structure TimeTable where
  stepThreshold : Nat
  lockThreshold : Nat
  lockCount : Nat
  kp : Nat
  ki : Nat
  acceptWindow : Nat
  holdoverTimeout : Nat
  drift : Nat
  degradeBound : Nat
  refixBound : Nat
  gnssSettle : Nat
  gnssMode : GnssMode
  refixInterval : Nat
  maxOnTime : Nat
  minLockTime : Nat
  deriving DecidableEq, Repr

inductive CorrectionKind where
  | none | insert | delete | step
  deriving DecidableEq, Repr

inductive CorrectionStatus where
  | empty | armed | fired | missed
  deriving DecidableEq, Repr

/-- A CORRECTION entry (section 2.6); the amount is in ms. -/
structure CorrectionEntry where
  kind : CorrectionKind
  target : Nat
  amount : Int
  status : CorrectionStatus
  deriving DecidableEq, Repr

inductive AlertMode where
  | edge | level
  deriving DecidableEq, Repr

/-- An ALERT entry (section 6.1). -/
structure AlertEntry where
  enable : Bool
  priority : Nat
  mode : AlertMode
  dest1 : Nat
  dest2 : Nat
  interval : Nat
  limit : Nat
  deriving DecidableEq, Repr

/-- A LOAD entry (chapter 9); the group is fixed by the part and is not stored. Blanking in units of 10 ms. -/
structure LoadEntry where
  enable : Bool
  priority : Nat
  burst : Nat
  minRest : Nat
  blanking : Nat
  deriving DecidableEq, Repr

/-- A ZONE entry (section 9.4); temperatures in tenths of a degree. -/
structure ZoneEntry where
  sensor : Fin 4
  setpoint : Int
  hysteresis : Nat
  floor : Int
  essential : Bool
  deriving DecidableEq, Repr

/-- BATTERY (chapter 8). -/
structure BatteryTable where
  capacity : Nat
  efficiency : Nat
  s1 : Nat
  s2 : Nat
  s3 : Nat
  hysteresis : Nat
  vSurv : Nat
  vCut : Nat
  fullVoltage : Nat
  taper : Nat
  chargeMin : Int
  chargeMax : Int
  heaterOffset : Nat
  rest0 : Nat
  rest250 : Nat
  rest500 : Nat
  rest750 : Nat
  rest1000 : Nat
  deriving DecidableEq, Repr

/-- The ten loadable tables. -/
structure Tables where
  station : StationTable
  channel : Six ChannelEntry
  event : EventTable
  time : TimeTable
  correction : Three CorrectionEntry
  alert : Eight AlertEntry
  load : Eight LoadEntry
  zone : Six ZoneEntry
  battery : BatteryTable
  countermask : Vector Bool 40
  deriving DecidableEq, Repr

/-! ### SIF (chapter 1) -/

/-- An entry of the outstanding-strobe list (section 1.1). -/
structure Strobe where
  seq : Byte
  time : Time
  tq : TimeQuality
  stepFlag : Bool
  leapFlag : Bool
  frame : Option DigFrame
  deriving DecidableEq, Repr

/-- A delivered frame (section 1.3); also what a frame slot of the buffer memory holds (R81). -/
structure Delivered where
  seq : Byte
  time : Time
  tq : TimeQuality
  stepFlag : Bool
  leapFlag : Bool
  samples : Six Int
  clips : Six Bool
  fault : Bool
  deriving DecidableEq, Repr

structure Sif where
  nextSeq : Byte
  strobes : List Strobe
  lastAccepted : Option Byte
  missingRun : Nat
  gapSignalled : Bool
  stepCarry : Bool
  a6 : Bool
  rate : Nat
  deriving DecidableEq, Repr

/-! ### TMB (chapter 2) -/

/-- A slew in progress (R13, R17): its whole amount in ns, and how much rate-corrected time of its second has
passed, of the `10^9 + amount` ns it takes. -/
structure Slew where
  amount : Int
  passed : Nat
  deriving DecidableEq, Repr

/-- L1 as TMB sees it (R35). -/
inductive GnssState where
  | off | settling | active
  deriving DecidableEq, Repr

/-- The three ways of working L1 (R34). -/
inductive GnssWay where
  | continuous | duty | off
  deriving DecidableEq, Repr

/-- TMB (chapter 2, state table). Inserted seconds (R30): `marks` holds the labels of the seconds that are to run twice and whose
first run has not ended, each once; `repeating` says that the second in force is a repeat. -/
structure Tmb where
  label : Nat
  ns : Nat
  residue : Nat
  freq : Int
  tq : TimeQuality
  lockCount : Nat
  err : Nat
  slew : Option Slew
  message : Option TimeMessage
  satellites : Nat
  edgeAge : Nat
  disOffset : Int
  disCount : Nat
  suspension : Option Nat
  marks : List Nat
  repeating : Bool
  gnss : GnssState
  onTime : Nat
  lockedTime : Nat
  refixCounter : Nat
  refixArmed : Bool
  restartAge : Nat
  a3 : Bool
  way : Option GnssWay
  stepMark : Bool
  strobeNext : Nat
  deriving DecidableEq, Repr

/-! ### DET (chapter 3) -/

inductive DetState where
  | off | warming | armed | triggered
  deriving DecidableEq, Repr

structure Detector where
  baseline : Int
  sta : Int
  lta : Int
  state : DetState
  awaiting : Bool
  warm : Nat
  rearm : Bool
  timer : Nat
  blank : Nat
  deriving DecidableEq, Repr

/-! ### EVU (chapter 4) -/

/-- A largest magnitude with its time (R75). -/
structure Peak where
  value : Nat
  time : Time
  deriving DecidableEq, Repr

/-- A channel's contribution (section 4.2), with the channel's latest trigger-off since it began (R69). -/
structure Contribution where
  weight : Nat
  window : Nat
  firstOn : Stamp
  peak : Option Peak
  lastOff : Option Time
  deriving DecidableEq, Repr

inductive EventPhase where
  | idle | opened | closing
  deriving DecidableEq, Repr

inductive RecordState where
  | opened | closing | closed
  deriving DecidableEq, Repr

inductive EndReason where
  | normal | maxLength | restart
  deriving DecidableEq, Repr

inductive WaveState where
  | kept | partly | lost
  deriving DecidableEq, Repr

structure Contributor where
  channel : Fin 6
  firstOn : Stamp
  lastOff : Option Time
  peak : Option Peak
  deriving DecidableEq, Repr

/-- The waveform fields of a record (section 5.3). -/
structure Waveform where
  first : Option Nat
  count : Nat
  state : WaveState
  deriving DecidableEq, Repr

/-- An event record (section 4.3.1). Its hold field is the hold list's entry for it (`holdOf`). -/
structure EventRecord where
  number : Nat
  state : RecordState
  declared : Stamp
  contributors : List Contributor
  closed : Option Stamp
  reason : Option EndReason
  blankedDuring : Bool
  truncated : Bool
  timeDegraded : Bool
  strongMotion : Bool
  wave : Waveform
  deriving DecidableEq, Repr

structure Evu where
  triggered : Six Bool
  contrib : Six (Option Contribution)
  voteSum : Nat
  phase : EventPhase
  forced : Bool
  current : Option Nat
  age : Nat
  post : Nat
  tail : Option Nat
  table : List EventRecord
  nextNumber : Nat
  lastNumber : Nat
  deriving DecidableEq, Repr

/-! ### WFS (chapter 5) -/

inductive SegState where
  | free | writing | kept
  deriving DecidableEq, Repr

/-- A segment record (R81) with its frame slots: slot `i` of the memory is entry `i` of `slots`. -/
structure Segment where
  order : Option Nat
  first : Option Time
  count : Nat
  state : SegState
  owner : Option Nat
  slots : List Delivered
  deriving DecidableEq, Repr

structure Hold where
  event : Nat
  owner : Nat
  seconds : Nat
  deriving DecidableEq, Repr

/-- A WAVE frame (R93): flags and payload fields. -/
structure WaveFrame where
  centre : Nat
  tag : Byte
  gap : Bool
  step : Bool
  leap : Bool
  last : Bool
  event : Nat
  offset : Nat
  index : Nat
  first : Time
  tq : TimeQuality
  frames : List Delivered
  deriving DecidableEq, Repr

/-- The retrieval job (section 5.5), with the WAVE frame it keeps formed (R93). -/
structure Job where
  event : Nat
  centre : Nat
  tag : Byte
  nextSegment : Nat
  nextFrame : Nat
  left : Nat
  sent : Nat
  ready : WaveFrame
  deriving DecidableEq, Repr

structure Wfs where
  segments : List Segment
  writer : Option Nat
  claim : Option Nat
  nextOrder : Nat
  holds : List Hold
  job : Option Job
  deriving DecidableEq, Repr

/-! ### ALU (chapter 6) -/

inductive DigitizerCause where
  | gap | fault
  deriving DecidableEq, Repr

inductive GateCause where
  | low | high | fault
  deriving DecidableEq, Repr

inductive HeatSubject where
  | zone (z : Fin 6)
  | sensor (t : Fin 4)
  deriving DecidableEq, Repr

/-- The summary of a closed record that an A2 raise carries (R73). -/
structure CloseSummary where
  number : Nat
  declared : Stamp
  closed : Stamp
  reason : EndReason
  blankedDuring : Bool
  truncated : Bool
  timeDegraded : Bool
  strongMotion : Bool
  contributors : Nat
  largest : Option (Fin 6 × Peak)
  deriving DecidableEq, Repr

/-- The class payloads (section 6.1). A reading of `none` is the faulty mark. -/
inductive AlertPayload where
  | declared (event : Nat) (at' : Stamp) (voteSum : Nat) (channels : Six Bool)
  | strongMotion (event : Nat) (channel : Fin 6) (magnitude : Nat) (at' : Time)
  | closed (summary : CloseSummary)
  | timeDegraded (tq : TimeQuality) (err : Nat)
  | battery (level : ShedLevel) (soc : Nat) (v : Option Int)
  | temperature (subject : HeatSubject) (temperature : Option Int)
  | digitizer (cause : DigitizerCause) (run : Nat)
  | charge (t2 : Option Int) (cause : Option GateCause)
  deriving DecidableEq, Repr

inductive AlertState where
  | waiting | sent | heldBack
  deriving DecidableEq, Repr

/-- An instance in the Alert Queue (section 6.2). -/
structure AlertInstance where
  id : Nat
  cls : Fin 8
  priority : Nat
  order : Nat
  raised : Stamp
  occurrences : Nat
  payload : Option AlertPayload
  pending : List Nat
  sends : Nat
  wait : Nat
  state : AlertState
  cleared : Bool
  deriving DecidableEq, Repr

/-- A station-scope class's recorded condition (R99). -/
structure Condition where
  value : Bool
  payload : Option AlertPayload
  deriving DecidableEq, Repr

structure Alu where
  queue : List AlertInstance
  nextId : Nat
  nextOrder : Nat
  conds : Eight Condition
  recheck : Eight (Option Nat)
  deriving DecidableEq, Repr

/-! ### BMN (chapter 8) -/

/-- An input's reading (R140). -/
structure Reading where
  value : Option Int
  bad : Nat
  faulty : Bool
  deriving DecidableEq, Repr

inductive Gate where
  | opened
  | closed (cause : GateCause)
  deriving DecidableEq, Repr

structure Bmn where
  v : Reading
  i : Reading
  temps : Four Reading
  q : Nat
  r : Nat
  soc : Nat
  estPending : Bool
  recal : Nat
  socLevel : ShedLevel
  override : Bool
  low : Nat
  recovery : Nat
  cut : Nat
  shed : ShedLevel
  formed : Bool
  gate : Option Gate
  disconnect : Bool
  nextScan : Nat
  deriving DecidableEq, Repr

/-! ### LDA and HZC (chapter 9) -/

inductive LoadState where
  | off | requested | on | resting
  deriving DecidableEq, Repr

/-- Who placed a request; a LOAD_TEST request carries its seconds (R168). -/
inductive Source where
  | lnk | tmb | hzc
  | test (seconds : Nat)
  deriving DecidableEq, Repr

structure Request where
  source : Source
  priority : Nat
  critical : Bool
  deriving DecidableEq, Repr

/-- A load (chapter 9, state table); burst and rest are held in ns of oscillator time. -/
structure Load where
  state : LoadState
  request : Option Request
  remembered : Bool
  deferred : Bool
  burst : Nat
  rest : Nat
  deriving DecidableEq, Repr

structure Lda where
  loads : Eight Load
  record : List Nat
  lastAct : Option Nat
  lastGroup : Four (Option Nat)
  limit : Nat
  window : Nat
  suspension : Option Nat
  coldWait : Bool
  deriving DecidableEq, Repr

/-- A zone as HZC holds it; the temperature is absent before the first judgement and `some none` when its
sensor was faulty. -/
structure Zone where
  temperature : Option (Option Int)
  demand : Bool
  critical : Bool
  below : Bool
  deriving DecidableEq, Repr

structure Hzc where
  zones : Six Zone
  handed : Option (Four (Option Int))
  faultySensors : Four Bool
  a5 : Bool
  a5Payload : Option AlertPayload
  deriving DecidableEq, Repr

/-! ### CMD (chapter 10) -/

inductive ConfigSource where
  | image | defaults
  deriving DecidableEq, Repr

/-- A save in progress (R184). -/
structure SaveJob where
  snapshot : List Byte
  centre : Nat
  written : Nat
  deriving DecidableEq, Repr

structure Cmd where
  source : ConfigSource
  save : Option SaveJob
  deriving DecidableEq, Repr

/-- The configuration memory: its bytes, and whether the last write of an image did not end well (R184). -/
structure ConfigMemory where
  bytes : List Byte
  torn : Bool
  deriving DecidableEq, Repr

/-- Reply statuses and reasons (R173, section 10.1). -/
inductive Reason where
  | unknownKind | badLength | badTable | badIndex | badValue | busy | held | noRoom | noEvent | noWave
  | notClosed | noAlert | shed | timeHeld | past
  deriving DecidableEq, Repr

inductive ReplyStatus where
  | done | clamped
  | refused (reason : Reason)
  deriving DecidableEq, Repr

/-- One line of ALERT_LIST's reply (R111). -/
structure AlertLine where
  id : Nat
  cls : Fin 8
  priority : Nat
  state : AlertState
  occurrences : Nat
  sends : Nat
  wait : Nat
  cleared : Bool
  pending : List Nat
  deriving DecidableEq, Repr

/-- What STATUS reports (R180). -/
structure StatusReport where
  time : Stamp
  err : Nat
  satellites : Nat
  address : Nat
  rate : Nat
  ratePending : Bool
  source : ConfigSource
  shed : ShedLevel
  soc : Nat
  v : Option Int
  i : Option Int
  temps : Four (Option Int)
  gate : Option Gate
  phase : EventPhase
  lastNumber : Nat
  alerts : Nat
  replies : Nat
  notices : Nat
  data : Nat
  radio : Nat
  loads : Eight LoadState
  holds : List Hold
  job : Option (Nat × Nat × Nat × Nat × Bool)
  saving : Bool
  deriving DecidableEq, Repr

/-- The data of a reply after its reason, by the rule of its command. -/
inductive ReplyData where
  | none
  | bytes (bs : List Byte)
  | owner (centre : Nat)
  | index (i : Nat)
  | time (t : Time)
  | alertLeft (id : Nat) (pending : List Nat) (notDestination : Bool)
  | alerts (lines : List AlertLine)
  | events (lines : List (Nat × RecordState × WaveState))
  | record (r : EventRecord) (hold : Option Hold)
  | hold (owner seconds : Nat) (wave : WaveState)
  | wave (segments frames : Nat)
  | load (state : LoadState) (seconds : Nat)
  | status (report : StatusReport)
  deriving DecidableEq, Repr

structure Reply where
  kind : Byte
  status : ReplyStatus
  data : ReplyData
  deriving DecidableEq, Repr

/-! ### LNK (chapter 7) -/

inductive StartCause where
  | cold | warm
  deriving DecidableEq, Repr

inductive CancelCause where
  | cancel | release | expiry | held | lost | shed
  deriving DecidableEq, Repr

inductive SaveFailure where
  | mismatch | noAnswer
  deriving DecidableEq, Repr

/-- The notice kinds with their fields (section 11.4). -/
inductive NoticeBody where
  | start (cause : StartCause) (source : ConfigSource)
  | shed (previous new : ShedLevel) (soc : Nat) (v : Option Int) (voltage : Bool)
  | correction (index : Fin 3) (kind : CorrectionKind) (target : Nat) (fired : Bool)
  | holdExpired (event : Nat)
  | cancelled (event : Nat) (cause : CancelCause) (sent : Nat)
  | saveDone (length : Nat) (check : Nat)
  | saveFailed (cause : SaveFailure)
  | counter (index : Nat) (value : Nat)
  deriving DecidableEq, Repr

/-- A queued notice with its stamp (R127). -/
structure Notice where
  body : NoticeBody
  dest : Nat
  stamp : Stamp
  deriving DecidableEq, Repr

/-- One sample frame of a DATA frame: the included channels' samples and clip flags. -/
structure StreamFrame where
  samples : List Int
  clips : List Bool
  deriving DecidableEq, Repr

/-- A DATA frame (section 7.3). -/
structure DataFrame where
  first : Time
  tq : TimeQuality
  mask : Six Bool
  frames : List StreamFrame
  gap : Bool
  step : Bool
  leap : Bool
  deriving DecidableEq, Repr

/-- A place of the reply queue, filled or not (R126). -/
structure ReplyPlace where
  centre : Nat
  tag : Byte
  reply : Option Reply
  deriving DecidableEq, Repr

/-- The payload of an ALERT frame (R107). -/
structure AlertBody where
  id : Nat
  cls : Fin 8
  priority : Nat
  occurrences : Nat
  sends : Nat
  cleared : Bool
  raised : Stamp
  pending : List Nat
  payload : Option AlertPayload
  deriving DecidableEq, Repr

inductive UpBody where
  | data (f : DataFrame)
  | wave (f : WaveFrame)
  | alert (f : AlertBody)
  | reply (r : Reply)
  | notice (n : Notice)
  deriving DecidableEq, Repr

/-- An upstream frame: the header fields of R118 and the payload. -/
structure UpFrame where
  kind : Nat
  broadcast : Bool
  last : Bool
  gap : Bool
  step : Bool
  leap : Bool
  address : Nat
  centre : Nat
  tag : Byte
  body : UpBody
  deriving DecidableEq, Repr

/-- The frame in transmission and the line time it still takes, in ns (R119). -/
structure Sending where
  frame : UpFrame
  left : Nat
  deriving DecidableEq, Repr

inductive RadioState where
  | off | requested | warming | ready
  deriving DecidableEq, Repr

/-- The receiver (R132, R133): hunting, or receiving with the bytes of a frame so far. `deaf` is the model's own: the bytes
so far of a frame that began while LNK was not listening, and that is lost to its end (R132; log entry 41). -/
inductive Receiver where
  | hunting
  | receiving (bytes : List Byte)
  | deaf (bytes : List Byte)
  deriving DecidableEq, Repr

structure Lnk where
  tx : Option Sending
  replies : List ReplyPlace
  notices : List Notice
  dataQueue : List DataFrame
  openData : Option DataFrame
  gapPending : Bool
  radio : RadioState
  warmLeft : Option Nat
  lingerLeft : Option Nat
  listenCount : Nat
  listening : Bool
  receiver : Receiver
  rxLeft : Nat
  address : Nat
  deriving DecidableEq, Repr

/-! ### The part -/

/-- Whether the part runs: supply on, supply removed, or powered down at CUTOFF (R146, R185). -/
inductive Supply where
  | on | off | cut
  deriving DecidableEq, Repr

/-- The state of the GX-318. `pending` is the queue of commands that wait, first in, first out. -/
structure State where
  supply : Supply
  osc : Nat
  straps : Byte
  sif : Sif
  tmb : Tmb
  det : Six Detector
  evu : Evu
  wfs : Wfs
  alu : Alu
  lnk : Lnk
  bmn : Bmn
  lda : Lda
  hzc : Hzc
  cmd : Cmd
  cnt : Vector (BitVec 32) 40
  tables : Tables
  image : ConfigMemory
  pending : List Instr
  deriving DecidableEq, Repr

/-- Reasons the machine could stop with a fault. No rule of the spec stops the part: every bad frame, bad
reading and refused command has a stated effect, so nothing raises one (safe: no run is lost to it). -/
inductive Fault where
  /-- Raised by nothing: kept so that the type has a name to give. -/
  | never
  deriving DecidableEq, Repr

/-- Reasons a command could be refused by the model. -/
inductive Refusal where
  /-- Raised by an arm of `exec` whose command has no meaning yet; none is left (safe: the run stops). -/
  | notModelled (mnemonic : String)
  deriving DecidableEq, Repr

/-! ### The built-in defaults (R185; the owning chapters' field tables) -/

namespace Defaults

def station : StationTable where
  address := 0
  sampleRate := 200
  dataPacking := 10
  listenPeriod := 600
  listenWindow := 30
  radioWarmUp := 500
  radioLinger := 20
  gapReset := 20
  inrushLimit := 3
  inrushWindow := 10
  shortSpacing := 1
  longSpacing := 5

def channel : ChannelEntry where
  enable := true
  h := 10
  a := 3
  b := 10
  ron := 56
  roff := 24
  lmin := 64
  maxTrigger := 120
  weight := 1
  strongMotion := 0
  mask := Four.fill true
  stream := true

def event : EventTable where
  threshold := 2
  window := 50
  preEvent := 20
  postEvent := 30
  maxLength := 300
  quietTail := 60

def time : TimeTable where
  stepThreshold := 1000000
  lockThreshold := 1000
  lockCount := 10
  kp := 1
  ki := 6
  acceptWindow := 100
  holdoverTimeout := 5
  drift := 20
  degradeBound := 100000
  refixBound := 20000
  gnssSettle := 60
  gnssMode := .continuous
  refixInterval := 3600
  maxOnTime := 900
  minLockTime := 120

def correction : CorrectionEntry := ⟨.none, 0, 0, .empty⟩

/-- The defaults of section 6.1. -/
def alert : Eight AlertEntry where
  x0 := ⟨true, 1, .edge, 1, 0, 30, 0⟩
  x1 := ⟨true, 1, .edge, 1, 0, 30, 0⟩
  x2 := ⟨true, 2, .edge, 1, 0, 60, 0⟩
  x3 := ⟨true, 4, .level, 1, 0, 3600, 3⟩
  x4 := ⟨true, 2, .level, 1, 0, 600, 0⟩
  x5 := ⟨true, 3, .level, 1, 0, 900, 0⟩
  x6 := ⟨true, 3, .edge, 1, 0, 300, 0⟩
  x7 := ⟨true, 4, .level, 1, 0, 1800, 4⟩

/-- The defaults of chapter 9: L0, L1 and the heaters L2…L7. -/
def load : Eight LoadEntry where
  x0 := ⟨true, 2, 120, 0, 20⟩
  x1 := ⟨true, 3, 120, 30, 20⟩
  x2 := ⟨true, 5, 120, 30, 20⟩
  x3 := ⟨true, 5, 120, 30, 20⟩
  x4 := ⟨true, 5, 120, 30, 20⟩
  x5 := ⟨false, 5, 120, 30, 20⟩
  x6 := ⟨false, 5, 120, 30, 20⟩
  x7 := ⟨false, 5, 120, 30, 20⟩

/-- The defaults of section 9.4: Z0 on T2, Z1 on T1, Z2 on T3, the others on T0. -/
def zone : Six ZoneEntry where
  x0 := ⟨2, 50, 10, -100, true⟩
  x1 := ⟨1, 50, 10, -100, true⟩
  x2 := ⟨3, 50, 10, -100, true⟩
  x3 := ⟨0, 50, 10, -100, false⟩
  x4 := ⟨0, 50, 10, -100, false⟩
  x5 := ⟨0, 50, 10, -100, false⟩

def battery : BatteryTable where
  capacity := 100
  efficiency := 95
  s1 := 500
  s2 := 300
  s3 := 150
  hysteresis := 50
  vSurv := 11500
  vCut := 10800
  fullVoltage := 14200
  taper := 500
  chargeMin := 0
  chargeMax := 450
  heaterOffset := 50
  rest0 := 11800
  rest250 := 12100
  rest500 := 12350
  rest750 := 12600
  rest1000 := 12850

def tables : Tables where
  station := station
  channel := Six.fill channel
  event := event
  time := time
  correction := Three.fill correction
  alert := alert
  load := load
  zone := zone
  battery := battery
  countermask := Vector.replicate 40 true

end Defaults

/-! ### The values each chapter gives its block at cold start -/

namespace Cold

/-- R11. -/
def sif (rate : Nat) : Sif where
  nextSeq := 0
  strobes := []
  lastAccepted := none
  missingRun := 0
  gapSignalled := false
  stepCarry := false
  a6 := false
  rate := rate

/-- R39. -/
def tmb : Tmb where
  label := 0
  ns := 0
  residue := 0
  freq := 0
  tq := .unset
  lockCount := 0
  err := 0
  slew := none
  message := none
  satellites := 0
  edgeAge := 0
  disOffset := 0
  disCount := 0
  suspension := none
  marks := []
  repeating := false
  gnss := .off
  onTime := 0
  lockedTime := 0
  refixCounter := 0
  refixArmed := false
  restartAge := 0
  a3 := false
  way := none
  stepMark := false
  strobeNext := 0

/-- R61; B is set by the first usable sample. -/
def detector (enable : Bool) : Detector where
  baseline := 0
  sta := 0
  lta := 0
  state := if enable then .warming else .off
  awaiting := true
  warm := 0
  rearm := false
  timer := 0
  blank := 0

/-- R79. -/
def evu : Evu where
  triggered := Six.fill false
  contrib := Six.fill none
  voteSum := 0
  phase := .idle
  forced := false
  current := none
  age := 0
  post := 0
  tail := none
  table := []
  nextNumber := 1
  lastNumber := 0

/-- R97: FREE and never written. The buffer memory, which R97 leaves unread, holds no frame (log entry 20). -/
def segment : Segment := ⟨none, none, 0, .free, none, []⟩

/-- R97. -/
def wfs : Wfs where
  segments := List.replicate Config.segmentCount segment
  writer := none
  claim := none
  nextOrder := 0
  holds := []
  job := none

/-- R116. -/
def alu : Alu where
  queue := []
  nextId := 1
  nextOrder := 0
  conds := Eight.fill ⟨false, none⟩
  recheck := Eight.fill none

/-- R137 before the START notice. -/
def lnk (address : Nat) : Lnk where
  tx := none
  replies := []
  notices := []
  dataQueue := []
  openData := none
  gapPending := true
  radio := .off
  warmLeft := none
  lingerLeft := none
  listenCount := 0
  listening := true
  receiver := .hunting
  rxLeft := 0
  address := address

/-- R151: an input with no value in use. -/
def reading : Reading := ⟨none, 0, true⟩

/-- R151. -/
def bmn : Bmn where
  v := reading
  i := reading
  temps := Four.fill reading
  q := 0
  r := 0
  soc := 0
  estPending := true
  recal := 0
  socLevel := .survival
  override := false
  low := 0
  recovery := 0
  cut := 0
  shed := .survival
  formed := false
  gate := none
  disconnect := false
  nextScan := 0

/-- R170. -/
def load : Load := ⟨.off, none, false, false, 0, 0⟩

/-- R170. -/
def lda (limit window : Nat) : Lda where
  loads := Eight.fill load
  record := []
  lastAct := none
  lastGroup := Four.fill none
  limit := limit
  window := window
  suspension := none
  coldWait := true

/-- R170. -/
def hzc : Hzc where
  zones := Six.fill ⟨none, false, false, false⟩
  handed := none
  faultySensors := Four.fill false
  a5 := false
  a5Payload := none

end Cold

/-- The station right after a cold start (R185) with a configuration memory that holds no good image: the
built-in defaults, the START notice queued (R137), and LNK's request for L0 that the notice brings about. -/
def State.reset : State where
  supply := .on
  osc := 0
  straps := 0
  sif := Cold.sif 200
  tmb := Cold.tmb
  det := Six.fill (Cold.detector true)
  evu := Cold.evu
  wfs := Cold.wfs
  alu := Cold.alu
  lnk :=
    { Cold.lnk 65534 with
      notices := [⟨.start .cold .defaults, 0, ⟨⟨0, 0⟩, .unset⟩⟩]
      radio := .requested }
  bmn := Cold.bmn
  lda :=
    { Cold.lda 3 10 with
      loads := (Eight.fill Cold.load).set 0 ⟨.requested, some ⟨.lnk, 2, false⟩, false, false, 0, 0⟩ }
  hzc := Cold.hzc
  cmd := ⟨.defaults, none⟩
  cnt := Vector.replicate 40 0
  tables := Defaults.tables
  image := ⟨[], false⟩
  pending := []

end Sys2Proof.Machine

namespace Sys2Proof.Config

/-- FREE VALUE. Bytes of payload of a REPLY, NOTICE or ALERT frame whose fields the spec names without a byte
layout (00_scope.md, Scope: such records are described by named fields). R118 bounds it by 320 (log entry 18). -/
opaque payloadLength : Machine.UpBody → Nat

end Sys2Proof.Config
end

