-- ==== Sys2Proof/Machine/Ops.lean ====
section
/-!
DEFINITION. The operations every block shares: reading station time, letting oscillator time pass, counting,
queueing a notice, looking a record up, listening, blanking and switch reports.
-/

namespace Sys2Proof.Machine

open Config (second milli)

/-! ### Station time as the other blocks read it -/

/-- Station time as it reads now. SECOND_TICK is what crosses a second boundary (R13, R29): while it waits at a boundary
that has been reached, station time reads the last unit of the second that is ending, so that no label is read which the
crossing does not enter (log entry 3). -/
def Tmb.now (t : Tmb) : Time := ⟨t.label, min t.ns (second - 1) / 100⟩

/-- Station time now. -/
def State.now (s : State) : Time := s.tmb.now

/-- Station time now with the time-quality state in force. -/
def State.stampNow (s : State) : Stamp := ⟨s.tmb.now, s.tmb.tq⟩

/-- A time as a count of 100 ns units since the epoch, for comparisons. -/
def Time.units (t : Time) : Nat := t.label * 10000000 + t.frac

/-! ### Shed level and rate -/

def ShedLevel.rank : ShedLevel → Nat
  | .full => 0 | .conserve => 1 | .essential => 2 | .survival => 3 | .cutoff => 4

/-- Whether BMN has formed a level and it is `l` (R147: the first scan forms the level). -/
def State.atLevel (s : State) (l : ShedLevel) : Bool := s.bmn.formed && s.bmn.shed == l

/-- The sample period in ms: 5 at 200 frames per second, 10 at 100 (R1). -/
def State.periodMs (s : State) : Nat := 1000 / s.sif.rate

/-- The sample period in ns (R33). -/
def State.periodNs (s : State) : Nat := second / s.sif.rate

/-- A duration in seconds as sample instants (R63). -/
def State.instants (s : State) (seconds : Nat) : Nat := seconds * s.sif.rate

/-! ### Records and holds -/

def findRecord (s : State) (n : Nat) : Option EventRecord := s.evu.table.find? (·.number == n)

/-- Changes the record with a number. -/
def updateRecord (n : Nat) (f : EventRecord → EventRecord) (s : State) : State :=
  { s with evu := { s.evu with table := s.evu.table.map fun r => if r.number = n then f r else r } }

/-- The hold on an event; a record's hold field is this (section 4.3.1). -/
def holdOf (s : State) (n : Nat) : Option Hold := s.wfs.holds.find? (·.event == n)

/-! ### Views that the spec lists as state and that other fields already hold -/

/-- Kept count (R87): the number of segments in state KEPT. -/
def keptCount (s : State) : Nat := (s.wfs.segments.filter (·.state == .kept)).length

/-- The quiet hold (R77): an event in progress, or the quiet tail running. -/
def quietHold (s : State) : Bool := s.evu.phase != .idle || s.evu.tail.isSome

/-- The priority-1 present indication (R112). -/
def priorityOne (s : State) : Bool := s.alu.queue.any (·.priority == 1)

/-- A load-switch output: on exactly while the load is ON (R156, R157, R162). -/
def outputOn (s : State) (l : Fin 8) : Bool := (s.lda.loads.get l).state == .on

/-! ### Notices and counters -/

/-- Queues a notice (R127): stamped now, at the back; with 8 queued the oldest goes unsent. -/
def queueNotice (body : NoticeBody) (dest : Nat) (s : State) : State :=
  let q := s.lnk.notices
  let room := if Config.noticeLimit ≤ q.length then q.drop 1 else q
  { s with lnk := { s.lnk with notices := room ++ [⟨body, dest, s.stampNow⟩] } }

/-- Counts one in a health counter (R186), with the notice of R187 at the threshold. -/
def count (k : Fin 40) (s : State) : State :=
  let v := s.cnt[k] + 1
  let s' := { s with cnt := s.cnt.set k v }
  if v = Config.noticeThreshold ∧ s.tables.countermask[k] = true then
    queueNotice (.counter k.val v.toNat) 0 s'
  else s'

/-- Counts several times, each taken in turn (R186). -/
def countTimes (n : Nat) (k : Fin 40) (s : State) : State :=
  match n with
  | 0 => s
  | n + 1 => countTimes n k (count k s)

/-! ### Listening (R131) -/

/-- Whether the receive-enable line is asserted under the table of R131. -/
def listenJudgement (s : State) : Bool :=
  if s.atLevel .essential || s.atLevel .survival then
    decide (s.lnk.listenCount < s.tables.station.listenWindow) ||
      (s.lnk.radio == .warming || s.lnk.radio == .ready)
  else true

/-- Re-judges listening: at each second tick, change of the shed level and change of the radio state (R131). -/
def judgeListening (s : State) : State :=
  { s with lnk := { s.lnk with listening := listenJudgement s } }

/-! ### Blanking and switch reports -/

/-- The group of a load: fixed by the part (chapter 9). -/
def loadGroup (l : Fin 8) : Fin 4 :=
  if l.val = 0 then 0 else if l.val = 1 then 1 else if l.val ≤ 4 then 2 else 3

/-- The heater load of a zone, L2…L7 for Z0…Z5. -/
def heaterOf (z : Fin 6) : Fin 8 := ⟨z.val + 2, by omega⟩

/-- The zone a heater load heats; none for L0 and L1. -/
def zoneOf (l : Fin 8) : Option (Fin 6) := if h : 2 ≤ l.val then some ⟨l.val - 2, by omega⟩ else none

/-- A blanking request for a group (R51): each channel whose mask includes it takes the larger of its blank
remaining and the time, in ms. -/
def requestBlanking (g : Fin 4) (ms : Nat) (s : State) : State :=
  { s with
    det := Six.ofFn fun c =>
      let d := s.det.get c
      if (s.tables.channel.get c).mask.get g then { d with blank := max d.blank ms } else d }

/-- The switch report to EVU (R76): during an event, a blanking time above 0 of a group in some channel's mask
sets the record's blanked-during flag. -/
def reportSwitch (g : Fin 4) (ms : Nat) (s : State) : State :=
  match s.evu.current with
  | none => s
  | some n =>
    if s.evu.phase ≠ .idle ∧ 0 < ms ∧ s.tables.channel.toList.any (·.mask.get g) then
      updateRecord n (fun r => { r with blankedDuring := true }) s
    else s

/-- What LDA hands out at a switch-on or switch-off of a load (R156, R157): the blanking request to DET and the
switch report to EVU, each with the load's group and its LOAD blanking time. -/
def announceSwitch (l : Fin 8) (s : State) : State :=
  let ms := 10 * (s.tables.load.get l).blanking
  reportSwitch (loadGroup l) ms (requestBlanking (loadGroup l) ms s)

/-! ### Oscillator and station time passing (R13)

Time is kept in whole ns. The rate correction is exact: `residue` carries what is below one ns, in units of
10^-11 ns, so that over any run of oscillator time t station time gains t · (1 + F · 10^-11) rounded down, less the
slew removed (log entry 4). -/

/-- The units of 10^-11 ns in one ns: the scale of the rate correction. -/
abbrev rateScale : Nat := 100000000000

/-- How much of a slew has been removed when `x` ns of its second's rate-corrected time have passed: evenly over
the `10^9 + amount` ns that the second of station time takes (R13). -/
def Slew.removed (w : Slew) (x : Nat) : Int := w.amount * x / ((second : Int) + w.amount)

/-- The rate-corrected length of a slew's second. -/
def Slew.span (w : Slew) : Nat := ((second : Int) + w.amount).toNat

/-- What `dt` ns of oscillator time make at the corrected rate, in ns, with the new remainder. -/
def Tmb.corrected (t : Tmb) (dt : Nat) : Nat × Nat :=
  let total := dt * ((rateScale : Int) + t.freq).toNat + t.residue
  (total / rateScale, total % rateScale)

/-- Station time after `dt` ns of oscillator time; no boundary is crossed here, the tick of a boundary that is
reached is taken by SECOND_TICK. -/
def Tmb.run (t : Tmb) (dt : Nat) : Tmb :=
  let (raw, residue) := t.corrected dt
  match t.slew with
  | none => { t with ns := t.ns + raw, residue := residue }
  | some w =>
    let passed := min (w.passed + raw) w.span
    let gain : Int := (raw : Int) - (w.removed passed - w.removed w.passed)
    { t with
      ns := ((t.ns : Int) + gain).toNat
      residue := residue
      slew := if passed = w.span then none else some { w with passed := passed } }

/-- Oscillator time passes: the oscillator, station time, and every timer the oscillator measures move on
(R13, R129, R133, R157, R158); a timer that runs out stays at 0 until its own step is taken. -/
def passTime (dt : Nat) (s : State) : State :=
  { s with
    osc := s.osc + dt
    tmb := s.tmb.run dt
    lda := { s.lda with loads := s.lda.loads.map fun l => { l with burst := l.burst - dt, rest := l.rest - dt } }
    lnk :=
      { s.lnk with
        tx := s.lnk.tx.map fun t => { t with left := t.left - dt }
        warmLeft := s.lnk.warmLeft.map (· - dt)
        lingerLeft := s.lnk.lingerLeft.map (· - dt)
        rxLeft := s.lnk.rxLeft - dt } }

/-- The rate-corrected time that station time needs to gain `g` ns, the slew included: the least `r` with which
`Tmb.run` gains at least `g`. -/
def Tmb.rawFor (t : Tmb) (g : Nat) : Nat :=
  match t.slew with
  | none => g
  | some w =>
    let goal : Int := (g : Int) + w.passed - w.removed w.passed
    let inside : Int := (goal - 1) * ((second : Int) + w.amount) / second + 1
    if inside ≤ w.span then (inside - w.passed).toNat
    else ((g : Int) + (w.amount - w.removed w.passed)).toNat

/-- The oscillator time until station time has gained `g` ns. -/
def Tmb.delayFor (t : Tmb) (g : Nat) : Nat :=
  let raw := t.rawFor g
  let rate := ((rateScale : Int) + t.freq).toNat
  (raw * rateScale - t.residue + (rate - 1)) / rate

/-- Lets time pass until station time stands at `ns` within its second, if it is not already past it. -/
def runToStation (ns : Nat) (s : State) : State :=
  if s.tmb.ns < ns then passTime (s.tmb.delayFor (ns - s.tmb.ns)) s else s

/-- Lets time pass until the oscillator stands at `t`, if it is not already past it. -/
def runToOsc (t : Nat) (s : State) : State := passTime (t - s.osc) s

end Sys2Proof.Machine
end

