-- ==== Sys2Proof/Machine/Alert.lean ====
section
/-!
DEFINITION. The Alert Unit (chapter 6): raising, queue order and overflow, the re-check, the repeat waits, the
SURVIVAL hold-back, and what a write of an ALERT entry does. Sending is in Link, acknowledgement in Command.
-/

namespace Sys2Proof.Machine

/-- A change of ALU's own state. -/
def State.withAlu (s : State) (f : Alu → Alu) : State := { s with alu := f s.alu }

/-- An instance's place in queue order: before the first instance of a lower priority (R101; the instance is the
newest of its own priority). -/
def insertAlert (x : AlertInstance) : List AlertInstance → List AlertInstance
  | [] => [x]
  | y :: ys => if x.priority < y.priority then x :: y :: ys else y :: insertAlert x ys

/-- The id after `n`, from 255 to 1, passing over the ids held in the queue (R100). Twelve instances hold at most
twelve ids, so thirteen tries are enough. -/
def idAfter (q : List AlertInstance) : (tries : Nat) → (n : Nat) → Nat
  | 0, n => n
  | k + 1, n =>
    let m := if n = 255 then 1 else n + 1
    if q.any (·.id == m) then idAfter q k m else m

/-- The raise order after `n`; after the last of the range, the free value (log entry 22). -/
def raiseOrderAfter (n : Nat) : Nat := if n = 4294967295 then Config.raiseOrderAfterLast else n + 1

/-- Whether an instance of the class is pending: in the queue, in any state (section 6.2). -/
def classPending (cls : Fin 8) (s : State) : Bool := s.alu.queue.any (·.cls == cls)

/-- Starts the re-check of a LEVEL class with the repeat interval in force (R105); an EDGE class has none. -/
def startRecheck (cls : Fin 8) (s : State) : State :=
  let e := s.tables.alert.get cls
  if e.mode = .level then s.withAlu fun a => { a with recheck := a.recheck.set cls (some e.interval) } else s

/-- The instance that a raise of a class creates (R100). -/
def newInstance (cls : Fin 8) (payload : Option AlertPayload) (s : State) : AlertInstance :=
  let e := s.tables.alert.get cls
  { id := s.alu.nextId
    cls := cls
    priority := e.priority
    order := s.alu.nextOrder
    raised := s.stampNow
    occurrences := 1
    payload := payload
    pending := if e.dest2 ≠ 0 ∧ e.dest2 ≠ e.dest1 then [e.dest1, e.dest2] else [e.dest1]
    sends := 0
    wait := 0
    state := if s.atLevel .survival ∧ 3 ≤ e.priority then .heldBack else .waiting
    cleared := false }

/-- Enters a new instance into a queue that has room, and advances the next id and raise order (R100). -/
def enterAlert (x : AlertInstance) (s : State) : State :=
  s.withAlu fun a =>
    let q := insertAlert x a.queue
    { a with queue := q, nextId := idAfter q 13 a.nextId, nextOrder := raiseOrderAfter a.nextOrder }

/-- A raise (R100, R101): K17 counts; with room the instance enters; at a full queue the newest instance of the
lowest priority present gives way if that priority is lower, and otherwise the raise is dropped. K21 counts either
loss, and the re-check of a LEVEL class that lost its instance starts. The queue stands in queue order, so its last
instance is the newest of the lowest priority. It leaves before the next id advances, which does not pass over its id (log
entry 34). -/
def raiseAlert (cls : Fin 8) (payload : Option AlertPayload) (s : State) : State :=
  let s := count 17 s
  let x := newInstance cls payload s
  if s.alu.queue.length < Config.alertLimit then enterAlert x s
  else
    match s.alu.queue.getLast? with
    | none => enterAlert x s
    | some last =>
      if x.priority < last.priority then
        let s := s.withAlu fun a => { a with queue := a.queue.dropLast }
        enterAlert x (startRecheck last.cls (count 21 s))
      else startRecheck cls (count 21 s)

/-- A raise of a per-event class A0…A2 (R102). -/
def raiseEvent (cls : Fin 8) (payload : AlertPayload) (s : State) : State :=
  if (s.tables.alert.get cls).enable then raiseAlert cls (some payload) s else s

/-- Changes the pending instance of a class. -/
def updateClass (cls : Fin 8) (f : AlertInstance → AlertInstance) (s : State) : State :=
  s.withAlu fun a => { a with queue := a.queue.map fun x => if x.cls = cls then f x else x }

/-- An onset folded into the pending instance (R103, R104). -/
def foldOnset (payload : AlertPayload) (x : AlertInstance) : AlertInstance :=
  { x with occurrences := min 255 (x.occurrences + 1), payload := some payload, cleared := false }

/-- A station-scope report (R99): the condition is recorded, and an onset or a clearing acts by the class's mode
(R103, R104). While a class's re-check runs it cannot raise (R105); an EDGE class has none. -/
def reportCondition (cls : Fin 8) (value : Bool) (payload : AlertPayload) (s : State) : State :=
  let s := s.withAlu fun a => { a with conds := a.conds.set cls ⟨value, some payload⟩ }
  let e := s.tables.alert.get cls
  if value then
    if classPending cls s then updateClass cls (foldOnset payload) s
    else if !e.enable then s
    else if (s.alu.recheck.get cls).isSome then s
    else raiseAlert cls (some payload) s
  else if e.mode = .level then updateClass cls (fun x => { x with cleared := true }) s
  else s

/-- One second of a class's re-check (R105). -/
def recheckTick (cls : Fin 8) (s : State) : State :=
  match s.alu.recheck.get cls with
  | none => s
  | some n =>
    if 1 < n then s.withAlu fun a => { a with recheck := a.recheck.set cls (some (n - 1)) }
    else
      let s := s.withAlu fun a => { a with recheck := a.recheck.set cls none }
      let c := s.alu.conds.get cls
      if c.value && (s.tables.alert.get cls).enable then raiseAlert cls c.payload s else s

/-- Whether this second's decrease brings a SENT instance's wait to 0 with its repeat limit met (R108). -/
def expiresNow (s : State) (x : AlertInstance) : Bool :=
  let limit := (s.tables.alert.get x.cls).limit
  x.state == .sent && x.wait == 1 && decide (1 ≤ limit) && decide (limit ≤ x.sends)

/-- One second of an instance's wait (R108). -/
def waitTick (x : AlertInstance) : AlertInstance :=
  if x.state = .sent then { x with wait := x.wait - 1 } else x

/-- The waits of a second tick (R108): each SENT instance's wait decreases, and those whose repeat falls due with
the limit met leave the queue, counted in K20, each LEVEL one starting its class's re-check. -/
def waitsTick (s : State) : State :=
  let gone := s.alu.queue.filter (expiresNow s)
  let s' := s.withAlu fun a => { a with queue := (a.queue.filter fun x => !expiresNow s x).map waitTick }
  gone.foldl (fun s x => startRecheck x.cls (count 20 s)) s'

/-- The re-checks of a second tick, in class order (R105; log entry 11). -/
def recheckTicks (s : State) : State := [3, 4, 5, 6, 7].foldl (fun s c => recheckTick c s) s

/-- ALU's share of a second tick: the re-checks, then the waits (log entry 11). -/
def aluTick (s : State) : State := waitsTick (recheckTicks s)

/-- The alerts row of the shed effects table (R109). -/
def aluShed (s : State) : State :=
  if s.atLevel .survival then
    s.withAlu fun a =>
      { a with
        queue := a.queue.map fun x => if 3 ≤ x.priority then { x with state := .heldBack, wait := 0 } else x }
  else
    s.withAlu fun a =>
      { a with queue := a.queue.map fun x => if x.state = .heldBack then { x with state := .waiting } else x }

/-- A raise that a write brings about (R113, R115): the recorded condition is true, no instance of the class is
pending and its re-check does not run (R101, R105). -/
def raiseAtWrite (cls : Fin 8) (s : State) : State :=
  let c := s.alu.conds.get cls
  if c.value && !classPending cls s && (s.alu.recheck.get cls).isNone then raiseAlert cls c.payload s else s

/-- What a stored write of a class's ALERT entry does (R113, R115); `old` is the entry before the write. The other
fields act at their next use (R114). -/
def aluWrite (cls : Fin 8) (old : AlertEntry) (s : State) : State :=
  let new := s.tables.alert.get cls
  let station := decide (3 ≤ cls.val)
  let c := s.alu.conds.get cls
  if !new.enable then
    if old.enable then
      s.withAlu fun a =>
        { a with queue := a.queue.filter (·.cls != cls), recheck := a.recheck.set cls none }
    else s
  else if !old.enable then
    if station && new.mode == .level then raiseAtWrite cls s else s
  else if station && old.mode == .edge && new.mode == .level then
    if classPending cls s then updateClass cls (fun x => { x with cleared := !c.value }) s else raiseAtWrite cls s
  else if station && old.mode == .level && new.mode == .edge then
    updateClass cls (fun x => { x with cleared := false })
      (s.withAlu fun a => { a with recheck := a.recheck.set cls none })
  else s

/-- ALU at warm restart (R117): SENT instances become WAITING and due at once; the rest is kept. -/
def aluRestart (s : State) : State :=
  s.withAlu fun a =>
    { a with
      queue := a.queue.map fun x => if x.state = .sent then { x with state := .waiting, wait := 0 } else x }

/-- Whether an instance is due (R106). -/
def AlertInstance.due (x : AlertInstance) : Bool :=
  x.state == .waiting || (x.state == .sent && x.wait == 0)

/-- The instance ALU offers: the first due one in queue order (R106). -/
def alertOffer (s : State) : Option AlertInstance := s.alu.queue.find? AlertInstance.due

end Sys2Proof.Machine
end

