-- ==== Sys2Proof/Machine/Wave.lean ====
section
/-!
DEFINITION. The Waveform Store (chapter 5): the segment ring and its writer, kept spans and the kept budget, the
retrieval job. The commands HOLD, RELEASE, WAVE_REQUEST and WAVE_CANCEL are in Command.
-/

namespace Sys2Proof.Machine

/-- A change of WFS's own state. -/
def State.withWfs (s : State) (f : Wfs → Wfs) : State := { s with wfs := f s.wfs }

/-- Changes one segment record. -/
def updateSegment (i : Nat) (f : Segment → Segment) (s : State) : State :=
  s.withWfs fun w => { w with segments := w.segments.modify i f }

/-- The record of a segment. -/
def segmentAt (s : State) (i : Nat) : Segment := s.wfs.segments.getD i Cold.segment

/-- Puts a segment into a list that stands in rising start order. -/
def insertByOrder (x : Nat × Segment) : List (Nat × Segment) → List (Nat × Segment)
  | [] => [x]
  | y :: ys => if (x.2.order.getD 0) < (y.2.order.getD 0) then x :: y :: ys else y :: insertByOrder x ys

/-- Segments with their indexes, in rising start order. -/
def byOrder (l : List (Nat × Segment)) : List (Nat × Segment) := l.foldr insertByOrder []

/-- The segments with their indexes that meet a condition, in rising start order (section 5.3: a waveform is taken
in start order, not in index order). -/
def segmentsWhere (s : State) (p : Segment → Bool) : List (Nat × Segment) :=
  byOrder ((s.wfs.segments.mapIdx fun i x => (i, x)).filter fun x => p x.2)

/-- The segments KEPT for an event, in start order. -/
def keptOf (s : State) (n : Nat) : List (Nat × Segment) :=
  segmentsWhere s fun x => x.state == .kept && x.owner == some n

/-- Changes the waveform fields of a record. -/
def updateWave (n : Nat) (f : Waveform → Waveform) (s : State) : State :=
  updateRecord n (fun r => { r with wave := f r.wave }) s

/-! ### The retrieval job (section 5.5) -/

/-- Cancels the job (R95): the ready frame goes, and a CANCELLED notice to the requester says what was sent. -/
def cancelJob (cause : CancelCause) (s : State) : State :=
  match s.wfs.job with
  | none => s
  | some j => queueNotice (.cancelled j.event cause j.sent) j.centre (s.withWfs fun w => { w with job := none })

/-- Cancels the job if it is on an event. -/
def cancelJobOn (n : Nat) (cause : CancelCause) (s : State) : State :=
  match s.wfs.job with
  | none => s
  | some j => if j.event = n then cancelJob cause s else s

/-- The frames that follow `prev` in a WAVE frame that began with time quality `tq` and leap flag `leap`: the run
ends before a break of the sequence, a change of quality or leap flag, or a step flag (R93). -/
def waveRun (tq : TimeQuality) (leap : Bool) (prev : Byte) : (room : Nat) → List Delivered → List Delivered
  | 0, _ => []
  | _, [] => []
  | n + 1, f :: fs =>
    if f.seq = prev + 1 ∧ f.tq = tq ∧ f.stepFlag = false ∧ f.leapFlag = leap then
      f :: waveRun tq leap f.seq n fs
    else []

/-- The WAVE frame of a job at a segment offset and slot index with `left` frames left (R93). -/
def formWave (s : State) (event centre : Nat) (tag : Byte) (offset index left : Nat) : WaveFrame :=
  let seg := ((keptOf s event)[offset]?.map (·.2)).getD Cold.segment
  let frames := seg.slots.take seg.count
  let run : List Delivered :=
    match frames.drop index with
    | [] => []
    | f :: fs => f :: waveRun f.tq f.leapFlag f.seq (min 16 left - 1) fs
  let head := run.headD ⟨0, ⟨0, 0⟩, .unset, false, false, Six.fill 0, Six.fill false, false⟩
  { centre := centre
    tag := tag
    gap :=
      match index with
      | 0 => false
      | i + 1 =>
        match frames[i]? with
        | none => false
        | some before => head.seq != before.seq + 1
    step := head.stepFlag
    leap := head.leapFlag
    last := decide (left ≤ run.length)
    event := event
    offset := offset
    index := index
    first := head.time
    tq := head.tq
    frames := run }

/-- The job's advance when LNK begins its frame (R94). -/
def advanceJob (s : State) : State :=
  match s.wfs.job with
  | none => s
  | some j =>
    let n := j.ready.frames.length
    let count := ((keptOf s j.event)[j.nextSegment]?.map (·.2.count)).getD 0
    let (seg, frame) :=
      if count ≤ j.nextFrame + n then (j.nextSegment + 1, 0) else (j.nextSegment, j.nextFrame + n)
    let left := j.left - n
    s.withWfs fun w =>
      { w with
        job :=
          if left = 0 then none
          else
            some
              { j with
                nextSegment := seg
                nextFrame := frame
                left := left
                sent := j.sent + n
                ready := formWave s j.event j.centre j.tag seg frame left } }

/-! ### Keeping and releasing (R87, R88) -/

/-- Releases an event's waveform (R88): its segments become FREE, the record's waveform fields are cleared, a claim
of the event is cleared, and a job on it is cancelled with cause LOST. -/
def releaseWave (n : Nat) (s : State) : State :=
  let s :=
    s.withWfs fun w =>
      { w with
        segments :=
          w.segments.map fun x =>
            if x.state = .kept ∧ x.owner = some n then { x with state := .free, owner := none } else x
        claim := if w.claim = some n then none else w.claim }
  cancelJobOn n .lost (updateWave n (fun w => { w with first := none, count := 0 }) s)

/-- The oldest record whose waveform may be released to make room for event `n` (R87, case 1). -/
def releasable (n : Nat) (s : State) : Option EventRecord :=
  s.evu.table.find? fun r =>
    r.state == .closed && (holdOf s r.number).isNone && r.wave.state != .lost && decide (1 ≤ r.wave.count) &&
      r.number != n

/-- Makes a segment KEPT for an event and adds it to the event's waveform (R84, R86, R87). -/
def markKept (i n : Nat) (s : State) : State :=
  updateWave n (fun w => { w with first := w.first.or (some i), count := w.count + 1 })
    (updateSegment i (fun x => { x with state := .kept, owner := some n }) s)

/-- The budget refuses a segment (R87, case 2): it stays FREE, the waveform becomes PARTIAL and truncated, K15
counts and the claim is cleared. -/
def markPartial (i n : Nat) (s : State) : State :=
  let s := updateSegment i (fun x => { x with state := .free, owner := none }) s
  let s := updateRecord n (fun r => { r with truncated := true, wave := { r.wave with state := .partly } }) s
  count 15 (s.withWfs fun w => { w with claim := none })

/-- Keeps a segment for an event under the kept budget (R87). -/
def keepSegment (i n : Nat) (s : State) : State :=
  if keptCount s < Config.keptLimit then markKept i n s
  else
    match releasable n s with
    | some r =>
      let s := updateWave r.number (fun w => { w with state := .lost }) (releaseWave r.number s)
      markKept i n (count 16 s)
    | none => markPartial i n s

/-- Whether an event's waveform is in state KEPT. -/
def waveKept (s : State) (n : Nat) : Bool :=
  match findRecord s n with
  | none => false
  | some r => r.wave.state == .kept

/-! ### The writer (R82, R83, R85, R86) -/

/-- The start order after `n`; after the last of the range, the free value (log entry 22). -/
def startOrderAfter (n : Nat) : Nat := if n = 4294967295 then Config.startOrderAfterLast else n + 1

/-- The FREE segment the writer takes next: never-written ones first in index order, then the lowest start order
(R83). -/
def nextFree (s : State) : Option Nat :=
  match s.wfs.segments.findIdx? fun x => x.state == .free && x.order.isNone with
  | some i => some i
  | none => (segmentsWhere s fun x => x.state == .free).head?.map (·.1)

/-- The claim a newly taken segment carries: the event in progress, while its waveform is KEPT (R85, R86). -/
def newClaim (s : State) : Option Nat :=
  match s.evu.current with
  | none => none
  | some n => if waveKept s n then some n else none

/-- The writer takes a new segment (R83). -/
def takeSegment (s : State) : State :=
  match nextFree s with
  | none => s
  | some i =>
    let order := s.wfs.nextOrder
    let s := updateSegment i (fun x =>
      { x with order := some order, first := none, count := 0, state := .writing, owner := none }) s
    let claim := newClaim s
    s.withWfs fun w => { w with writer := some i, nextOrder := startOrderAfter order, claim := claim }

/-- The WRITING segment completes (R86): kept under the claim's budget, or FREE. -/
def finishSegment (s : State) : State :=
  match s.wfs.writer with
  | none => s
  | some i =>
    let s := s.withWfs fun w => { w with writer := none }
    match s.wfs.claim with
    | none => updateSegment i (fun x => { x with state := .free, owner := none }) s
    | some n =>
      if waveKept s n then keepSegment i n (updateSegment i (fun x => { x with state := .free }) s)
      else updateSegment i (fun x => { x with state := .free, owner := none }) s

/-- Stores a frame in slot `count` of a segment and advances its frame count (R82). -/
def Segment.store (d : Delivered) (x : Segment) : Segment :=
  { x with
    slots := if x.count < x.slots.length then x.slots.set x.count d else x.slots ++ [d]
    first := if x.count = 0 then some d.time else x.first
    count := x.count + 1 }

/-- The writer stores a delivered frame (R82); the 2,048th completes the segment and a new one is taken (R86). -/
def writeFrame (d : Delivered) (s : State) : State :=
  let s := if s.wfs.writer.isNone then takeSegment s else s
  match s.wfs.writer with
  | none => s
  | some i =>
    let s := updateSegment i (Segment.store d) s
    if Config.segmentFrames ≤ (segmentAt s i).count then takeSegment (finishSegment s) else s

/-! ### The pre-event span (R84) -/

/-- The look-back over completed segments, newest first: which are included, newest first. -/
def lookBack (spanStart : Int) : (most : Nat) → List (Nat × Segment) → List Nat
  | 0, _ => []
  | _, [] => []
  | k + 1, (i, x) :: rest =>
    if x.state ≠ .free then []
    else
      match x.first with
      | none => i :: lookBack spanStart k rest
      | some t => if (t.units : Int) ≤ spanStart then [i] else i :: lookBack spanStart k rest

/-- Keeps the included segments oldest first, until the budget turns the waveform PARTIAL. -/
def keepEach (n : Nat) : List Nat → State → State
  | [], s => s
  | i :: rest, s =>
    let s := keepSegment i n s
    if waveKept s n then keepEach n rest s else s

/-- The request to keep an event's pre-event span (R84). -/
def keepPreEvent (n : Nat) (declared : Time) (s : State) : State :=
  let s := updateWave n (fun _ => ⟨none, 0, .kept⟩) s
  let s := s.withWfs fun w => { w with claim := some n }
  let pre := s.tables.event.preEvent
  let spanStart : Int := (declared.units : Int) - pre * 10000000
  let covered :=
    match s.wfs.writer.bind fun i => (segmentAt s i).first with
    | none => false
    | some t => decide ((t.units : Int) ≤ spanStart)
  if covered then s
  else
    let completed := (segmentsWhere s fun x => x.order.isSome && x.state != .writing).reverse
    let bound := s.instants pre / Config.segmentFrames + 1
    keepEach n (lookBack spanStart bound completed).reverse s

/-! ### Second ticks and restart -/

/-- The holds of a second tick (R91): each loses a second, and one that reaches 0 expires. Two that expire at one tick are
both removed first; their notices follow hold by hold, in order of grant (log entry 11). -/
def wfsTick (s : State) : State :=
  let gone := s.wfs.holds.filter (·.seconds ≤ 1)
  let s := s.withWfs fun w =>
    { w with holds := (w.holds.filter (1 < ·.seconds)).map fun h => { h with seconds := h.seconds - 1 } }
  gone.foldl (fun s h => cancelJobOn h.event .expiry (queueNotice (.holdExpired h.event) h.owner s)) s

/-- WFS at warm restart, after the close of an event in progress (R98): the WRITING segment completes as it stands
unless it holds no frame, the claim is cleared, and a job ends without a notice. -/
def wfsRestart (s : State) : State :=
  let s :=
    match s.wfs.writer with
    | none => s
    | some i => if (segmentAt s i).count = 0 then s else finishSegment s
  s.withWfs fun w => { w with claim := none, job := none }

end Sys2Proof.Machine
end

