-- ==== Sys2Proof/Machine/Event.lean ====
section
/-!
DEFINITION. The Event Unit (chapter 4): contributions and the vote, the event states, the Event Table and what a
record gathers. DET hands it one batch per sample instant, and some trigger-offs on their own.
-/

namespace Sys2Proof.Machine

/-- A change of EVU's own state. -/
def State.withEvu (s : State) (f : Evu → Evu) : State := { s with evu := f s.evu }

/-- The batch DET hands EVU for a sample instant (R56): the instant's stamp, the trigger changes (`some true` a
trigger-on, `some false` a trigger-off), and the magnitudes with their strong-motion marks. -/
structure Batch where
  stamp : Stamp
  changes : Six (Option Bool)
  magnitudes : Six (Option (Nat × Bool))
  deriving DecidableEq, Repr

/-- The six channels in channel order. -/
abbrev channels : List (Fin 6) := [0, 1, 2, 3, 4, 5]

/-- Changes the current record, if there is one. -/
def updateCurrent (f : EventRecord → EventRecord) (s : State) : State :=
  match s.evu.current with
  | none => s
  | some n => updateRecord n f s

/-! ### Contributions and the vote (section 4.2) -/

/-- Step 1 of a batch: each running contribution's window count increases by one (R63). -/
def advanceWindows (s : State) : State :=
  s.withEvu fun e => { e with contrib := e.contrib.map fun k => k.map fun k => { k with window := k.window + 1 } }

/-- A trigger-on in the contributor list (R74): a new entry at the back, or the entry's trigger-off time absent. -/
def joinContributors (c : Fin 6) (stamp : Stamp) (l : List Contributor) : List Contributor :=
  if l.any (·.channel == c) then l.map fun x => if x.channel = c then { x with lastOff := none } else x
  else l ++ [⟨c, stamp, none, none⟩]

/-- A trigger-off in the contributor list (R74). -/
def offContributors (c : Fin 6) (t : Time) (l : List Contributor) : List Contributor :=
  l.map fun x => if x.channel = c then { x with lastOff := some t } else x

/-- A trigger-on of a channel (R64), with the reopening of R71 and the contributor entry of R74. A reopening leaves the
post-event count, which stops, at 0 (log entry 35). -/
def takeTriggerOn (c : Fin 6) (stamp : Stamp) (s : State) : State :=
  let weight := (s.tables.channel.get c).weight
  let k : Contribution :=
    match s.evu.contrib.get c with
    | none => ⟨weight, 0, stamp, none, none⟩
    | some k => { k with weight := weight, window := 0, lastOff := none }
  let s := s.withEvu fun e => { e with triggered := e.triggered.set c true, contrib := e.contrib.set c (some k) }
  let s :=
    if s.evu.phase = .closing ∧ s.evu.forced = false ∧ 1 ≤ weight then
      updateCurrent (fun r => { r with state := .opened })
        (s.withEvu fun e => { e with phase := .opened, post := 0 })
    else s
  updateCurrent (fun r => { r with contributors := joinContributors c stamp r.contributors }) s

/-- A trigger-off of a channel (R64, R74). -/
def takeTriggerOff (c : Fin 6) (t : Time) (s : State) : State :=
  let s := s.withEvu fun e =>
    { e with
      triggered := e.triggered.set c false
      contrib := e.contrib.set c ((e.contrib.get c).map fun k => { k with lastOff := some t }) }
  updateCurrent (fun r => { r with contributors := offContributors c t r.contributors }) s

/-- Whether a contribution ends (R65): its channel is not triggered and its window count meets W × rate / 10. -/
def contributionEnds (s : State) (c : Fin 6) (k : Contribution) : Bool :=
  !(s.evu.triggered.get c) && decide (s.tables.event.window * s.sif.rate / 10 ≤ k.window)

/-- The total weight of the running contributions (R65). -/
def weightSum (l : Six (Option Contribution)) : Nat :=
  (l.toList.map fun k => match k with | none => 0 | some k => k.weight).sum

/-- Contributions whose end has come are ended, and the vote sum is recomputed (R65; step 3 of a batch). -/
def endContributions (s : State) : State :=
  let left := Six.ofFn fun c =>
    match s.evu.contrib.get c with
    | none => none
    | some k => if contributionEnds s c k then none else some k
  s.withEvu fun e => { e with contrib := left, voteSum := weightSum left }

/-! ### Declaration (R67 to R69) -/

/-- The number after `n`, from 65535 to 1, passing over numbers borne by records (R67). Twelve records bear at
most twelve numbers, so thirteen tries are enough. -/
def numberAfter (t : List EventRecord) : (tries : Nat) → (n : Nat) → Nat
  | 0, n => n
  | k + 1, n =>
    let m := if n = 65535 then 1 else n + 1
    if t.any (·.number == m) then numberAfter t k m else m

/-- Removes the oldest record that is neither held nor in progress from a full table, with its waveform (R68). -/
def removeOldest (s : State) : State :=
  match s.evu.table.find? fun r => r.state == .closed && (holdOf s r.number).isNone with
  | none => s
  | some r =>
    (releaseWave r.number s).withEvu fun e => { e with table := e.table.filter (·.number != r.number) }

/-- Puts a channel's contribution into a list that stands in rising order of first trigger-on times; equal times
stay in channel order (R69). -/
def insertByFirstOn (x : Fin 6 × Contribution) : List (Fin 6 × Contribution) → List (Fin 6 × Contribution)
  | [] => [x]
  | y :: ys =>
    if x.2.firstOn.time.units ≤ y.2.firstOn.time.units then x :: y :: ys else y :: insertByFirstOn x ys

/-- The channels with a contribution, in order of first trigger-on (R69). -/
def contributing (s : State) : List (Fin 6 × Contribution) :=
  (channels.filterMap fun c => (s.evu.contrib.get c).map fun k => (c, k)).foldr insertByFirstOn []

/-- The record appended at a declaration (R69). -/
def newRecord (n : Nat) (stamp : Stamp) (s : State) : EventRecord :=
  { number := n
    state := .opened
    declared := stamp
    contributors :=
      (contributing s).map fun x =>
        ⟨x.1, x.2.firstOn, if s.evu.triggered.get x.1 then none else x.2.lastOff, x.2.peak⟩
    closed := none
    reason := none
    blankedDuring := s.det.toList.any fun d => decide (0 < d.blank)
    truncated := false
    timeDegraded := stamp.tq != .locked
    strongMotion := false
    wave := ⟨none, 0, .kept⟩ }

/-- The channels whose contributions make up the vote sum: those that vote, with weight 1 or more (R67, section 4.1). -/
def votingChannels (s : State) : Six Bool := s.evu.contrib.map fun k => (k.map fun k => decide (1 ≤ k.weight)).getD false

/-- A declaration (R67). -/
def declareEvent (stamp : Stamp) (s : State) : State :=
  let s := if Config.recordLimit ≤ s.evu.table.length then removeOldest s else s
  let n := s.evu.nextNumber
  let r := newRecord n stamp s
  let s := s.withEvu fun e =>
    { e with
      table := e.table ++ [r]
      nextNumber := numberAfter (e.table ++ [r]) 13 n
      lastNumber := n
      current := some n
      phase := .opened
      forced := false
      age := 0
      post := 0
      tail := none }
  let s := count 13 (keepPreEvent n stamp.time s)
  raiseEvent 0 (.declared n stamp s.evu.voteSum (votingChannels s)) s

/-! ### Closing (R70, R72, R73) -/

/-- The evaluation in OPEN (R70): with no channel triggered and the vote sum below V, CLOSING begins. -/
def evaluateOpen (s : State) : State :=
  if s.evu.phase = .opened ∧ s.evu.triggered.toList.any id = false ∧ s.evu.voteSum < s.tables.event.threshold then
    updateCurrent (fun r => { r with state := .closing })
      (s.withEvu fun e => { e with phase := .closing, forced := false, post := 0 })
  else s

/-- Step 4 of a batch (R63): IDLE may declare, OPEN may begin CLOSING. -/
def evaluatePhase (stamp : Stamp) (s : State) : State :=
  match s.evu.phase with
  | .idle => if s.tables.event.threshold ≤ s.evu.voteSum then declareEvent stamp s else s
  | .opened => evaluateOpen s
  | .closing => s

/-- The largest peak among contributors, the lower channel on equal peaks (R73). -/
def largestPeak (l : List Contributor) : Option (Fin 6 × Peak) :=
  l.foldl
    (fun best x =>
      match x.peak, best with
      | none, b => b
      | some p, none => some (x.channel, p)
      | some p, some (c, q) =>
        if q.value < p.value ∨ (p.value = q.value ∧ x.channel < c) then some (x.channel, p) else some (c, q))
    none

/-- The summary of a closed record (R73). -/
def summaryOf (r : EventRecord) : CloseSummary :=
  { number := r.number
    declared := r.declared
    closed := r.closed.getD r.declared
    reason := r.reason.getD .normal
    blankedDuring := r.blankedDuring
    truncated := r.truncated
    timeDegraded := r.timeDegraded
    strongMotion := r.strongMotion
    contributors := r.contributors.length
    largest := largestPeak r.contributors }

/-- What every close does (R73, R80): the record is CLOSED with its close time and end reason, contributions end,
the state is IDLE, and ALU takes the A2 raise. The writer claim stays on the WRITING segment (R85). The marks of an event in
progress are left blank: not forced, event age and post-event count 0 (log entry 35). -/
def closeRecord (stamp : Stamp) (reason : EndReason → EndReason) (s : State) : State :=
  match s.evu.current with
  | none => s
  | some n =>
    let s := updateRecord n (fun r =>
      { r with state := .closed, closed := some stamp, reason := some (reason (r.reason.getD .normal)) }) s
    let s := s.withEvu fun e =>
      { e with
        contrib := Six.fill none
        voteSum := 0
        phase := .idle
        forced := false
        current := none
        age := 0
        post := 0 }
    match findRecord s n with
    | none => s
    | some r => raiseEvent 2 (.closed (summaryOf r)) s

/-- The close at the end of the post-event time (R73): the quiet tail starts if it is above 0. -/
def closeEvent (stamp : Stamp) (s : State) : State :=
  let s := s.withEvu fun e => { e with tail := if 0 < s.tables.event.quietTail then some 0 else none }
  closeRecord stamp id s

/-- The forced closing (R72): an OPEN event begins CLOSING, a CLOSING one runs on; K14 counts. -/
def forceClosing (s : State) : State :=
  let s := s.withEvu fun e =>
    { e with phase := .closing, forced := true, post := if e.phase = .opened then 0 else e.post }
  count 14 (updateCurrent (fun r => { r with state := .closing, reason := some .maxLength }) s)

/-! ### Peaks, crossings and flags (R75, R76) -/

/-- The larger of a peak and a magnitude; an equal magnitude leaves the earlier time (R75). -/
def raisePeak (old : Option Peak) (m : Nat) (t : Time) : Option Peak :=
  match old with
  | none => some ⟨m, t⟩
  | some p => if p.value < m then some ⟨m, t⟩ else some p

/-- A channel's magnitude (R75): in the contributor list during an event, in its contribution in IDLE. -/
def takeMagnitude (c : Fin 6) (m : Nat) (t : Time) (s : State) : State :=
  if s.evu.phase = .idle then
    s.withEvu fun e =>
      { e with contrib := e.contrib.set c ((e.contrib.get c).map fun k => { k with peak := raisePeak k.peak m t }) }
  else
    updateCurrent (fun r =>
      { r with
        contributors :=
          r.contributors.map fun x => if x.channel = c then { x with peak := raisePeak x.peak m t } else x }) s

/-- A strong-motion crossing (R76): the first one of an event in progress sets the flag and raises A1. The payload carries the
timestamp without a time-quality code (log entry 46). -/
def takeCrossing (c : Fin 6) (m : Nat) (t : Time) (s : State) : State :=
  match s.evu.current with
  | none => s
  | some n =>
    match findRecord s n with
    | none => s
    | some r =>
      if r.strongMotion then s
      else raiseEvent 1 (.strongMotion n c m t) (updateRecord n (fun r => { r with strongMotion := true }) s)

/-- The magnitude and crossing of one channel (step 5 of a batch). -/
def takeReport (b : Batch) (c : Fin 6) (s : State) : State :=
  match b.magnitudes.get c with
  | none => s
  | some (m, crossing) =>
    let s := takeMagnitude c m b.stamp.time s
    if crossing then takeCrossing c m b.stamp.time s else s

/-- The time-degraded flag (R76). -/
def flagDegraded (b : Batch) (s : State) : State :=
  if b.stamp.tq = .locked then s else updateCurrent (fun r => { r with timeDegraded := true }) s

/-! ### The counts of step 5 (R72, R73, R77) -/

/-- The event age; `fresh` says that this batch declared the event (R63: a count started in a batch does not
advance in it). -/
def advanceAge (fresh : Bool) (s : State) : State :=
  if s.evu.phase = .idle ∨ s.evu.forced = true ∨ fresh = true then s
  else
    let s := s.withEvu fun e => { e with age := e.age + 1 }
    if s.instants s.tables.event.maxLength ≤ s.evu.age then forceClosing s else s

/-- The post-event count; `fresh` says that this batch began CLOSING. -/
def advancePost (fresh : Bool) (stamp : Stamp) (s : State) : State :=
  if s.evu.phase ≠ .closing ∨ fresh = true then s
  else
    let s := s.withEvu fun e => { e with post := e.post + 1 }
    if s.instants s.tables.event.postEvent ≤ s.evu.post then closeEvent stamp s else s

/-- The quiet-tail count; `fresh` says that this batch started the tail. -/
def advanceTail (fresh : Bool) (s : State) : State :=
  match s.evu.tail with
  | none => s
  | some n =>
    if s.evu.phase ≠ .idle ∨ fresh = true then s
    else
      s.withEvu fun e =>
        { e with tail := if s.instants s.tables.event.quietTail ≤ n + 1 then none else some (n + 1) }

/-- The trigger change of one channel (step 2 of a batch). -/
def takeChange (b : Batch) (c : Fin 6) (s : State) : State :=
  match b.changes.get c with
  | none => s
  | some true => takeTriggerOn c b.stamp s
  | some false => takeTriggerOff c b.stamp.time s

/-- Steps 1 and 2 of a batch (R63): the window counts advance, and the trigger changes are taken in channel order. -/
def batchChanges (b : Batch) (s : State) : State := channels.foldl (fun s c => takeChange b c s) (advanceWindows s)

/-- A whole batch, in the five steps of R63. Magnitudes and crossings are taken in channel order too, so the crossing that
A1 names is that of the lowest channel when several cross at one instant (log entry 35). -/
def evuBatch (b : Batch) (s : State) : State :=
  let s3 := endContributions (batchChanges b s)
  let s4 := evaluatePhase b.stamp s3
  let declared := s3.evu.phase == .idle && s4.evu.phase != .idle
  let began := s3.evu.phase == .opened && s4.evu.phase == .closing
  let s5 := flagDegraded b (channels.foldl (fun s c => takeReport b c s) s4)
  let s6 := advanceAge declared s5
  let forcedNow := s5.evu.phase == .opened && s6.evu.phase == .closing
  let s7 := advancePost (began || forcedNow) b.stamp s6
  advanceTail (s6.evu.phase == .closing && s7.evu.phase == .idle) s7

/-- A trigger-off handed outside a batch (R66). It is judged with the V and W in force at that moment, a write's new values
included (R78; log entry 35). -/
def offBatchTriggerOff (c : Fin 6) (t : Time) (s : State) : State :=
  evaluateOpen (endContributions (takeTriggerOff c t s))

/-- EVU at warm restart (R80): an event in progress is closed with reason RESTART, no tail runs, and every channel
is marked not triggered. -/
def evuRestart (s : State) : State :=
  let s := s.withEvu fun e => { e with tail := none }
  let s := closeRecord s.stampNow (fun _ => .restart) s
  s.withEvu fun e => { e with triggered := Six.fill false, contrib := Six.fill none, voteSum := 0 }

end Sys2Proof.Machine
end

