-- ==== Sys2Proof/Machine/Detector.lean ====
section
/-!
DEFINITION. The Detector Bank (chapter 3): the four stages, the detector states, blanking and gap reset, and what
a write of a CHANNEL entry does. A floor division by 2^k is written `/` on integers (chapter 3, "shift right").
-/

namespace Sys2Proof.Machine

/-! ### The stages (sections 3.2 to 3.5) -/

/-- A value's step toward its input: v + floor((y - v) / 2^k), the form of stages 1 and 3 (R42, R44). -/
def toward (v y : Int) (k : Nat) : Int := v + (y - v) / 2 ^ k

/-- Stage 1 (R42): the baseline after a usable sample. -/
def stage1 (h : Nat) (baseline x : Int) : Int := toward baseline (x * 256) h

/-- The departure of a sample from the baseline stage 1 has left (R43). -/
def departure (baseline x : Int) : Int := x - baseline / 256

/-- A magnitude held to 0…16,777,215 (R43, R56). -/
def magnitude (d : Int) : Nat := min Config.maxDeparture d.natAbs

/-- Stage 2's characteristic value (R43): the largest for a clipped sample. -/
def characteristic (clip : Bool) (d : Int) : Nat := if clip then Config.maxDeparture else magnitude d

/-- Stage 4's effective long average (R45). -/
def effectiveLta (e : ChannelEntry) (lta : Int) : Int := max lta (e.lmin * 256)

/-- The trigger-on test (R45). -/
def onTest (e : ChannelEntry) (sta lta : Int) : Bool := decide (effectiveLta e lta * e.ron ≤ sta * 16)

/-- The trigger-off and re-arm test (R45, R50). -/
def offTest (e : ChannelEntry) (sta lta : Int) : Bool := decide (sta * 16 < effectiveLta e lta * e.roff)

/-! ### One channel at a sample instant -/

/-- What a detector makes of an instant: its next values, the trigger change it reports, and the magnitude with
its strong-motion mark (R56). -/
structure DetResult where
  det : Detector
  change : Option Bool
  report : Option (Nat × Bool)
  deriving DecidableEq, Repr

/-- The strong-motion mark of a magnitude (R57). -/
def isCrossing (e : ChannelEntry) (m : Nat) : Bool := decide (0 < e.strongMotion ∧ e.strongMotion ≤ m)

/-- A usable unblanked sample after stages 1 to 3 (R45, R47 to R50), `d` holding the values they left. A trigger timer that
stops is left at 0 (log entry 35). -/
def ratioStage (e : ChannelEntry) (d : Detector) : Detector × Option Bool :=
  match d.state with
  | .off => (d, none)
  | .warming =>
    let n := d.warm + 1
    ({ d with warm := n, state := if 2 ^ e.b ≤ n then .armed else .warming }, none)
  | .armed =>
    if d.rearm then ({ d with rearm := !offTest e d.sta d.lta }, none)
    else if onTest e d.sta d.lta then ({ d with state := .triggered, timer := 0 }, some true)
    else (d, none)
  | .triggered =>
    if offTest e d.sta d.lta then ({ d with state := .armed, timer := 0 }, some false) else (d, none)

/-- The sample work of a detector that is not OFF, at a usable instant (R42 to R47, R53). `forced` says that the
trigger timer reaches its limit at this instant, so that the forced trigger-off takes the ratio test's place. -/
def sampleWork (e : ChannelEntry) (blanked forced : Bool) (x : Int) (clip : Bool) (d : Detector) : DetResult :=
  if d.awaiting then ⟨{ d with baseline := x * 256, awaiting := false }, none, none⟩
  else
    let b := stage1 e.h d.baseline x
    let dep := departure b x
    if blanked then ⟨{ d with baseline := b }, none, none⟩
    else
      let y : Int := characteristic clip dep * 256
      let d' : Detector :=
        { d with
          baseline := b
          sta := toward d.sta y e.a
          lta := if d.state = .triggered then d.lta else toward d.lta y e.b }
      let m := magnitude dep
      let report := some (m, isCrossing e m)
      if forced then ⟨d', none, report⟩
      else
        let (d'', change) := ratioStage e d'
        ⟨d'', change, report⟩

/-- One detector at a sample instant (R41): `item` is the usable sample and its clip flag, or none for a missing
instant (R54). The trigger timer counts the instant if the detector was TRIGGERED when it was taken, and a forced
trigger-off comes when it reaches the limit (R50; before the ratio test, log entry 9). -/
def detectorInstant (e : ChannelEntry) (rate : Nat) (item : Option (Int × Bool)) (d : Detector) : DetResult :=
  if d.state = .off then ⟨d, none, none⟩
  else
    let triggered := d.state == .triggered
    let d := if triggered then { d with timer := d.timer + 1 } else d
    let forced := triggered && decide (e.maxTrigger * rate ≤ d.timer)
    let r : DetResult :=
      match item with
      | none => ⟨d, none, none⟩
      | some (x, clip) => sampleWork e (decide (0 < d.blank)) forced x clip d
    if forced then ⟨{ r.det with state := .armed, rearm := true, timer := 0 }, some false, r.report⟩ else r

/-! ### The whole bank at a sample instant -/

/-- The item SIF hands DET (section 3.1): six samples and clip flags, or none for a missing indication. -/
abbrev SampleItem := Option (Six Int × Six Bool)

/-- What the six detectors make of an instant. -/
def bankInstant (item : SampleItem) (s : State) : Six DetResult :=
  Six.ofFn fun c =>
    detectorInstant (s.tables.channel.get c) s.sif.rate (item.map fun i => (i.1.get c, i.2.get c)) (s.det.get c)

/-- Counts the trigger-on of a channel: K7 for C0 to K12 for C5 (R48). -/
def countTriggerOn (r : DetResult) (c : Fin 6) (s : State) : State :=
  if r.change = some true then count ⟨7 + c.val, by omega⟩ s else s

/-- Blank remaining decreases by the sample period when the instant's work is done (R41, R52). -/
def decreaseBlanks (s : State) : State :=
  { s with det := s.det.map fun d => { d with blank := d.blank - s.periodMs } }

/-- The batch that the bank hands EVU for an instant (R56). -/
def bankBatch (stamp : Stamp) (item : SampleItem) (s : State) : Batch :=
  let rs := bankInstant item s
  ⟨stamp, rs.map (·.change), rs.map (·.report)⟩

/-- The detectors after an instant's sample work, with the counts of their trigger-ons. -/
def bankWork (item : SampleItem) (s : State) : State :=
  let rs := bankInstant item s
  channels.foldl (fun s c => countTriggerOn (rs.get c) c s) { s with det := rs.map (·.det) }

/-- A sample instant (R41): the six detectors, the counts, the batch to EVU (R56), and then the blanking. -/
def sampleInstant (stamp : Stamp) (item : SampleItem) (s : State) : State :=
  decreaseBlanks (evuBatch (bankBatch stamp item s) (bankWork item s))

/-! ### Gap reset and writes -/

/-- Re-enters WARMING (R55, R59): warm count 0, re-arm pending no, the timer stops; B, S and L are kept. -/
def Detector.rewarm (d : Detector) : Detector := { d with state := .warming, warm := 0, rearm := false, timer := 0 }

/-- Changes one detector. -/
def updateDetector (c : Fin 6) (f : Detector → Detector) (s : State) : State :=
  { s with det := s.det.set c (f (s.det.get c)) }

/-- Gap reset at one channel (R55): a TRIGGERED detector first reports a trigger-off. -/
def gapResetChannel (t : Time) (c : Fin 6) (s : State) : State :=
  let d := s.det.get c
  if d.state = .off then s
  else
    let s' := updateDetector c Detector.rewarm s
    if d.state = .triggered then offBatchTriggerOff c t s' else s'

/-- Gap reset (R55) with the time of the instant whose count caused it. -/
def gapResetDetectors (t : Time) (s : State) : State :=
  channels.foldl (fun s c => gapResetChannel t c s) s

/-- What a stored write of a CHANNEL entry does in DET (R58, R59); the other fields act at their next use (R60,
R51). `old` is the entry before the write. -/
def detWrite (c : Fin 6) (old : ChannelEntry) (s : State) : State :=
  let new := s.tables.channel.get c
  let d := s.det.get c
  let report (s : State) : State := if d.state = .triggered then offBatchTriggerOff c s.now s else s
  if new.enable && d.state == .off then
    updateDetector c (fun d => { Cold.detector true with baseline := d.baseline, blank := d.blank }) s
  else if !new.enable && d.state != .off then
    report (updateDetector c (fun d => { d with state := .off, timer := 0, rearm := false }) s)
  else if d.state != .off && !d.awaiting && (new.a != old.a || new.b != old.b || new.h != old.h) then
    report (updateDetector c Detector.rewarm s)
  else s

/-- Every detector at a cold start or warm restart (R61, R62). -/
def detReset (s : State) : State :=
  { s with det := Six.ofFn fun c => Cold.detector (s.tables.channel.get c).enable }

end Sys2Proof.Machine
end

