-- ==== Sys2Proof/Machine/Load.lean ====
section
/-!
DEFINITION. The Load Arbiter and Heater Control (chapter 9): requests, eligibility, grants, switch-offs, the inrush
suspension, shed permission; zone judgement, demand and the A5 condition.
-/

namespace Sys2Proof.Machine

open Config (second milli)

/-- A change of LDA's own state. -/
def State.withLda (s : State) (f : Lda → Lda) : State := { s with lda := f s.lda }

/-- Changes one load. -/
def updateLoad (l : Fin 8) (f : Load → Load) (s : State) : State :=
  s.withLda fun a => { a with loads := a.loads.set l (f (a.loads.get l)) }

/-- The eight loads in load order. -/
abbrev loadsInOrder : List (Fin 8) := [0, 1, 2, 3, 4, 5, 6, 7]

/-- The six zones in zone order. -/
abbrev zonesInOrder : List (Fin 6) := [0, 1, 2, 3, 4, 5]

/-! ### Permission (section 9.3) -/

/-- Whether the shed level in force permits a load (the table of section 9.3); before BMN's first scan has formed a
level nothing is permitted (R170). -/
def permitted (s : State) (l : Fin 8) : Bool :=
  s.bmn.formed &&
    match s.bmn.shed with
    | .full | .conserve => true
    | .essential => match zoneOf l with | none => true | some z => (s.tables.zone.get z).essential
    | .survival => match zoneOf l with | none => l.val == 0 | some z => (s.hzc.zones.get z).demand
    | .cutoff => false

/-! ### Requests (R153, R154) -/

/-- A request is placed (R153): an OFF load becomes REQUESTED, a RESTING one remembers it, and a load that already
has one takes its priority. -/
def placeRequest (l : Fin 8) (r : Request) (s : State) : State :=
  updateLoad l (fun x =>
    match x.state with
    | .off => { x with state := .requested, request := some r, deferred := false }
    | .resting =>
      if x.remembered then { x with request := x.request.map fun q => { q with priority := r.priority } }
      else { x with request := some r, remembered := true }
    | .requested => { x with request := x.request.map fun q => { q with priority := r.priority } }
    | .on => x) s

/-- A withdrawal (R153): a REQUESTED load becomes OFF, a remembered request is cleared. -/
def withdrawRequest (l : Fin 8) (s : State) : State :=
  updateLoad l (fun x =>
    match x.state with
    | .requested => { x with state := .off, request := none, deferred := false }
    | .resting => { x with request := none, remembered := false }
    | .off | .on => x) s

/-- The priority a load's request carries now (R154): LNK's own for L0, L1's LOAD priority, and for a heater 1 while
its zone is critical and the LOAD priority otherwise. -/
def currentPriority (s : State) (l : Fin 8) (r : Request) : Nat :=
  match zoneOf l with
  | some z => if (s.hzc.zones.get z).critical then 1 else (s.tables.load.get l).priority
  | none => if l.val = 0 then r.priority else (s.tables.load.get l).priority

/-- The critical mark a load's request carries: its zone's (R154). -/
def currentCritical (s : State) (l : Fin 8) : Bool :=
  match zoneOf l with
  | some z => (s.hzc.zones.get z).critical
  | none => false

/-- Every placed or remembered request takes its current priority and critical mark (R154). -/
def refreshRequests (s : State) : State :=
  s.withLda fun a =>
    { a with
      loads :=
        Eight.ofFn fun l =>
          let x := a.loads.get l
          { x with
            request :=
              x.request.map fun r => { r with priority := currentPriority s l r, critical := currentCritical s l } } }

/-! ### Switch-off (R157) -/

/-- The end of a rest (R153): REQUESTED with a remembered request, OFF otherwise. -/
def endRest (l : Fin 8) (s : State) : State :=
  updateLoad l (fun x =>
    if x.remembered then { x with state := .requested, remembered := false, deferred := false, rest := 0 }
    else { x with state := .off, request := none, rest := 0 }) s

/-- LDA tells the requester that its load is off (R157): LNK's radio state and TMB's view of L1. -/
def tellOff (l : Fin 8) (s : State) : State :=
  if l.val = 0 then
    judgeListening { s with lnk := { s.lnk with radio := .off, warmLeft := none, lingerLeft := none } }
  else if l.val = 1 then { s with tmb := { s.tmb with gnss := .off, onTime := 0, lockedTime := 0 } }
  else s

/-- An ON load is switched off (R157), with blanking, switch report and rest; a rest of 0 ends at once (R153). A
load that is not ON is left as it is. -/
def switchOff (l : Fin 8) (s : State) : State :=
  if (s.lda.loads.get l).state ≠ .on then s
  else
    let rest := (s.tables.load.get l).minRest * second
    let s := announceSwitch l s
    let s := updateLoad l (fun x =>
      { x with state := .resting, request := none, remembered := false, deferred := false, burst := 0, rest := rest }) s
    let s := tellOff l s
    if rest = 0 then endRest l s else s

/-- Every ON load whose permission is lost is switched off (R161), at a fall of the level too: a heater that is ON at SURVIVAL
by its zone's demand goes off at a fall to ESSENTIAL if its zone is not essential (log entry 48). -/
def enforcePermission (s : State) : State :=
  loadsInOrder.foldl (fun s l => if permitted s l then s else switchOff l s) s

/-! ### Eligibility and grant (R155, R156, R158, R160) -/

/-- Condition 3 and 4's test: at least `spacing` seconds have passed since an activation, if there was one. -/
def spaced (s : State) (last : Option Nat) (spacing : Nat) : Bool :=
  match last with
  | none => true
  | some t => decide (spacing * second ≤ s.osc - t)

/-- The activations of the inrush record that are younger than a window in seconds (R155, condition 5). -/
def younger (s : State) (window : Nat) : Nat := (s.lda.record.filter fun t => decide (s.osc - t < window * second)).length

/-- Every condition of R155 but the quiet hold. -/
def eligibleButQuiet (s : State) (l : Fin 8) : Bool :=
  (s.lda.loads.get l).state == .requested &&
    (s.tables.load.get l).enable &&
    permitted s l &&
    spaced s s.lda.lastAct s.tables.station.shortSpacing &&
    spaced s (s.lda.lastGroup.get (loadGroup l)) s.tables.station.longSpacing &&
    decide (younger s s.lda.window < s.lda.limit) &&
    s.lda.suspension.isNone

/-- Condition 6 of R155: for a heater the quiet hold is false or the request is critical. -/
def quietPermits (s : State) (l : Fin 8) : Bool :=
  (zoneOf l).isNone || !quietHold s || ((s.lda.loads.get l).request.map (·.critical)).getD false

/-- A REQUESTED load may be granted: it is eligible (R155), and the cold-start wait is over (R170). -/
def eligible (s : State) (l : Fin 8) : Bool := eligibleButQuiet s l && quietPermits s l && !s.lda.coldWait

/-- A load's request priority; a load without one comes last. -/
def requestPriority (s : State) (l : Fin 8) : Nat := ((s.lda.loads.get l).request.map (·.priority)).getD 8

/-- The load the arbiter grants (R156): the eligible one of highest priority, the lowest number among equals. -/
def chosenLoad (s : State) : Option (Fin 8) :=
  loadsInOrder.foldl
    (fun best l =>
      if eligible s l then
        match best with
        | none => some l
        | some b => if requestPriority s l < requestPriority s b then some l else some b
      else best)
    none

/-- The burst a heater's grant sets, in seconds (R158): the test's seconds, the whole burst length at FULL, and half
of it, at least 1 s, above. -/
def burstSeconds (s : State) (l : Fin 8) : Nat :=
  match ((s.lda.loads.get l).request.map (·.source)).getD .hzc with
  | .test n => n
  | _ =>
    let b := (s.tables.load.get l).burst
    if s.atLevel .full then b else max 1 (b / 2)

/-- LDA hands the grant to the requester (R156): LNK's warm-up (R129), TMB's settling (R35). -/
def tellGrant (l : Fin 8) (s : State) : State :=
  if l.val = 0 then
    judgeListening
      { s with
        lnk := { s.lnk with radio := .warming, warmLeft := some (s.tables.station.radioWarmUp * milli), lingerLeft := none } }
  else if l.val = 1 then
    { s with
      tmb :=
        { s.tmb with gnss := if s.tables.time.gnssSettle = 0 then .active else .settling, onTime := 0, lockedTime := 0 } }
  else s

/-- The inrush record with a grant time appended; the oldest is dropped when it would hold four (R156). -/
def appendActivation (t : Nat) (r : List Nat) : List Nat :=
  let r := r ++ [t]
  if 3 < r.length then r.drop 1 else r

/-- A grant (R156). -/
def grant (l : Fin 8) (s : State) : State :=
  let burst := if (zoneOf l).isSome then burstSeconds s l * second else 0
  let s := updateLoad l (fun x =>
    { x with state := .on, request := none, remembered := false, deferred := false, burst := burst, rest := 0 }) s
  let s := s.withLda fun a =>
    { a with
      record := appendActivation s.osc a.record
      lastAct := some s.osc
      lastGroup := a.lastGroup.set (loadGroup l) (some s.osc) }
  let s := count ⟨28 + l.val, by omega⟩ s
  tellGrant l (announceSwitch l s)

/-- Marks and counts a heater request that fails R155 through the quiet hold alone (R160), in the cold-start wait too, which
is no condition of R155. -/
def deferOne (l : Fin 8) (s : State) : State :=
  if (s.lda.loads.get l).deferred = false ∧ eligibleButQuiet s l ∧ !quietPermits s l then
    count 36 (updateLoad l (fun x => { x with deferred := true }) s)
  else s

/-- The arbiter judges (R155, R156, R160) and after each grant judges again; eight loads allow eight grants. -/
def arbitrate : (most : Nat) → State → State
  | 0, s => s
  | n + 1, s =>
    let s := loadsInOrder.foldl (fun s l => deferOne l s) s
    match chosenLoad s with
    | none => s
    | some l => arbitrate n (grant l s)

/-! ### The inrush suspension and the cold-start wait (R159, R170) -/

/-- A write of the inrush fields (R159): a change begins a suspension, or lengthens one that runs. -/
def inrushWrite (old : StationTable) (s : State) : State :=
  let new := s.tables.station
  if new.inrushLimit = old.inrushLimit ∧ new.inrushWindow = old.inrushWindow then s
  else
    s.withLda fun a => { a with suspension := some (max (a.suspension.getD a.window) new.inrushWindow) }

/-- The suspension ends when no activation is younger than the longer window; then the stored limit and window are
in force (R159). -/
def endSuspension (s : State) : State :=
  match s.lda.suspension with
  | none => s
  | some w =>
    if younger s w = 0 then
      s.withLda fun a =>
        { a with
          suspension := none
          limit := s.tables.station.inrushLimit
          window := s.tables.station.inrushWindow }
    else s

/-- The cold-start wait ends when the window in force has passed since the cold start (R170). -/
def endColdWait (s : State) : State :=
  if s.lda.window * second ≤ s.osc then s.withLda fun a => { a with coldWait := false } else s

/-! ### Heater Control (section 9.4) -/

/-- A change of HZC's own state. -/
def State.withHzc (s : State) (f : Hzc → Hzc) : State := { s with hzc := f s.hzc }

/-- A zone's effective setpoint (R163). -/
def effectiveSetpoint (level : ShedLevel) (offset : Nat) (z : ZoneEntry) : Int :=
  match level with
  | .full => z.setpoint
  | .conserve | .essential => max (z.setpoint - offset) (z.floor + z.hysteresis)
  | .survival | .cutoff => z.floor + z.hysteresis

/-- A zone's demand from its temperature (R164). -/
def demandFor (level : ShedLevel) (offset : Nat) (e : ZoneEntry) (temp : Option Int) (before : Bool) : Bool :=
  match temp with
  | none => false
  | some t =>
    if level = .essential ∧ e.essential = false then false
    else
      let eff := effectiveSetpoint level offset e
      if before then decide (t < eff) else decide (t < eff - e.hysteresis)

/-- Whether a temperature is below a zone's critical floor (R163). -/
def belowFloor (e : ZoneEntry) (temp : Option Int) : Bool :=
  match temp with
  | none => false
  | some t => decide (t < e.floor)

/-- A zone's judgement (R163, R164); a zone whose heater is not enabled has no demand and no critical mark, and
its temperature is not taken. -/
def judgeZone (s : State) (temps : Four (Option Int)) (z : Fin 6) : Zone :=
  let e := s.tables.zone.get z
  let old := s.hzc.zones.get z
  let temp := temps.get e.sensor
  if (s.tables.load.get (heaterOf z)).enable then
    { temperature := some temp
      demand := demandFor s.bmn.shed s.tables.battery.heaterOffset e temp old.demand
      critical := belowFloor e temp
      below := belowFloor e temp }
  else { old with demand := false, critical := false, below := false }

/-- The sensors that are bound to a zone with an enabled heater and are faulty (R166). -/
def boundFaulty (s : State) (temps : Four (Option Int)) : Four Bool :=
  Four.ofFn fun t =>
    (temps.get t).isNone &&
      zonesInOrder.any fun z => (s.tables.load.get (heaterOf z)).enable && (s.tables.zone.get z).sensor == t

/-- One A5 onset (R166). -/
def onsetA5 (p : AlertPayload) (s : State) : State :=
  reportCondition 5 true p (s.withHzc fun h => { h with a5 := true, a5Payload := some p })

/-- The payload of a zone below its floor (section 6.1). -/
def zonePayload (z : Fin 6) (s : State) : AlertPayload :=
  .temperature (.zone z) (((s.hzc.zones.get z).temperature).getD none)

/-- The A5 reports of a judgement (R166): an onset for each zone newly below its floor, in zone order, an onset for
each bound sensor newly faulty, and a clearing when nothing is left that was there before; at the first judgement a
clearing if there is nothing. The zones come before the sensors, T0 first, so a sensor's onset is the latest where both come
at one judgement (log entry 34). The first clearing follows no onset whose payload it could carry, and carries zone 0 without a
temperature (log entry 34). -/
def reportA5 (first : Bool) (before : Hzc) (s : State) : State :=
  let s :=
    zonesInOrder.foldl
      (fun s z =>
        if (s.hzc.zones.get z).below && !(before.zones.get z).below then onsetA5 (zonePayload z s) s else s) s
  let s :=
    [0, 1, 2, 3].foldl
      (fun s t =>
        if s.hzc.faultySensors.get t && !before.faultySensors.get t then
          onsetA5 (.temperature (.sensor t) none) s
        else s) s
  let any := s.hzc.zones.toList.any (·.below) || s.hzc.faultySensors.toList.any id
  if any || !(before.a5 || first) then s
  else
    let p := s.hzc.a5Payload.getD (.temperature (.zone 0) none)
    reportCondition 5 false p (s.withHzc fun h => { h with a5 := false })

/-- HZC judges every zone from temperatures (R163 to R166). -/
def judgeZonesWith (temps : Four (Option Int)) (s : State) : State :=
  let before := s.hzc
  let s :=
    s.withHzc fun h =>
      { h with
        zones := Six.ofFn (judgeZone s temps)
        handed := some temps
        faultySensors := boundFaulty s temps }
  reportA5 before.handed.isNone before s

/-- A request of HZC for a zone's heater (R165); what follows the step at once gives it its priority (R154). -/
abbrev hzcRequest : Request := ⟨.hzc, 0, false⟩

/-- At a judgement HZC has a request remembered for a zone with demand whose heater rests without one (R165). -/
def rememberOne (z : Fin 6) (s : State) : State :=
  let x := s.lda.loads.get (heaterOf z)
  if (s.hzc.zones.get z).demand = true ∧ x.state = .resting ∧ x.remembered = false then
    placeRequest (heaterOf z) hzcRequest s
  else s

/-- A judgement of the zones by HZC, with the requests that it has remembered (R163 to R166). -/
def judgeAndRemember (temps : Four (Option Int)) (s : State) : State :=
  zonesInOrder.foldl (fun s z => rememberOne z s) (judgeZonesWith temps s)

/-- HZC judges again with the temperatures last handed (R163); before the first hand-over it has none (R170). -/
def judgeZones (s : State) : State :=
  match s.hzc.handed with
  | none => s
  | some temps => judgeAndRemember temps s

/-- HZC's request for one zone's heater (R165): placed for an OFF load, so at a rest's end too, and withdrawn when the demand
has ended. A switch-off alone has nothing remembered: the rest's end, or a judgement during the rest, brings the request
(DESIGN CHOICE: log entry 43). -/
def heaterWork (z : Fin 6) (s : State) : State :=
  let l := heaterOf z
  let x := s.lda.loads.get l
  if (s.hzc.zones.get z).demand then
    if x.state = .off ∧ x.request = none then placeRequest l hzcRequest s else s
  else if x.request.map (·.source) = some .hzc then withdrawRequest l s
  else s

/-- HZC's requests (R165). -/
def heatersWork (s : State) : State := zonesInOrder.foldl (fun s z => heaterWork z s) s

/-! ### Restart (R171) -/

/-- LDA at warm restart (R171): every output goes off without blanking, every load rests, requests are cleared; the
inrush record, the last activations and a suspension are kept. -/
def ldaRestart (s : State) : State :=
  s.withLda fun a =>
    { a with
      loads :=
        Eight.ofFn fun l =>
          let rest := (s.tables.load.get l).minRest * second
          ⟨if rest = 0 then .off else .resting, none, false, false, 0, rest⟩ }

end Sys2Proof.Machine
end

