-- ==== Sys2Proof/Machine/Link.lean ====
section
/-!
DEFINITION. The Link Controller (chapter 7): the stream packer, the upstream queues and choice, the bytes of upstream
frames, the transmitter, the radio request, the linger, and the listen count. The receiver is in Receive.
-/

namespace Sys2Proof.Machine

open Config (second milli)

/-- A change of LNK's own state. -/
def State.withLnk (s : State) (f : Lnk → Lnk) : State := { s with lnk := f s.lnk }

/-! ### The continuous stream (section 7.3) -/

/-- The channels whose stream enable is yes. -/
def streamMask (s : State) : Six Bool := s.tables.channel.map (·.stream)

/-- The stream is on (R121): FULL, and some channel streams. -/
def streamOn (s : State) : Bool := s.atLevel .full && (streamMask s).toList.any id

/-- The included channels' samples and clip flags (section 7.3). -/
def streamFrame (mask : Six Bool) (d : Delivered) : StreamFrame :=
  let on := channels.filter mask.get
  ⟨on.map d.samples.get, on.map d.clips.get⟩

/-- Appends a closed frame to the DATA queue (R125): at 24 the oldest goes, K27 counts, and the then oldest takes
the gap flag. -/
def queueData (f : DataFrame) (s : State) : State :=
  if Config.dataLimit ≤ s.lnk.dataQueue.length then
    let rest :=
      match s.lnk.dataQueue.drop 1 with
      | [] => []
      | x :: xs => { x with gap := true } :: xs
    count 27 (s.withLnk fun l => { l with dataQueue := rest ++ [f] })
  else s.withLnk fun l => { l with dataQueue := l.dataQueue ++ [f] }

/-- Closes the open DATA frame, if there is one (R122). -/
def closeData (s : State) : State :=
  match s.lnk.openData with
  | none => s
  | some f => queueData f (s.withLnk fun l => { l with openData := none })

/-- Closes the open DATA frame when its frame count reaches K (R122, R123). -/
def closeFull (s : State) : State :=
  match s.lnk.openData with
  | none => s
  | some f => if s.tables.station.dataPacking ≤ f.frames.length then closeData s else s

/-- A delivered frame opens a DATA frame (R121). -/
def openDataFrame (d : Delivered) (s : State) : State :=
  let mask := streamMask s
  s.withLnk fun l =>
    { l with
      openData := some ⟨d.time, d.tq, mask, [streamFrame mask d], l.gapPending, d.stepFlag, d.leapFlag⟩
      gapPending := false }

/-- The packer takes a delivered frame (R121, R122). -/
def packFrame (d : Delivered) (s : State) : State :=
  if !streamOn s then s
  else
    match s.lnk.openData with
    | none => closeFull (openDataFrame d s)
    | some f =>
      if d.tq ≠ f.tq ∨ d.stepFlag = true ∨ d.leapFlag ≠ f.leap then closeFull (openDataFrame d (closeData s))
      else
        closeFull
          (s.withLnk fun l => { l with openData := some { f with frames := f.frames ++ [streamFrame f.mask d] } })

/-- The packer takes a missing indication (R122). -/
def packMissing (s : State) : State :=
  if !streamOn s then s else (closeData s).withLnk fun l => { l with gapPending := true }

/-- What a change of the shed level does to the stream (R125): above FULL the open frame and the queue go, without a
count, and gap pending is set. -/
def lnkShed (wasFull : Bool) (s : State) : State :=
  if wasFull && !s.atLevel .full then
    s.withLnk fun l => { l with openData := none, dataQueue := [], gapPending := true }
  else s

/-- What a stored write of CHANNEL entries does to the packer (R123); `old` holds the entries before it. -/
def streamWrite (old : Six ChannelEntry) (s : State) : State :=
  let before := old.map (·.stream)
  if before = streamMask s then s
  else
    let s := closeData s
    if before.toList.any id = false then s.withLnk fun l => { l with gapPending := true } else s

/-! ### What is ready, and the choice (R119, R120) -/

/-- The oldest place of the reply queue, when it is filled (R126: places go in order). -/
def readyReply (s : State) : Option (ReplyPlace × Reply) :=
  match s.lnk.replies with
  | [] => none
  | p :: _ => p.reply.map fun r => (p, r)

/-- The WAVE frame, when a job holds one and no priority-1 instance is queued (R120). -/
def readyWave (s : State) : Option WaveFrame := if priorityOne s then none else s.wfs.job.map (·.ready)

/-- LNK has something ready (section 7.2). -/
def somethingReady (s : State) : Bool :=
  (alertOffer s).isSome || (readyReply s).isSome || !s.lnk.notices.isEmpty || (readyWave s).isSome ||
    !s.lnk.dataQueue.isEmpty

/-- The header fields of an upstream frame (R118). -/
def upFrame (s : State) (kind centre : Nat) (tag : Byte) (body : UpBody) : UpFrame where
  kind := kind
  broadcast := centre == 0
  last := match body with | .wave w => w.last | _ => false
  gap := match body with | .wave w => w.gap | .data d => d.gap | _ => false
  step := match body with | .wave w => w.step | .data d => d.step | _ => false
  leap := match body with | .wave w => w.leap | .data d => d.leap | _ => false
  address := s.lnk.address
  centre := centre
  tag := tag
  body := body

/-! ### Upstream frames as bytes (sections 5.5, 7.1, 7.3, 10.1, R118) -/

/-- The time-quality codes (00_scope.md, Conventions). -/
def TimeQuality.code : TimeQuality → Byte
  | .locked => 0 | .holdover => 1 | .acquiring => 2 | .drifting => 3 | .coarse => 4 | .unset => 5

/-- A station time in 8 bytes: label in 5, fraction in 3 (R93, R118, section 7.3). -/
def timeBytes (t : Time) : List Byte := toBytes 5 t.label ++ toBytes 3 t.frac

/-- A 24-bit sample. -/
def sampleBytes (x : Int) : List Byte := intBytes 3 x

/-- A frame of a WAVE payload in 19 bytes (R93): six samples, C0 first, then the six clip flags and the fault flag, placed
as in the digitizer's own frame, C0 to C5 in bits 0 to 5 and the fault in bit 6 (DEDUCED: log entry 42). -/
def waveFrameBytes (d : Delivered) : List Byte :=
  (d.samples.toList.map sampleBytes).flatten ++ [flagByte (d.clips.toList ++ [d.fault])]

/-- The payload of a WAVE frame (R93). -/
def WaveFrame.payload (w : WaveFrame) : List Byte :=
  toBytes 2 w.event ++ toBytes 1 w.offset ++ toBytes 2 w.index ++ timeBytes w.first ++ [w.tq.code] ++
    toBytes 1 w.frames.length ++ (w.frames.map waveFrameBytes).flatten

/-- The included channels' flags in the places of their channels. -/
def placeFlags : (mask flags : List Bool) → List Bool
  | [], _ => []
  | false :: ms, fs => false :: placeFlags ms fs
  | true :: ms, fs => fs.headD false :: placeFlags ms fs.tail

/-- A sample frame of a DATA payload in 3n + 1 bytes (section 7.3). -/
def streamFrameBytes (mask : Six Bool) (f : StreamFrame) : List Byte :=
  (f.samples.map sampleBytes).flatten ++ [flagByte (placeFlags mask.toList f.clips)]

/-- The payload of a DATA frame (section 7.3). -/
def DataFrame.payload (f : DataFrame) : List Byte :=
  timeBytes f.first ++ [f.tq.code] ++ toBytes 1 f.frames.length ++ [flagByte f.mask.toList] ++
    (f.frames.map (streamFrameBytes f.mask)).flatten

/-- The notice codes (section 11.4). -/
def NoticeBody.code : NoticeBody → Byte
  | .start .. => 1 | .shed .. => 2 | .correction .. => 3 | .holdExpired .. => 4
  | .cancelled .. => 5 | .saveDone .. => 6 | .saveFailed .. => 7 | .counter .. => 8

/-- What opens a NOTICE payload (R118): the kind, the time of queuing and its time quality. -/
def Notice.head (n : Notice) : List Byte := [n.body.code] ++ timeBytes n.stamp.time ++ [n.stamp.tq.code]

/-- The reason codes (section 10.1). -/
def Reason.code : Reason → Byte
  | .unknownKind => 1 | .badLength => 2 | .badTable => 3 | .badIndex => 4 | .badValue => 5 | .busy => 6 | .held => 7
  | .noRoom => 8 | .noEvent => 9 | .noWave => 10 | .notClosed => 11 | .noAlert => 12 | .shed => 13 | .timeHeld => 14
  | .past => 15

/-- The status and reason bytes of a reply (section 10.1). -/
def ReplyStatus.bytes : ReplyStatus → List Byte
  | .done => [0, 0]
  | .clamped => [1, 0]
  | .refused r => [2, r.code]

/-- A reply's data where the spec lays its bytes out: none, the bytes of a table or counter reply, the owner, the index
(R173, R177, R178, R189, R190). -/
def ReplyData.laidOut : ReplyData → Option (List Byte)
  | .none => some []
  | .bytes bs => some bs
  | .owner c => some (toBytes 1 c)
  | .index i => some (toBytes 1 i)
  | _ => Option.none

/-- The bytes that open a payload as the spec lays them out, and whether they are all of it (log entry 18). -/
def UpBody.laidOut : UpBody → List Byte × Bool
  | .data f => (f.payload, true)
  | .wave w => (w.payload, true)
  | .alert _ => ([], false)
  | .reply r => (r.kind :: r.status.bytes ++ r.data.laidOut.getD [], r.data.laidOut.isSome)
  | .notice n => (n.head, false)

/-- The bytes of payload of an upstream frame: those laid out, and where fields follow that the spec lays out no further,
the free value's, held to the limit of 320 (R118; log entry 18). -/
def UpBody.payload (b : UpBody) : Nat :=
  let n := b.laidOut.1.length
  if b.laidOut.2 then n else n + min (Config.upPayload - n) (Config.payloadLength b)

/-- The header of an upstream frame (section 7.1, R118). -/
def UpFrame.header (f : UpFrame) : LinkHeader where
  kind := BitVec.ofNat 8 f.kind
  flags := flagByte [f.broadcast, f.last, f.gap, f.step, f.leap]
  station := BitVec.ofNat 16 f.address
  centre := BitVec.ofNat 8 f.centre
  tag := f.tag
  length := BitVec.ofNat 16 f.body.payload

/-- The bytes of an upstream frame on the line, where the spec lays its whole payload out. -/
def UpFrame.bytes (f : UpFrame) : Option (List Byte) :=
  if f.body.laidOut.2 then some (encodeFrame f.header f.body.laidOut.1) else none

/-- A frame's line time in ns (R119): payload plus 12 bytes, ten bit times each, at 115,200 bit/s, rounded up to a whole ns
(log entry 29). -/
def lineTime (bytes : Nat) : Nat := ((bytes + 12) * 10 * second + 115199) / 115200

/-- The transmitter begins a frame. -/
def startSending (f : UpFrame) (s : State) : State :=
  s.withLnk fun l => { l with tx := some ⟨f, lineTime f.body.payload⟩, lingerLeft := none }

/-- What an ALERT frame carries (R107): sends including this one. -/
def alertBody (x : AlertInstance) : AlertBody :=
  ⟨x.id, x.cls, x.priority, x.occurrences, x.sends, x.cleared, x.raised, x.pending, x.payload⟩

/-- The send of an instance (R107): sends, state and wait, K18, and its ALERT frame. -/
def sendAlert (x : AlertInstance) (s : State) : State :=
  let y : AlertInstance :=
    { x with sends := min 255 (x.sends + 1), state := .sent, wait := (s.tables.alert.get x.cls).interval }
  let s := s.withAlu fun a => { a with queue := a.queue.map fun q => if q.id = x.id then y else q }
  let centre := match y.pending with | [c] => c | _ => 0
  startSending (upFrame s 3 centre 0 (.alert (alertBody y))) (count 18 s)

/-- LNK begins the next frame (R119), chosen in R120's order of kinds: ALERT, REPLY, NOTICE, WAVE, DATA. -/
def beginFrame (s : State) : State :=
  match alertOffer s with
  | some x => sendAlert x s
  | none =>
    match readyReply s with
    | some (p, r) =>
      startSending (upFrame s 4 p.centre p.tag (.reply r)) (s.withLnk fun l => { l with replies := l.replies.drop 1 })
    | none =>
      match s.lnk.notices with
      | n :: rest =>
        startSending (upFrame s 5 n.dest 0 (.notice n)) (s.withLnk fun l => { l with notices := rest })
      | [] =>
        match readyWave s with
        | some w => startSending (upFrame s 2 w.centre w.tag (.wave w)) (advanceJob s)
        | none =>
          match s.lnk.dataQueue with
          | f :: rest =>
            startSending (upFrame s 1 0 0 (.data f)) (s.withLnk fun l => { l with dataQueue := rest })
          | [] => s

/-- A frame may be begun: transmitter FREE, radio READY, something ready (R119). -/
def mayBegin (s : State) : Bool := s.lnk.tx.isNone && s.lnk.radio == .ready && somethingReady s

/-- A transmission completes (R119): the transmitter becomes FREE and K26 counts. -/
def completeTransmission (s : State) : State := count 26 (s.withLnk fun l => { l with tx := none })

/-! ### The radio (section 7.5) -/

/-- The priority of LNK's request (R128): 1 while a due alert exists, L0's LOAD priority otherwise. -/
def radioPriority (s : State) : Nat := if (alertOffer s).isSome then 1 else (s.tables.load.get 0).priority

/-- LNK's request for L0 (R128): placed when something is ready and the radio OFF, withdrawn when nothing is ready
while REQUESTED, and otherwise re-judged in priority. -/
def radioWork (s : State) : State :=
  match s.lnk.radio with
  | .off =>
    if somethingReady s then
      judgeListening
        (placeRequest 0 ⟨.lnk, radioPriority s, false⟩ (s.withLnk fun l => { l with radio := .requested }))
    else s
  | .requested =>
    if somethingReady s then placeRequest 0 ⟨.lnk, radioPriority s, false⟩ s
    else judgeListening (withdrawRequest 0 (s.withLnk fun l => { l with radio := .off }))
  | .warming | .ready => s

/-- The linger (R130): it runs while the radio is READY, the transmitter FREE and nothing ready, and stops when
that ends; with a linger of 0, L0 is released at once. -/
def lingerWork (s : State) : State :=
  if s.lnk.radio = .ready ∧ s.lnk.tx = none ∧ somethingReady s = false then
    match s.lnk.lingerLeft with
    | some _ => s
    | none =>
      if s.tables.station.radioLinger = 0 then switchOff 0 s
      else s.withLnk fun l => { l with lingerLeft := some (s.tables.station.radioLinger * second) }
  else s.withLnk fun l => { l with lingerLeft := none }

/-! ### Listening (section 7.6) -/

/-- LNK's share of a second tick (R131). -/
def lnkTick (s : State) : State :=
  judgeListening
    (s.withLnk fun l =>
      { l with listenCount := if s.tables.station.listenPeriod ≤ l.listenCount + 1 then 0 else l.listenCount + 1 })

/-! ### Station address (R134) -/

/-- The station address in use: the STATION field, or the straps, or 65,534 when all straps read 0. -/
def addressInUse (field : Nat) (straps : Byte) : Nat :=
  if field ≠ 0 then field else if straps.toNat ≠ 0 then straps.toNat else 65534

/-- Judges the station address in use afresh. -/
def judgeAddress (s : State) : State :=
  s.withLnk fun l => { l with address := addressInUse s.tables.station.address s.straps }

/-- LNK at warm restart (R138): everything in flight is abandoned without a count, the queues are emptied, the straps are
read and the station address judged again, and the START notice is queued. -/
def lnkRestart (straps : Byte) (s : State) : State :=
  let s := { s with straps := straps, lnk := Cold.lnk 0 }
  queueNotice (.start .warm s.cmd.source) 0 (judgeListening (judgeAddress s))

end Sys2Proof.Machine
end

