-- ==== Sys2Proof/Machine/Time.lean ====
section
/-!
DEFINITION. The Timebase (chapter 2): steps, correction entries, second ticks, discipline at an accepted edge, the
label check, and the working of the GNSS receiver.
-/

namespace Sys2Proof.Machine

open Config (second)

/-- A change of TMB's own state. -/
def State.withTmb (s : State) (f : Tmb → Tmb) : State := { s with tmb := f s.tmb }

/-! ### Steps (R18, R32, R33) -/

/-- The first multiple of a period at or after `ns`. -/
def alignUp (period ns : Nat) : Nat := (ns + (period - 1)) / period * period

/-- Station time at a step's landing (R18, R33): the slew is abandoned, the next strobe instant is the first multiple
of the sample period at or after the landing, and it carries the step flag. A repeat ends when the step leaves its second
(R30), and a marked second that a step leaves behind is not run again (log entry 14). -/
def Tmb.landAt (label ns period : Nat) (t : Tmb) : Tmb :=
  { t with
    label := label
    ns := ns
    residue := 0
    slew := none
    marks := t.marks.filter fun l => decide (label ≤ l)
    repeating := t.repeating && t.label == label
    stepMark := true
    strobeNext := alignUp period ns }

/-- The correction entries' indexes in entry order. -/
abbrev entriesInOrder : List (Fin 3) := [0, 1, 2]

/-- Sets a correction entry's status and queues the CORRECTION notice that names it (R29, R32). -/
def endEntry (i : Fin 3) (status : CorrectionStatus) (s : State) : State :=
  let e := s.tables.correction.get i
  queueNotice (.correction i e.kind e.target (status == .fired)) 0
    { s with tables := { s.tables with correction := s.tables.correction.set i { e with status := status } } }

/-- An ARMED entry whose target boundary lies strictly between two station times, in ns since the epoch, becomes
MISSED (R32). -/
def missOne (old new : Nat) (i : Fin 3) (s : State) : State :=
  let e := s.tables.correction.get i
  if e.status = .armed ∧ old < e.target * second ∧ e.target * second < new then endEntry i .missed s else s

/-- A station time in ns since the epoch, for what a step passes over: past a boundary that waits for its SECOND_TICK it
stands in the second that is ending (log entry 3). -/
def sinceEpoch (label ns : Nat) : Nat := label * second + min ns (second - 1)

/-- A step to a label and ns without its count and without the landing case (R18, R32). The notices of several entries that one
step passes over stand in entry order, whatever their targets (log entry 47). -/
def stepOver (label ns : Nat) (s : State) : State :=
  let old := sinceEpoch s.tmb.label s.tmb.ns
  let s' := s.withTmb (Tmb.landAt label ns s.periodNs)
  entriesInOrder.foldl (fun s i => missOne old (sinceEpoch label ns) i s) s'

/-! ### A3 (R26) -/

/-- The A3 condition. -/
def a3Condition (t : Tmb) : Bool :=
  match t.tq with
  | .drifting => true
  | .unset | .coarse => decide (600 < t.restartAge)
  | .locked | .holdover | .acquiring => false

/-- Evaluates A3 and hands a change to ALU. -/
def judgeA3 (s : State) : State :=
  let v := a3Condition s.tmb
  if v = s.tmb.a3 then s
  else reportCondition 3 v (.timeDegraded s.tmb.tq s.tmb.err) (s.withTmb fun t => { t with a3 := v })

/-! ### Working L1 (section 2.8) -/

/-- TMB has a request for L1 placed (R34): waiting for a grant, or remembered while L1 rests. -/
def gnssRequested (s : State) : Bool := (s.lda.loads.get 1).request.isSome

/-- TMB places its request for L1, unless one stands or L1 is ON (a resting L1 is off to TMB: log entry 10). -/
def requestGnss (s : State) : State :=
  if gnssRequested s || (s.lda.loads.get 1).state == .on then s
  else placeRequest 1 ⟨.tmb, (s.tables.load.get 1).priority, false⟩ s

/-- The refix interval a release reloads (R36). -/
def refixReload (s : State) : Nat :=
  if s.atLevel .essential then s.tables.time.refixInterval * 4 else s.tables.time.refixInterval

/-- Entry to HOLDOVER (R23). -/
def enterHoldover (s : State) : State :=
  s.withTmb fun t => { t with tq := .holdover, err := s.tables.time.lockThreshold, lockedTime := 0 }

/-- A duty release of L1 (R36). -/
def releaseGnss (s : State) : State :=
  let s := if s.tmb.tq = .locked then enterHoldover s else s.withTmb fun t => { t with refixArmed := false }
  let reload := refixReload s
  switchOff 1 (s.withTmb fun t => { t with refixCounter := reload })

/-- Whether a duty release is due (R36). -/
def releaseDue (s : State) : Bool :=
  s.tmb.way == some .duty && (s.lda.loads.get 1).state == .on &&
    (decide (s.tables.time.minLockTime ≤ s.tmb.lockedTime) || decide (s.tables.time.maxOnTime ≤ s.tmb.onTime))

/-- R36's release when it is due. -/
def dutyRelease (s : State) : State := if releaseDue s then releaseGnss s else s

/-- R37's two grounds for a request. -/
def refixDue (s : State) : Bool :=
  s.tmb.refixCounter == 0 || (s.tmb.refixArmed && decide (s.tables.time.refixBound < s.tmb.err))

/-- R37's request in duty operation; judged at second ticks, at a change of the way and at a warm restart (log
entry 25). -/
def dutyRequest (s : State) : State := if s.tmb.way = some .duty ∧ refixDue s then requestGnss s else s

/-- The way of working L1 by the table of R34; none before BMN has formed a level. -/
def wayNow (s : State) : Option GnssWay :=
  if !s.bmn.formed then none
  else
    match s.bmn.shed with
    | .full => match s.tables.time.gnssMode with | .continuous => some .continuous | .duty => some .duty
    | .conserve | .essential => some .duty
    | .survival | .cutoff => some .off

/-- Re-evaluates the way of working L1 (R34): a change to off withdraws the request, a change to duty with L1 ON
applies R36 at once. A TIME write that changes the mode to DUTY and R36's limits too is judged with the new limits (log
entry 25). -/
def judgeWay (s : State) : State :=
  let w := wayNow s
  if w = s.tmb.way then s
  else
    let s := s.withTmb fun t => { t with way := w }
    match w with
    | some .off => withdrawRequest 1 s
    | some .duty => dutyRequest (dutyRelease s)
    | some .continuous | none => s

/-- Continuous operation requests L1 whenever it is off and no request is placed (R34). -/
def gnssWork (s : State) : State := if s.tmb.way = some .continuous then requestGnss s else s

/-! ### The second tick (R13, R23, R24, R35 to R37) -/

/-- TMB's counts at a second tick, each held at its limit (R13, R24, R35, R37). -/
def Tmb.tickCounts (on : Bool) (drift : Nat) (t : Tmb) : Tmb :=
  { t with
    edgeAge := min 65535 (t.edgeAge + 1)
    err := if t.tq = .holdover ∨ t.tq = .drifting then min 4294967295 (t.err + drift) else t.err
    onTime := if on then min 86400 (t.onTime + 1) else t.onTime
    lockedTime := if on = true ∧ t.tq = .locked then min 86400 (t.lockedTime + 1) else t.lockedTime
    refixCounter := t.refixCounter - 1
    restartAge := min 601 (t.restartAge + 1) }

/-- SETTLING ends when the on-time reaches the GNSS settle (R35). -/
def settleGnss (s : State) : State :=
  if s.tmb.gnss = .settling ∧ s.tables.time.gnssSettle ≤ s.tmb.onTime then s.withTmb fun t => { t with gnss := .active }
  else s

/-- LOCKED becomes HOLDOVER when the edge age meets the timeout (R23). -/
def holdoverEntry (s : State) : State :=
  if s.tmb.tq = .locked ∧ s.tables.time.holdoverTimeout ≤ s.tmb.edgeAge then enterHoldover s else s

/-- HOLDOVER becomes DRIFTING when E is above the degrade bound (R24); `was` is the state the tick found. -/
def driftingEntry (was : TimeQuality) (s : State) : State :=
  if was = .holdover ∧ s.tmb.tq = .holdover ∧ s.tables.time.degradeBound < s.tmb.err then
    s.withTmb fun t => { t with tq := .drifting }
  else s

/-- TMB's once-per-second work (log entry 11 fixes the order). -/
def tmbTick (s : State) : State :=
  let was := s.tmb.tq
  let s := s.withTmb (Tmb.tickCounts ((s.lda.loads.get 1).state == .on) s.tables.time.drift)
  judgeA3 (dutyRequest (driftingEntry was (holdoverEntry (dutyRelease (settleGnss s)))))

/-- A second tick in every block that counts seconds of station time: TMB, WFS, ALU and LNK. -/
def tickBlocks (s : State) : State := lnkTick (aluTick (wfsTick (tmbTick s)))

/-! ### Crossing a boundary and firing entries (R29 to R31) -/

/-- A number of ns since the epoch held to the range of station time. -/
def clampTotal (n : Int) : Nat := min n.toNat (Config.maxLabel * second + (second - 1))

/-- A fired STEP (R31): station time moves by its amount; 0 ms moves nothing and is still a step. -/
def fireStep (land : State → State) (ms : Int) (s : State) : State :=
  if ms = 0 then s.withTmb fun t => { t with slew := none, stepMark := true }
  else
    let n := clampTotal ((s.tmb.label * second + s.tmb.ns : Nat) + ms * 1000000)
    let s := stepOver (n / second) (n % second) s
    if n % second = 0 then land s else s

/-- A fired DELETE (R31): station time moves on by one second. -/
def fireDelete (land : State → State) (s : State) : State :=
  let s := stepOver (min Config.maxLabel (s.tmb.label + 1)) s.tmb.ns s
  if s.tmb.ns = 0 then land s else s

/-- A fired INSERT marks a second to run twice (R30) and suspends the label check. A second INSERT for one second leaves the
mark as it is, so the second is repeated once (log entry 14). -/
def Tmb.markSecond (label : Nat) (t : Tmb) : Tmb :=
  { t with
    marks := if t.marks.contains label then t.marks else t.marks ++ [label]
    repeating := t.repeating && t.label != label
    suspension := some 3 }

/-- One entry fires at the boundary into `entered` (R29 to R31). `land` is what a landing on a boundary does: a tick goes
with it after a STEP, and none after a DELETE, whose tick is that of the boundary it fires at (log entry 13). -/
def fireOne (land : (ticks : Bool) → State → State) (entered : Nat) (i : Fin 3) (s : State) : State :=
  let e := s.tables.correction.get i
  let s := count 39 (endEntry i .fired s)
  match e.kind with
  | .none => s
  | .insert => s.withTmb (Tmb.markSecond entered)
  | .delete => fireDelete (land false) s
  | .step => fireStep (land true) e.amount s

/-- An entry still fires (R29, R32): it is ARMED, so neither FIRED nor passed over, and `target` is its target. -/
def stillDue (s : State) (target : Nat) (i : Fin 3) : Bool :=
  let e := s.tables.correction.get i
  e.status == .armed && e.target == target

/-- The label being entered as a firing leaves it (R29; log entry 13): that of the boundary on which station time stands,
or of the second into which it has run; a boundary that a STEP has brought back into the future is entered yet. -/
def enteredAfter (entered : Nat) (s : State) : Nat :=
  if s.tmb.ns = 0 then s.tmb.label else max entered s.tmb.label

/-- Entry `i` fires if it is still due, as the entries before it have left the boundary (R29). With the state goes the label
being entered. -/
def fireNext (land : (ticks : Bool) → State → State) (target : Nat) (x : Nat × State) (i : Fin 3) : Nat × State :=
  if stillDue x.2 target i then
    let t := fireOne land x.1 i x.2
    (enteredAfter x.1 t, t)
  else x

/-- The entries of one target fire in entry order (R29). -/
def fireDue (land : (ticks : Bool) → State → State) (target : Nat) (s : State) : State :=
  (entriesInOrder.foldl (fireNext land target) (target, s)).2

/-- The crossing of the boundary into the label in force, with station time standing on it (R13, R29 to R32): the due
entries fire, and the tick is taken where it is the crossing's own. Every landing uses up one of three entries, so `depth`
4 is enough. -/
def crossBoundary : (depth : Nat) → (ticks : Bool) → State → State
  | 0, ticks, s => if ticks then tickBlocks s else s
  | d + 1, ticks, s =>
    let s := fireDue (crossBoundary d) s.tmb.label s
    if ticks then tickBlocks s else s

/-- The depth that suffices for three entries. -/
abbrev boundaryDepth : Nat := 4

/-- The crossing of a boundary with its tick. -/
def enterBoundary (s : State) : State := crossBoundary boundaryDepth true s

/-- A step other than a correction entry's (R18): K39 counts it, and a landing on a boundary crosses it. The count comes first,
so a COUNTER notice that it queues stands after the MISSED notices of what the step passes over and before the notices of the
crossing (log entry 13). -/
def stepTo (label ns : Nat) (s : State) : State :=
  let s := count 39 (stepOver label ns s)
  if ns = 0 then enterBoundary s else s

/-- The second in force is marked and in its first run (R30). -/
def Tmb.inFirstRun (t : Tmb) : Bool := !t.repeating && t.marks.contains t.label

/-- The label and the marks when the current second has ended (R13, R30): the label is set back for the repeat of a first run,
and advances otherwise. -/
def Tmb.nextSecond (t : Tmb) : Tmb :=
  if t.inFirstRun then { t with repeating := true, marks := t.marks.filter fun l => l != t.label }
  else { t with label := t.label + 1, repeating := false, marks := t.marks.filter fun l => decide (t.label + 1 ≤ l) }

/-- The end of the last label, without a tick (R13). The last label too is repeated, with the tick of R30, if an INSERT has
marked it (log entry 14). -/
def Tmb.wrapsSilently (t : Tmb) : Bool := !t.inFirstRun && decide (Config.maxLabel ≤ t.label)

/-- Station time on the boundary at the end of its second (R13, R30). -/
def onNextBoundary (s : State) : State :=
  s.withTmb fun t => { t.nextSecond with ns := 0, strobeNext := max t.strobeNext second - second }

/-- The end of a second of station time (R13, R30): the label advances, or is set back for a repeat, and the boundary
is crossed; at the last label the fraction wraps without a tick. Station time stands on the boundary while it is crossed; what
it has run past the boundary comes after. -/
def secondBoundary (s : State) : State :=
  let past := s.tmb.ns - second
  if s.tmb.wrapsSilently then
    s.withTmb fun t => { t with ns := past, strobeNext := max t.strobeNext second - second, repeating := false }
  else
    let b := onNextBoundary s
    let b := if s.tmb.inFirstRun then tickBlocks b else enterBoundary b
    b.withTmb fun t => { t with ns := t.ns + past }

/-! ### PPS edges (R15 to R17, R19, R21, R22, R25, R27) -/

/-- The phase error of an edge at `ns` past the last boundary (R15). -/
def phaseError (ns : Nat) : Int := if ns < 500000000 then (ns : Int) else (ns : Int) - second

/-- The label and the marks after a number of whole seconds as station time runs. -/
def Tmb.runOn : (seconds : Nat) → Tmb → Tmb
  | 0, t => t
  | n + 1, t => Tmb.runOn n t.nextSecond

/-- The edge label as station time runs (R15). The boundary at the end of an inserted second's first run is the start of
its repeat, and bears the same label (R30). Past boundaries whose SECOND_TICK still waits, labels go on as station time
runs. An entry that has not fired yet alters no label: before the boundary at which an ARMED DELETE will fire, the label of
that boundary is still its target (log entry 14). -/
def Tmb.edgeLabel (t : Tmb) (ns : Nat) : Nat :=
  let running := t.runOn (ns / second)
  min Config.maxLabel (if ns % second < 500000000 then running.label else running.nextSecond.label)

/-- The clamp of F (R17). -/
def clampFreq (f : Int) : Int := max (-500000) (min 500000 f)

/-- The effect of discipline on TMB (R17). -/
def Tmb.discipline (kp ki : Nat) (e : Int) (t : Tmb) : Tmb :=
  let amount := e.tdiv (2 ^ kp)
  { t with
    freq := clampFreq (t.freq - (e * 100).tdiv (2 ^ ki))
    slew := if amount = 0 then none else some ⟨amount, 0⟩ }

/-- R16's acceptance. -/
def edgeAccepted (s : State) (e : Int) : Bool :=
  s.tmb.gnss == .active && (s.tmb.message.map (·.fixValid)).getD false &&
    ((s.tmb.tq != .locked && s.tmb.tq != .holdover) || decide (e.natAbs ≤ s.tables.time.acceptWindow * 1000))

/-- The label check's count and offset after an edge, and the whole seconds to step when the count reaches 3 (R27). -/
structure LabelCheck where
  offset : Int
  count : Nat
  step : Option Int
  deriving DecidableEq, Repr

/-- The label check (R27): `compared` says that the edge is compared at all. -/
def labelCheck (compared : Bool) (difference offset : Int) (n : Nat) : LabelCheck :=
  if !compared then ⟨offset, 0, none⟩
  else if difference = 0 then ⟨offset, 0, none⟩
  else if difference = offset ∧ 0 < n then
    if 3 ≤ n + 1 then ⟨offset, 0, some offset⟩ else ⟨offset, n + 1, none⟩
  else ⟨difference, 1, none⟩

/-- Entry to LOCKED (R21, R25). -/
def Tmb.lock (t : Tmb) : Tmb :=
  { t with tq := .locked, lockCount := 0, err := 0, lockedTime := 0, refixArmed := true }

/-- Entry to ACQUIRING with a lock count (R21, R22, R25). -/
def Tmb.acquire (n : Nat) (t : Tmb) : Tmb := { t with tq := .acquiring, lockCount := n, err := 0, lockedTime := 0 }

/-- The phase step of R21, to the edge label with fraction 0. Over the end of an inserted second's first run it lands on
the start of the repeat: that crossing is a tick, and the label does not change (R30). -/
def stepToEdge (label : Nat) (s : State) : State :=
  if s.tmb.inFirstRun = true ∧ s.tmb.label = label ∧ 500000000 ≤ s.tmb.ns ∧ s.tmb.ns < 1500000000 then
    tickBlocks (count 39 (s.withTmb fun t => t.nextSecond.landAt label 0 s.periodNs))
  else stepTo label 0 s

/-- An edge handled as in ACQUIRING from a lock count (R21, R25). -/
def acquireEdge (e : Int) (label lockCount : Nat) (s : State) : State :=
  let c := s.tables.time
  if c.stepThreshold < e.natAbs then (stepToEdge label s).withTmb (Tmb.acquire 0)
  else
    let n := if e.natAbs ≤ c.lockThreshold then lockCount + 1 else 0
    let s := s.withTmb (Tmb.discipline c.kp c.ki e)
    if s.tmb.tq = .acquiring ∧ c.lockCount ≤ n then s.withTmb Tmb.lock else s.withTmb (Tmb.acquire n)

/-- An accepted edge under the state it is taken in (R19, R21, R22, R25). -/
def handleEdge (e : Int) (label message : Nat) (s : State) : State :=
  let c := s.tables.time
  let unlock := 4 * c.lockThreshold
  match s.tmb.tq with
  | .unset | .coarse => (stepTo message 0 s).withTmb (Tmb.acquire 0)
  | .acquiring => acquireEdge e label s.tmb.lockCount s
  | .locked =>
    let s := s.withTmb (Tmb.discipline c.kp c.ki e)
    if e.natAbs ≤ unlock then s else s.withTmb (Tmb.acquire 0)
  | .holdover =>
    if e.natAbs ≤ unlock then (s.withTmb (Tmb.discipline c.kp c.ki e)).withTmb Tmb.lock else acquireEdge e label 0 s
  | .drifting => acquireEdge e label 0 s

/-- The step of the label check (R27): whole seconds, the fraction unchanged. -/
def labelStep (offset : Int) (s : State) : State :=
  stepTo (min Config.maxLabel ((s.tmb.label : Int) + offset).toNat) s.tmb.ns s

/-- An accepted edge (R16, R19 to R27, R30), judged against the pending message `m`. The three edges that end a suspension
are counted while no inserted second stands: from the end of the repeat, or from a step that left the first run so that
none runs (log entry 14). -/
def acceptEdge (e : Int) (label : Nat) (m : TimeMessage) (s : State) : State :=
  let t := s.tmb
  let compared := (t.tq == .acquiring || t.tq == .locked) && t.suspension.isNone
  let k := labelCheck compared ((m.label : Int) - label) t.disOffset t.disCount
  let suspension :=
    match t.suspension with
    | none => none
    | some n => if t.repeating || !t.marks.isEmpty then some n else if n ≤ 1 then none else some (n - 1)
  let s := (count 37 s).withTmb fun t =>
    { t with edgeAge := 0, message := none, disOffset := k.offset, disCount := k.count, suspension := suspension }
  let s := judgeA3 (handleEdge e label m.label s)
  match k.step with
  | none => s
  | some d => labelStep d s

/-- A PPS edge (R14 to R16). -/
def ppsEdge (s : State) : State :=
  let ns := s.tmb.ns % second
  let e := phaseError ns
  match s.tmb.message with
  | none => count 38 s
  | some m =>
    if edgeAccepted s e then acceptEdge e (s.tmb.edgeLabel s.tmb.ns) m s
    else count 38 (s.withTmb fun t => { t with message := none })

/-- A time message (R14). -/
def timeMessage (bytes : List Byte) (s : State) : State :=
  match decodeTimeMessage bytes with
  | none => s
  | some m => s.withTmb fun t => { t with message := some m, satellites := m.satellites }

/-! ### TIME_SET (R20) and restart (R40) -/

/-- TIME_SET is taken in UNSET and COARSE. -/
def timeSettable (s : State) : Bool := s.tmb.tq == .unset || s.tmb.tq == .coarse

/-- A TIME_SET that is taken: the step, and the state COARSE. A landing on a boundary takes its tick, its A3 evaluation and
the stamps of its notices in the state before COARSE (log entry 12). -/
def setTime (label frac : Nat) (s : State) : State :=
  judgeA3 ((stepTo label (frac * 100) s).withTmb fun t => { t with tq := .coarse })

/-- TMB at warm restart (R40); LDA's rule has cleared L1's request. The strobe instants follow the rate then in force: the next
one is the first after the moment of the restart, unless an instant of the old rate that has come is still to be given (log
entry 49). -/
def tmbRestart (s : State) : State :=
  let reload :=
    match s.tmb.tq with
    | .unset | .coarse | .acquiring => 0
    | .locked | .holdover | .drifting => refixReload s
  let s := s.withTmb fun t =>
    { t with
      slew := none
      message := none
      edgeAge := 0
      disCount := 0
      gnss := .off
      onTime := 0
      lockedTime := 0
      restartAge := 0
      refixCounter := reload
      strobeNext := alignUp s.periodNs (min t.strobeNext (t.ns + 1)) }
  dutyRequest (judgeA3 s)

end Sys2Proof.Machine
end

