-- ==== Sys2Proof/Machine/Sample.lean ====
section
/-!
DEFINITION. The Sample Interface (chapter 1): strobes and the outstanding-strobe list, digitizer frames, delivery,
missing frames, gap reset and the A6 condition.
-/

namespace Sys2Proof.Machine

open Config (second)

/-- A change of SIF's own state. -/
def State.withSif (s : State) (f : Sif → Sif) : State := { s with sif := f s.sif }

/-! ### A6 (R9) -/

/-- An A6 onset (R6, R8): each one is handed to ALU, whether or not the condition was true already. -/
def onsetA6 (cause : DigitizerCause) (s : State) : State :=
  reportCondition 6 true (.digitizer cause s.sif.missingRun) (s.withSif fun f => { f with a6 := true })

/-- The A6 condition becomes false (R5); ALU is handed the change, if it is one. -/
def clearA6 (s : State) : State :=
  if s.sif.a6 then
    reportCondition 6 false ((s.alu.conds.get 6).payload.getD (.digitizer .gap 0)) (s.withSif fun f => { f with a6 := false })
  else s

/-! ### Missing runs and gap reset (R7, R8) -/

/-- The missing run length increases, to 255 at most (R6, R7). -/
def lengthenRun (s : State) : State := s.withSif fun f => { f with missingRun := min 255 (f.missingRun + 1) }

/-- R8's comparison after an increase: gap reset is signalled once a run. -/
def judgeGap (t : Time) (s : State) : State :=
  if s.tables.station.gapReset ≤ s.sif.missingRun ∧ s.sif.gapSignalled = false then
    onsetA6 .gap (gapResetDetectors t (s.withSif fun f => { f with gapSignalled := true }))
  else s

/-- Hands DET (and EVU with it) and the stream packer a missing indication (R7; the order is log entry 8's). -/
def handMissing (stamp : Stamp) (s : State) : State := packMissing (sampleInstant stamp none s)

/-- A frameless entry that leaves the list is declared missing (R7, R8). -/
def declareMissing (e : Strobe) (s : State) : State :=
  let s := lengthenRun (count 4 s)
  let s := if e.stepFlag then s.withSif fun f => { f with stepCarry := true } else s
  judgeGap e.time (handMissing ⟨e.time, e.tq⟩ s)

/-! ### Delivery (R5, R6) -/

/-- The delivered frame of an entry (section 1.3), with the step carry. -/
def deliveredOf (carry : Bool) (e : Strobe) (f : DigFrame) : Delivered where
  seq := e.seq
  time := e.time
  tq := e.tq
  stepFlag := e.stepFlag || carry
  leapFlag := e.leapFlag
  samples := f.samples
  clips := f.clips
  fault := f.fault

/-- The number of set clip flags. -/
def clipCount (clips : Six Bool) : Nat := (clips.toList.filter id).length

/-- What R5 does for a delivered frame whose fault flag is clear, with the hand-over to DET, WFS and the packer. -/
def deliverGood (d : Delivered) (s : State) : State :=
  let s := countTimes (clipCount d.clips) 6 s
  let s := clearA6 (s.withSif fun f => { f with missingRun := 0, gapSignalled := false })
  packFrame d (writeFrame d (sampleInstant ⟨d.time, d.tq⟩ (some (d.samples, d.clips)) s))

/-- What R6 does for a fault-flagged frame: missing to DET and the packer, whole to WFS. The FAULT onset comes before the
hand-over and the GAP onset of a run that the frame completes after it, so that A6 is left with cause GAP (log entry 8). -/
def deliverFaulty (d : Delivered) (s : State) : State :=
  let s := onsetA6 .fault (lengthenRun (count 5 (count 4 s)))
  judgeGap d.time (packMissing (writeFrame d (sampleInstant ⟨d.time, d.tq⟩ none s)))

/-- The delivery of a frame (R5, R6). -/
def deliver (e : Strobe) (f : DigFrame) (s : State) : State :=
  let s := count 0 s
  let d := deliveredOf s.sif.stepCarry e f
  let s := s.withSif fun x => { x with lastAccepted := some e.seq, stepCarry := false }
  if f.fault then deliverFaulty d s else deliverGood d s

/-- An entry that has left the list is delivered with its frame, or declared missing without one (R2, R4). -/
def leave (e : Strobe) (s : State) : State :=
  match e.frame with
  | some f => deliver e f s
  | none => declareMissing e s

/-- Delivers from the front of the list while the front entry holds its frame (R4); `most` entries at most. -/
def deliverFront : (most : Nat) → State → State
  | 0, s => s
  | n + 1, s =>
    match s.sif.strobes with
    | [] => s
    | e :: rest =>
      match e.frame with
      | none => s
      | some f => deliverFront n (deliver e f (s.withSif fun x => { x with strobes := rest }))

/-! ### Strobes (R1, R2, R33) -/

/-- The front entry of a full list goes, delivered or missing, and delivery goes on from the front (R2). -/
def pushOut (s : State) : State :=
  if s.sif.strobes.length < Config.strobeLimit then s
  else
    match s.sif.strobes with
    | [] => s
    | e :: rest =>
      let s := s.withSif fun x => { x with strobes := rest }
      deliverFront Config.strobeLimit (leave e s)

/-- The entry of a strobe given now (R1): its timestamp is the strobe instant in the running second, and it carries the leap
flag in a repeated second (R30, R33). -/
def newStrobe (s : State) : Strobe :=
  ⟨s.sif.nextSeq, ⟨s.tmb.label, s.tmb.strobeNext / 100⟩, s.tmb.tq, s.tmb.stepMark, s.tmb.repeating, none⟩

/-- A strobe instant (R1, R2): the push-out first, then the new entry at the back; the next instant is one sample
period later. -/
def strobeInstant (s : State) : State :=
  let e := newStrobe s
  let s := pushOut s
  let s := s.withSif fun f => { f with nextSeq := f.nextSeq + 1, strobes := f.strobes ++ [e] }
  s.withTmb fun t => { t with stepMark := false, strobeNext := t.strobeNext + s.periodNs }

/-- A strobe instant stands in the running second. The instant at a second boundary belongs to the second that the boundary
enters, which its SECOND_TICK makes known (R29 to R33; log entry 3). -/
def strobeDue (s : State) : Bool := decide (s.tmb.strobeNext < second)

/-- Station time runs to the next strobe instant of the running second, and the strobe is given. -/
def runStrobe (s : State) : State :=
  if strobeDue s then strobeInstant (runToStation s.tmb.strobeNext s) else s

/-! ### Digitizer frames (R4) -/

/-- Stores a frame in the frameless entry of its sequence. -/
def storeFrame (f : DigFrame) (s : State) : State :=
  s.withSif fun x =>
    { x with strobes := x.strobes.map fun e => if e.seq = f.seq then { e with frame := some f } else e }

/-- A well-formed frame is matched by its sequence alone (R4). -/
def matchFrame (f : DigFrame) (s : State) : State :=
  match s.sif.strobes.find? (·.seq == f.seq) with
  | some e => if e.frame.isSome then count 3 s else deliverFront Config.strobeLimit (storeFrame f s)
  | none => if s.sif.lastAccepted = some f.seq then count 3 s else count 2 s

/-- The arrival of a digitizer frame (R4). -/
def digitizerFrame (bytes : List Byte) (s : State) : State :=
  match decodeDigFrame bytes with
  | none => count 1 s
  | some f => matchFrame f s

/-- SIF at warm restart (R12): the values of a cold start at the rate then in force; a true A6 condition is handed on
as false. -/
def sifRestart (s : State) : State := (clearA6 s).withSif fun _ => Cold.sif s.tables.station.sampleRate

end Sys2Proof.Machine
end

