-- ==== Sys2Proof/Machine/Tables.lean ====
section
/-!
DEFINITION. The ten loadable tables as bytes (section 10.3, R174): reading and writing an entry, the value policy
(R176) in its three passes, and the configuration image (R183).
-/

namespace Sys2Proof.Machine

/-! ### The tables and their addressing (section 10.3, R175) -/

/-- The loadable tables, in number order. -/
inductive TableId where
  | station | channel | event | time | correction | alert | load | zone | battery | countermask
  deriving DecidableEq, Repr

/-- The table a number names (R175). -/
def tableOf (n : Nat) : Option TableId :=
  match n with
  | 1 => some .station | 2 => some .channel | 3 => some .event | 4 => some .time | 5 => some .correction
  | 6 => some .alert | 7 => some .load | 8 => some .zone | 9 => some .battery | 10 => some .countermask
  | _ => none

/-- A table's number. -/
def TableId.number : TableId → Nat
  | .station => 1 | .channel => 2 | .event => 3 | .time => 4 | .correction => 5
  | .alert => 6 | .load => 7 | .zone => 8 | .battery => 9 | .countermask => 10

/-- How many entries a table has. -/
def TableId.entries : TableId → Nat
  | .station | .event | .time | .battery | .countermask => 1
  | .correction => 3
  | .channel | .zone => 6
  | .alert | .load => 8

/-- The bytes of one entry (R174). -/
def TableId.entrySize : TableId → Nat
  | .station => 17 | .channel => 15 | .event => 9 | .time => 30 | .correction => 9
  | .alert => 8 | .load => 8 | .zone => 7 | .battery => 33 | .countermask => 5

/-- The notice mask as an entry. -/
abbrev Mask40 := Vector Bool 40

/-- An entry of any table. -/
inductive Entry where
  | station (e : StationTable)
  | channel (e : ChannelEntry)
  | event (e : EventTable)
  | time (e : TimeTable)
  | correction (e : CorrectionEntry)
  | alert (e : AlertEntry)
  | load (e : LoadEntry)
  | zone (e : ZoneEntry)
  | battery (e : BatteryTable)
  | countermask (e : Mask40)
  deriving DecidableEq, Repr

/-- An index brought into a table of `n` entries; commands are judged by R175 before they index a table. -/
def indexIn (n i : Nat) (h : 0 < n) : Fin n := ⟨i % n, Nat.mod_lt _ h⟩

/-- The stored entry. -/
def readEntry (t : Tables) (id : TableId) (i : Nat) : Entry :=
  match id with
  | .station => .station t.station
  | .channel => .channel (t.channel.get (indexIn 6 i (by decide)))
  | .event => .event t.event
  | .time => .time t.time
  | .correction => .correction (t.correction.get (indexIn 3 i (by decide)))
  | .alert => .alert (t.alert.get (indexIn 8 i (by decide)))
  | .load => .load (t.load.get (indexIn 8 i (by decide)))
  | .zone => .zone (t.zone.get (indexIn 6 i (by decide)))
  | .battery => .battery t.battery
  | .countermask => .countermask t.countermask

/-- Stores an entry in its table. -/
def storeEntry (i : Nat) (e : Entry) (t : Tables) : Tables :=
  match e with
  | .station e => { t with station := e }
  | .channel e => { t with channel := t.channel.set (indexIn 6 i (by decide)) e }
  | .event e => { t with event := e }
  | .time e => { t with time := e }
  | .correction e => { t with correction := t.correction.set (indexIn 3 i (by decide)) e }
  | .alert e => { t with alert := t.alert.set (indexIn 8 i (by decide)) e }
  | .load e => { t with load := t.load.set (indexIn 8 i (by decide)) e }
  | .zone e => { t with zone := t.zone.set (indexIn 6 i (by decide)) e }
  | .battery e => { t with battery := e }
  | .countermask e => { t with countermask := e }

/-! ### Entries as bytes (R174) -/

/-- A yes/no field as a byte. -/
def yesNo (b : Bool) : List Byte := [if b then 1 else 0]

/-- The codes of the enumerations, by their place in the owning chapter's list (R174). -/
def GnssMode.code : GnssMode → Nat | .continuous => 0 | .duty => 1
def AlertMode.code : AlertMode → Nat | .edge => 0 | .level => 1
def CorrectionKind.code : CorrectionKind → Nat | .none => 0 | .insert => 1 | .delete => 2 | .step => 3
def CorrectionStatus.code : CorrectionStatus → Nat | .empty => 0 | .armed => 1 | .fired => 2 | .missed => 3

/-- The kind a code names; the third pass refuses the codes that name none. -/
def correctionKindOf (n : Nat) : CorrectionKind :=
  match n with | 1 => .insert | 2 => .delete | 3 => .step | _ => .none

/-- An entry in the encoding of section 10.3; `i` is its index, which fixes a load's group. -/
def encodeEntry (i : Nat) (e : Entry) : List Byte :=
  match e with
  | .station e =>
    toBytes 2 e.address ++ toBytes 1 e.sampleRate ++ toBytes 1 e.dataPacking ++ toBytes 2 e.listenPeriod ++
      toBytes 2 e.listenWindow ++ toBytes 2 e.radioWarmUp ++ toBytes 2 e.radioLinger ++ toBytes 1 e.gapReset ++
      toBytes 1 e.inrushLimit ++ toBytes 1 e.inrushWindow ++ toBytes 1 e.shortSpacing ++ toBytes 1 e.longSpacing
  | .channel e =>
    yesNo e.enable ++ toBytes 1 e.h ++ toBytes 1 e.a ++ toBytes 1 e.b ++ toBytes 1 e.ron ++ toBytes 1 e.roff ++
      toBytes 2 e.lmin ++ toBytes 1 e.maxTrigger ++ toBytes 1 e.weight ++ toBytes 3 e.strongMotion ++
      [flagByte e.mask.toList] ++ yesNo e.stream
  | .event e =>
    toBytes 1 e.threshold ++ toBytes 2 e.window ++ toBytes 1 e.preEvent ++ toBytes 1 e.postEvent ++
      toBytes 2 e.maxLength ++ toBytes 2 e.quietTail
  | .time e =>
    toBytes 4 e.stepThreshold ++ toBytes 2 e.lockThreshold ++ toBytes 1 e.lockCount ++ toBytes 1 e.kp ++
      toBytes 1 e.ki ++ toBytes 2 e.acceptWindow ++ toBytes 1 e.holdoverTimeout ++ toBytes 2 e.drift ++
      toBytes 3 e.degradeBound ++ toBytes 3 e.refixBound ++ toBytes 2 e.gnssSettle ++ toBytes 1 e.gnssMode.code ++
      toBytes 3 e.refixInterval ++ toBytes 2 e.maxOnTime ++ toBytes 2 e.minLockTime
  | .correction e =>
    toBytes 1 e.kind.code ++ toBytes 5 e.target ++ intBytes 2 e.amount ++ toBytes 1 e.status.code
  | .alert e =>
    yesNo e.enable ++ toBytes 1 e.priority ++ toBytes 1 e.mode.code ++ toBytes 1 e.dest1 ++ toBytes 1 e.dest2 ++
      toBytes 2 e.interval ++ toBytes 1 e.limit
  | .load e =>
    yesNo e.enable ++ toBytes 1 e.priority ++ toBytes 2 e.burst ++ toBytes 2 e.minRest ++ toBytes 1 e.blanking ++
      toBytes 1 (loadGroup (indexIn 8 i (by decide))).val
  | .zone e =>
    toBytes 1 e.sensor.val ++ intBytes 2 e.setpoint ++ toBytes 1 e.hysteresis ++ intBytes 2 e.floor ++
      yesNo e.essential
  | .battery e =>
    toBytes 2 e.capacity ++ toBytes 1 e.efficiency ++ toBytes 2 e.s1 ++ toBytes 2 e.s2 ++ toBytes 2 e.s3 ++
      toBytes 1 e.hysteresis ++ toBytes 2 e.vSurv ++ toBytes 2 e.vCut ++ toBytes 2 e.fullVoltage ++
      toBytes 2 e.taper ++ intBytes 2 e.chargeMin ++ intBytes 2 e.chargeMax ++ toBytes 1 e.heaterOffset ++
      toBytes 2 e.rest0 ++ toBytes 2 e.rest250 ++ toBytes 2 e.rest500 ++ toBytes 2 e.rest750 ++ toBytes 2 e.rest1000
  | .countermask e =>
    [0, 1, 2, 3, 4].map fun k => flagByte ((e.toList.drop (8 * k)).take 8)

/-- The number in `n` bytes from byte `i`. -/
def natAt (bs : List Byte) (i n : Nat) : Nat := beNat (field i n bs)

/-- The two's complement number in `n` bytes from byte `i`. -/
def intAt (bs : List Byte) (i n : Nat) : Int := beInt (field i n bs)

/-- The values that an entry's bytes carry, before the value policy. -/
def decodeEntry (id : TableId) (bs : List Byte) : Entry :=
  match id with
  | .station =>
    .station
      { address := natAt bs 0 2, sampleRate := natAt bs 2 1, dataPacking := natAt bs 3 1
        listenPeriod := natAt bs 4 2, listenWindow := natAt bs 6 2, radioWarmUp := natAt bs 8 2
        radioLinger := natAt bs 10 2, gapReset := natAt bs 12 1, inrushLimit := natAt bs 13 1
        inrushWindow := natAt bs 14 1, shortSpacing := natAt bs 15 1, longSpacing := natAt bs 16 1 }
  | .channel =>
    .channel
      { enable := natAt bs 0 1 == 1, h := natAt bs 1 1, a := natAt bs 2 1, b := natAt bs 3 1
        ron := natAt bs 4 1, roff := natAt bs 5 1, lmin := natAt bs 6 2, maxTrigger := natAt bs 8 1
        weight := natAt bs 9 1, strongMotion := natAt bs 10 3
        mask := Four.ofFn fun g => bit (bs.getD 13 0) g.val
        stream := natAt bs 14 1 == 1 }
  | .event =>
    .event
      { threshold := natAt bs 0 1, window := natAt bs 1 2, preEvent := natAt bs 3 1
        postEvent := natAt bs 4 1, maxLength := natAt bs 5 2, quietTail := natAt bs 7 2 }
  | .time =>
    .time
      { stepThreshold := natAt bs 0 4, lockThreshold := natAt bs 4 2, lockCount := natAt bs 6 1
        kp := natAt bs 7 1, ki := natAt bs 8 1, acceptWindow := natAt bs 9 2
        holdoverTimeout := natAt bs 11 1, drift := natAt bs 12 2, degradeBound := natAt bs 14 3
        refixBound := natAt bs 17 3, gnssSettle := natAt bs 20 2
        gnssMode := if natAt bs 22 1 = 1 then .duty else .continuous
        refixInterval := natAt bs 23 3, maxOnTime := natAt bs 26 2, minLockTime := natAt bs 28 2 }
  | .correction =>
    .correction ⟨correctionKindOf (natAt bs 0 1), natAt bs 1 5, intAt bs 6 2, .empty⟩
  | .alert =>
    .alert
      { enable := natAt bs 0 1 == 1, priority := natAt bs 1 1
        mode := if natAt bs 2 1 = 1 then .level else .edge
        dest1 := natAt bs 3 1, dest2 := natAt bs 4 1, interval := natAt bs 5 2, limit := natAt bs 7 1 }
  | .load =>
    .load
      { enable := natAt bs 0 1 == 1, priority := natAt bs 1 1, burst := natAt bs 2 2
        minRest := natAt bs 4 2, blanking := natAt bs 6 1 }
  | .zone =>
    .zone
      { sensor := indexIn 4 (natAt bs 0 1) (by decide), setpoint := intAt bs 1 2
        hysteresis := natAt bs 3 1, floor := intAt bs 4 2, essential := natAt bs 6 1 == 1 }
  | .battery =>
    .battery
      { capacity := natAt bs 0 2, efficiency := natAt bs 2 1, s1 := natAt bs 3 2, s2 := natAt bs 5 2
        s3 := natAt bs 7 2, hysteresis := natAt bs 9 1, vSurv := natAt bs 10 2, vCut := natAt bs 12 2
        fullVoltage := natAt bs 14 2, taper := natAt bs 16 2, chargeMin := intAt bs 18 2
        chargeMax := intAt bs 20 2, heaterOffset := natAt bs 22 1, rest0 := natAt bs 23 2
        rest250 := natAt bs 25 2, rest500 := natAt bs 27 2, rest750 := natAt bs 29 2
        rest1000 := natAt bs 31 2 }
  | .countermask =>
    .countermask (Vector.ofFn fun k : Fin 40 => bit (bs.getD (k.val / 8) 0) (k.val % 8))

/-! ### The value policy (R176) -/

/-- The nearer end of a range. -/
def clampN (lo hi v : Nat) : Nat := max lo (min hi v)

/-- The nearer end of a range of signed values. -/
def clampI (lo hi v : Int) : Int := max lo (min hi v)

/-- A CORRECTION amount in ms stands within its range (R28). -/
def amountInRange (ms : Int) : Bool := decide (-1000 ≤ ms ∧ ms ≤ 1000)

/-- The first two passes of R176: the ranges of the owning chapters' field tables, then the dependent limits. The
sample rate's set is 100 and 200. A CORRECTION amount is stored for STEP alone, and a kind NONE empties the entry
(R28). -/
def clampEntry (e : Entry) : Entry :=
  match e with
  | .station e =>
    let period := clampN 60 3600 e.listenPeriod
    .station
      { e with
        address := clampN 0 65534 e.address
        sampleRate := if e.sampleRate < 150 then 100 else 200
        dataPacking := clampN 1 16 e.dataPacking
        listenPeriod := period
        listenWindow := min period (clampN 5 300 e.listenWindow)
        radioWarmUp := clampN 50 5000 e.radioWarmUp
        radioLinger := clampN 0 600 e.radioLinger
        gapReset := clampN 1 255 e.gapReset
        inrushLimit := clampN 1 3 e.inrushLimit
        inrushWindow := clampN 1 60 e.inrushWindow
        shortSpacing := clampN 0 10 e.shortSpacing
        longSpacing := clampN 0 60 e.longSpacing }
  | .channel e =>
    .channel
      { e with
        h := clampN 6 14 e.h
        a := clampN 1 8 e.a
        b := clampN 6 15 e.b
        ron := clampN 24 255 e.ron
        roff := clampN 16 254 e.roff
        lmin := clampN 1 65535 e.lmin
        maxTrigger := clampN 1 255 e.maxTrigger
        weight := clampN 0 3 e.weight
        strongMotion := clampN 0 8388607 e.strongMotion }
  | .event e =>
    .event
      { threshold := clampN 1 18 e.threshold
        window := clampN 1 600 e.window
        preEvent := clampN 0 60 e.preEvent
        postEvent := clampN 1 120 e.postEvent
        maxLength := clampN 10 600 e.maxLength
        quietTail := clampN 0 300 e.quietTail }
  | .time e =>
    let degrade := clampN 1000 10000000 e.degradeBound
    .time
      { e with
        stepThreshold := clampN 1000 100000000 e.stepThreshold
        lockThreshold := clampN 100 10000 e.lockThreshold
        lockCount := clampN 4 60 e.lockCount
        kp := clampN 0 4 e.kp
        ki := clampN 2 10 e.ki
        acceptWindow := clampN 1 1000 e.acceptWindow
        holdoverTimeout := clampN 2 30 e.holdoverTimeout
        drift := clampN 1 1000 e.drift
        degradeBound := degrade
        refixBound := min degrade (max 500 e.refixBound)
        gnssSettle := clampN 0 600 e.gnssSettle
        refixInterval := clampN 60 86400 e.refixInterval
        maxOnTime := clampN 60 3600 e.maxOnTime
        minLockTime := clampN 10 600 e.minLockTime }
  | .correction e =>
    .correction
      (match e.kind with
        | .none => Defaults.correction
        | .insert | .delete => { e with amount := 0, status := .armed }
        | .step => { e with amount := clampI (-1000) 1000 e.amount, status := .armed })
  | .alert e =>
    .alert
      { e with
        priority := clampN 1 5 e.priority
        dest1 := clampN 1 15 e.dest1
        dest2 := clampN 0 15 e.dest2
        interval := clampN 10 3600 e.interval
        limit := clampN 0 15 e.limit }
  | .load e =>
    .load
      { e with
        priority := clampN 2 7 e.priority
        burst := clampN 1 600 e.burst
        minRest := clampN 0 600 e.minRest
        blanking := clampN 0 255 e.blanking }
  | .zone e =>
    let setpoint := clampI (-400) 400 e.setpoint
    let hysteresis := clampN 2 50 e.hysteresis
    .zone
      { e with
        setpoint := setpoint
        hysteresis := hysteresis
        floor := min (setpoint - hysteresis) (max (-500) e.floor) }
  | .battery e =>
    .battery
      { capacity := clampN 1 2000 e.capacity
        efficiency := clampN 80 100 e.efficiency
        s1 := clampN 1 999 e.s1
        s2 := clampN 1 999 e.s2
        s3 := clampN 1 999 e.s3
        hysteresis := clampN 10 200 e.hysteresis
        vSurv := clampN 9000 13000 e.vSurv
        vCut := clampN 8000 12500 e.vCut
        fullVoltage := clampN 12000 16000 e.fullVoltage
        taper := clampN 50 5000 e.taper
        chargeMin := clampI (-200) 100 e.chargeMin
        chargeMax := clampI 300 600 e.chargeMax
        heaterOffset := clampN 0 200 e.heaterOffset
        rest0 := clampN 8000 16000 e.rest0
        rest250 := clampN 8000 16000 e.rest250
        rest500 := clampN 8000 16000 e.rest500
        rest750 := clampN 8000 16000 e.rest750
        rest1000 := clampN 8000 16000 e.rest1000 }
  | .countermask e => .countermask e

/-- The yes/no fields and enumerations of a table's entry: byte and largest code. -/
def TableId.sets : TableId → List (Nat × Nat)
  | .channel => [(0, 1), (14, 1)]
  | .time => [(22, 1)]
  | .correction => [(0, 3)]
  | .alert => [(0, 1), (2, 1)]
  | .load => [(0, 1)]
  | .zone => [(0, 3), (6, 1)]
  | .station | .event | .battery | .countermask => []

/-- The set checks of the third pass. -/
def setsHold (id : TableId) (bs : List Byte) : Bool := id.sets.all fun p => decide (natAt bs p.1 1 ≤ p.2)

/-- The relations of the third pass, on the values as the first two passes left them. -/
def relationsHold (i : Nat) (e : Entry) : Bool :=
  match e with
  | .channel e => decide (e.a + 3 ≤ e.b ∧ e.roff < e.ron)
  | .battery e =>
    decide
      (e.s2 < e.s1 ∧ e.s3 < e.s2 ∧ e.vCut < e.vSurv ∧ e.rest0 < e.rest250 ∧ e.rest250 < e.rest500 ∧
        e.rest500 < e.rest750 ∧ e.rest750 < e.rest1000)
  | .alert e => decide (3 ≤ i) || e.mode == .edge
  | .station _ | .event _ | .time _ | .correction _ | .load _ | .zone _ | .countermask _ => true

/-- A correction entry that is armed for a target that is not in the future (R28). -/
def targetPast (label : Nat) (e : Entry) : Bool :=
  match e with
  | .correction e => e.kind != .none && decide (e.target ≤ label)
  | _ => false

/-- The three passes of R176 on one entry, with the station seconds label of the moment. -/
def judgeEntry (id : TableId) (label i : Nat) (bs : List Byte) : Except Reason Entry :=
  let e := clampEntry (decodeEntry id bs)
  if !setsHold id bs then .error .badValue
  else if !relationsHold i e then .error .badValue
  else if targetPast label e then .error .past
  else .ok e

/-- An entry's bytes with what a write ignores replaced by what is stored (R174, R176, R28): the LOAD group, the
CORRECTION status, an INSERT's or DELETE's amount, mask positions beyond G3. Kind NONE stores target and amount as 0, and an
amount within its range is then no clamped one; one outside it is (log entry 32). -/
def withoutIgnored (i : Nat) (e : Entry) (bs : List Byte) : List Byte :=
  let stored := encodeEntry i e
  match e with
  | .load _ => bs.take 7 ++ stored.drop 7
  | .correction c =>
    match c.kind with
    | .none => if amountInRange (intAt bs 6 2) then bs.take 1 ++ stored.drop 1 else bs.take 8 ++ stored.drop 8
    | .insert | .delete => bs.take 6 ++ stored.drop 6
    | .step => bs.take 8 ++ stored.drop 8
  | .channel _ => bs.take 13 ++ [bs.getD 13 0 &&& 0x0F] ++ bs.drop 14
  | _ => bs

/-- Whether a value the entry carried was replaced (R173, R176): it is stored otherwise than it was written. -/
def entryClamped (i : Nat) (e : Entry) (bs : List Byte) : Bool := encodeEntry i e != withoutIgnored i e bs

/-! ### Runs of entries (R177, R178) -/

/-- Entries `first` to `first + count - 1` of a table, in the encoding of section 10.3. -/
def readEntries (t : Tables) (id : TableId) (first : Nat) : (count : Nat) → List Byte
  | 0 => []
  | n + 1 => encodeEntry first (readEntry t id first) ++ readEntries t id (first + 1) n

/-- The judged entries of a write with whether any was clamped, or the first refusal with its index (R177). -/
def judgeEntries (id : TableId) (label i : Nat) : (count : Nat) → List Byte → Except (Reason × Nat) (List Entry × Bool)
  | 0, _ => .ok ([], false)
  | n + 1, bs =>
    let mine := bs.take id.entrySize
    match judgeEntry id label i mine with
    | .error r => .error (r, i)
    | .ok e =>
      match judgeEntries id label (i + 1) n (bs.drop id.entrySize) with
      | .error r => .error r
      | .ok (es, clamped) => .ok (e :: es, entryClamped i e mine || clamped)

/-- Stores a run of entries. -/
def storeEntries (i : Nat) (es : List Entry) (t : Tables) : Tables :=
  match es with
  | [] => t
  | e :: rest => storeEntries (i + 1) rest (storeEntry i e t)

/-! ### The configuration image (R183, R185) -/

/-- The nine tables of the image, in table-number order. -/
abbrev imageTables : List TableId := [.station, .channel, .event, .time, .alert, .load, .zone, .battery, .countermask]

/-- The image of a set of tables. -/
def imageOf (t : Tables) : List Byte :=
  withCheck
    (toBytes 2 Config.imageBody ++ (imageTables.map fun id => readEntries t id 0 id.entries).flatten)

/-- A stored image is good (R185): the length field and the check hold, and no write of it was cut short. -/
def imageGood (m : ConfigMemory) : Bool :=
  !m.torn && m.bytes.length == Config.imageLength && beNat (m.bytes.take 2) == Config.imageBody && checkGood m.bytes

/-- Loads the entries of one table from the bytes of an image, from index `i` on, as stored. -/
def loadTable (id : TableId) (i : Nat) : (count : Nat) → List Byte → Tables → Tables
  | 0, _, t => t
  | n + 1, bs, t =>
    loadTable id (i + 1) n (bs.drop id.entrySize) (storeEntry i (decodeEntry id (bs.take id.entrySize)) t)

/-- Loads the tables of an image in table-number order. -/
def loadTables : List TableId → List Byte → Tables → Tables
  | [], _, t => t
  | id :: rest, bs, t => loadTables rest (bs.drop (id.entries * id.entrySize)) (loadTable id 0 id.entries bs t)

/-- The tables that a good image holds, with the CORRECTION entries EMPTY (R185). -/
def tablesOfImage (bs : List Byte) : Tables := loadTables imageTables (bs.drop 2) Defaults.tables

end Sys2Proof.Machine
end

