-- ==== Sys2Proof/Machine/Restart.lean ====
section
/-!
DEFINITION. Cold start, loss of power and warm restart of the whole part (R185, R146, R182 and each chapter's reset
rules).
-/

namespace Sys2Proof.Machine

/-- The blocks as a cold start sets them from loaded tables (R11, R39, R61, R79, R97, R116, R137, R151, R170, R191),
before the START notice. The configuration memory and the waiting commands are kept. -/
def coldBlocks (straps : Byte) (source : ConfigSource) (t : Tables) (s : State) : State where
  supply := .on
  osc := 0
  straps := straps
  sif := Cold.sif t.station.sampleRate
  tmb := Cold.tmb
  det := t.channel.map fun e => Cold.detector e.enable
  evu := Cold.evu
  wfs := Cold.wfs
  alu := Cold.alu
  lnk := Cold.lnk (addressInUse t.station.address straps)
  bmn := Cold.bmn
  lda := Cold.lda t.station.inrushLimit t.station.inrushWindow
  hzc := Cold.hzc
  cmd := ⟨source, none⟩
  cnt := Vector.replicate 40 0
  tables := t
  image := s.image
  pending := s.pending

/-- A cold start (R185): the tables from a good image of a memory that answers, and from the defaults otherwise; then
every block's values, and the START notice (R137). -/
def coldStart (straps : Byte) (memoryAnswers : Bool) (s : State) : State :=
  if memoryAnswers && imageGood s.image then
    queueNotice (.start .cold .image) 0 (coldBlocks straps .image (tablesOfImage s.image.bytes) s)
  else queueNotice (.start .cold .defaults) 0 (coldBlocks straps .defaults Defaults.tables s)

/-- The part without supply (R146): all state is lost but the configuration image as it stands. What is lost is set to
the blank values of a start, which nothing reads before the next cold start (log entry 15). -/
def powerDown (supply : Supply) (disconnect : Bool) (s : State) : State :=
  let blank := coldBlocks s.straps .defaults Defaults.tables s
  { blank with supply := supply, bmn := { blank.bmn with disconnect := disconnect } }

/-- The change to CUTOFF (R146, R162): the disconnect output is asserted and the part powers down, with no blanking, no
notice and no alert. -/
def cutOff (s : State) : State :=
  let s := powerDown .cut true s
  { s with bmn := { s.bmn with shed := .cutoff } }

/-- A warm restart (R182; R12, R40, R62, R80, R98, R117, R138, R152, R171): the tables, the counters, BMN and HZC are
kept. `straps` is what the strap pins read now (R134). The blocks restart in one fixed order, LNK near the end: what the other
blocks' restarts count and queue comes before LNK empties the notice queue, and those notices go with it (log entry 44). -/
def warmRestart (straps : Byte) (s : State) : State :=
  let s := sifRestart (wfsRestart (evuRestart s))
  let s := tmbRestart (ldaRestart (detReset s))
  let s := { s with cmd := { s.cmd with save := none } }
  aluRestart (lnkRestart straps s)

end Sys2Proof.Machine
end

