-- ==== Sys2Proof/Machine/Battery.lean ====
section
/-!
DEFINITION. The Battery Monitor (chapter 8): the scan in R139's order, charge counting, the SoC level, the voltage
override, the shed level and its change, the charge gate.
-/

namespace Sys2Proof.Machine

open Config (second)

/-- A change of BMN's own state. -/
def State.withBmn (s : State) (f : Bmn → Bmn) : State := { s with bmn := f s.bmn }

/-! ### Stage 1: the readings (R139, R140) -/

/-- The ranges of the six inputs: V in mV, I in mA, a temperature in tenths of a degree (R139). -/
def vGood (v : Int) : Bool := decide (0 ≤ v ∧ v ≤ 32767)
def iGood (v : Int) : Bool := decide (-32768 ≤ v ∧ v ≤ 32767)
def tGood (v : Int) : Bool := decide (-550 ≤ v ∧ v ≤ 1250)

/-- A good reading of an input, if it is one. -/
def goodOnly (good : Int → Bool) (x : Option Int) : Option Int := x.filter good

/-- An input after a scan (R140): a good reading is the value in use; bad scans count to 61, where the input becomes
faulty; one that has had no good reading since cold start is faulty from its first bad scan. -/
def Reading.take (r : Reading) (x : Option Int) : Reading :=
  match x with
  | some v => ⟨some v, 0, false⟩
  | none =>
    let bad := min 61 (r.bad + 1)
    if bad = 61 ∨ r.value = none then ⟨none, bad, true⟩ else { r with bad := bad }

/-- Stage 1 of a scan. -/
def takeReadings (x : MonitorInputs) (b : Bmn) : Bmn :=
  { b with
    v := b.v.take (goodOnly vGood x.v)
    i := b.i.take (goodOnly iGood x.i)
    temps := Four.ofFn fun t => (b.temps.get t).take (goodOnly tGood (x.temps.get t)) }

/-! ### Stage 2: charge (R141 to R143) -/

/-- The upper end of Q (R141). -/
def fullCharge (t : BatteryTable) : Nat := t.capacity * 1000

/-- The net charge of one scan, in mA·s (R141). -/
def netCharge (efficiency : Nat) (i : Int) : Int := if i < 0 then i else i * efficiency / 100

/-- Q and R after a net charge (R141): the carries bring R to 0…3,599, then Q is clamped, and R is 0 when the clamp
changes Q. -/
def countCharge (full q r : Nat) (net : Int) : Nat × Nat :=
  let total : Int := r + net
  let q' : Int := q + total / 3600
  if q' < 0 then (0, 0)
  else if (full : Int) < q' then (full, 0)
  else (q'.toNat, (total % 3600).toNat)

/-- The estimate from the rest-voltage table, in permille (R143). -/
def restEstimate (t : BatteryTable) (v : Int) : Nat :=
  let between (base : Nat) (lo hi : Nat) : Nat := base + (250 * (v - lo) / ((hi : Int) - lo)).toNat
  if v ≤ t.rest0 then 0
  else if (t.rest1000 : Int) ≤ v then 1000
  else if v < t.rest250 then between 0 t.rest0 t.rest250
  else if v < t.rest500 then between 250 t.rest250 t.rest500
  else if v < t.rest750 then between 500 t.rest500 t.rest750
  else between 750 t.rest750 t.rest1000

/-- The estimate while it is pending and V is good, and otherwise the count of the scan (R141, R143). -/
def chargeStage (t : BatteryTable) (x : MonitorInputs) (b : Bmn) : Bmn :=
  if b.estPending then
    match goodOnly vGood x.v with
    | none => b
    | some v => { b with q := fullCharge t * restEstimate t v / 1000, r := 0, estPending := false }
  else
    match b.i.value with
    | none => b
    | some i =>
      let c := countCharge (fullCharge t) b.q b.r (netCharge t.efficiency i)
      { b with q := c.1, r := c.2 }

/-- The full condition of a scan (R142); the gate is still as the previous scan left it. -/
def fullCondition (t : BatteryTable) (x : MonitorInputs) (b : Bmn) : Bool :=
  match goodOnly vGood x.v, goodOnly iGood x.i with
  | some v, some i => decide ((t.fullVoltage : Int) ≤ v ∧ 0 ≤ i ∧ i < t.taper) && b.gate == some .opened
  | _, _ => false

/-- The full condition judged, with the recalibration at its 60th scan (R142). -/
def recalStage (t : BatteryTable) (x : MonitorInputs) (b : Bmn) : Bmn :=
  if fullCondition t x b then
    if 60 ≤ b.recal + 1 then { b with q := fullCharge t, r := 0, estPending := false, recal := 0 }
    else { b with recal := b.recal + 1 }
  else { b with recal := 0 }

/-- The SoC in permille of a charge (R141). -/
def socOf (t : BatteryTable) (q : Nat) : Nat := q * 1000 / fullCharge t

/-- The SoC of a scan, from Q as the scan leaves it (R141); between scans it stands, a write of the capacity included
(R150). -/
def socStage (t : BatteryTable) (b : Bmn) : Bmn := { b with soc := socOf t b.q }

/-! ### Stage 3: the charge gate (R148, R149) -/

/-- The gate after a scan, from T2 in use; before the first scan there is no previous gate, and the OPEN rows judge
(R148). -/
def gateNext (lo hi : Int) (gate : Option Gate) (t2 : Option Int) : Gate :=
  let margin : Int :=
    match gate with
    | some (.closed _) => 10
    | some .opened | none => 0
  match t2 with
  | none => .closed .fault
  | some t => if t < lo + margin then .closed .low else if hi - margin < t then .closed .high else .opened

/-- Stage 3 with the A7 report that a change of the gate makes, and the first scan's report (R149). A clearing, for which the
rule lists no cause, carries none (log entry 34). -/
def gateStage (s : State) : State :=
  let t2 := (s.bmn.temps.get 2).value
  let before := s.bmn.gate
  let g := gateNext s.tables.battery.chargeMin s.tables.battery.chargeMax before t2
  let s := s.withBmn fun b => { b with gate := some g }
  if before = some g then s
  else
    match g with
    | .opened => reportCondition 7 false (.charge t2 none) s
    | .closed cause => reportCondition 7 true (.charge t2 (some cause)) s

/-! ### Stage 4: the voltage override and the cut count (R145, R146) -/

/-- The voltage override after a scan (R145). -/
def overrideStage (t : BatteryTable) (x : MonitorInputs) (b : Bmn) : Bmn :=
  let below := match b.v.value with | some v => decide (v < t.vSurv) | none => false
  let recovered := match goodOnly vGood x.v with | some v => decide ((t.vSurv : Int) + 500 ≤ v) | none => false
  if b.override then
    if recovered then
      if 60 ≤ b.recovery + 1 then { b with override := false, recovery := 0, low := 0 }
      else { b with recovery := b.recovery + 1 }
    else { b with recovery := 0 }
  else if b.v.faulty then { b with override := true, recovery := 0, low := 0 }
  else if below then
    if 10 ≤ b.low + 1 then { b with override := true, recovery := 0, low := 0 } else { b with low := b.low + 1 }
  else { b with low := 0 }

/-- The cut count after a scan (R146). -/
def cutStage (t : BatteryTable) (b : Bmn) : Bmn :=
  let below := match b.v.value with | some v => decide (v < t.vCut) | none => false
  { b with cut := if below then min 5 (b.cut + 1) else 0 }

/-! ### Stage 5: the SoC level and the shed level (R144, R147) -/

/-- The threshold a level is entered below (R144). -/
def levelThreshold (t : BatteryTable) : ShedLevel → Nat
  | .conserve => t.s1 | .essential => t.s2 | .survival => t.s3
  | .full | .cutoff => 0

/-- The highest level whose threshold the SoC is below (R144). -/
def socTarget (t : BatteryTable) (soc : Nat) : ShedLevel :=
  if soc < t.s3 then .survival else if soc < t.s2 then .essential else if soc < t.s1 then .conserve else .full

/-- The next lower level. -/
def ShedLevel.lower : ShedLevel → ShedLevel
  | .full => .full | .conserve => .full | .essential => .conserve | .survival => .essential | .cutoff => .survival

/-- The fall one level at a time (R144); three levels lie above FULL. -/
def fallLevel (t : BatteryTable) (soc : Nat) : (most : Nat) → ShedLevel → ShedLevel
  | 0, l => l
  | n + 1, l =>
    if l = .full then l
    else if levelThreshold t l + t.hysteresis ≤ soc then fallLevel t soc n l.lower
    else l

/-- The SoC level after a scan (R144). -/
def socLevelNext (t : BatteryTable) (soc : Nat) (l : ShedLevel) : ShedLevel :=
  let target := socTarget t soc
  if l.rank < target.rank then target else fallLevel t soc 3 l

/-- The shed level that a SoC level and an override form (R147). -/
def formLevel (socLevel : ShedLevel) (override : Bool) : ShedLevel :=
  if override ∧ socLevel.rank < ShedLevel.survival.rank then .survival else socLevel

/-- The A4 report of a level (R147). -/
def reportA4 (s : State) : State :=
  let l := s.bmn.shed
  reportCondition 4 (l == .essential || l == .survival)
    (.battery l s.bmn.soc s.bmn.v.value) s

/-- The new level handed to each block that reads it (R147; the order is log entry 24's): LNK, TMB, HZC, ALU and WFS;
LDA's switch-offs are taken with the permissions of the step's end (R161). -/
def handLevel (wasFull : Bool) (s : State) : State :=
  let s := judgeListening (lnkShed wasFull s)
  let s := aluShed (judgeZones (judgeWay s))
  if s.atLevel .survival then cancelJob .shed s else s

/-- The change of the shed level (R147); `voltage` says that the override changed at this scan. -/
def changeLevel (new : ShedLevel) (voltage : Bool) (s : State) : State :=
  let previous := s.bmn.shed
  let wasFull := s.atLevel .full
  let first := !s.bmn.formed
  let s := s.withBmn fun b => { b with shed := new, formed := true }
  let s :=
    if first then s
    else
      queueNotice (.shed previous new s.bmn.soc s.bmn.v.value voltage) 0 s
  reportA4 (handLevel wasFull s)

/-- Stage 5: the SoC level, and the shed level formed from it (R144, R147). -/
def levelStage (overrideBefore : Bool) (s : State) : State :=
  let t := s.tables.battery
  let s := s.withBmn fun b => { b with socLevel := socLevelNext t b.soc b.socLevel }
  let new := formLevel s.bmn.socLevel s.bmn.override
  if s.bmn.formed = true ∧ s.bmn.shed = new then s else changeLevel new (s.bmn.override != overrideBefore) s

/-! ### The scan -/

/-- The temperatures handed to Heater Control at the end of a scan (R139). -/
def handTemps (s : State) : State := judgeAndRemember (s.bmn.temps.map (·.value)) s

/-- A scan up to R146's test, with the voltage override and the cut count judged (R139, stages 1 to 4). -/
def scanToCut (x : MonitorInputs) (s : State) : State :=
  let t := s.tables.battery
  let s := s.withBmn fun b => socStage t (recalStage t x (chargeStage t x (takeReadings x b)))
  (gateStage s).withBmn fun b => cutStage t (overrideStage t x b)

/-- One scan (R139), in its five stages and with the hand-over of the temperatures; at CUTOFF the part powers down and
nothing more of the scan is done (R146). -/
def scan (x : MonitorInputs) (s : State) : State :=
  let u := scanToCut x s
  if 5 ≤ u.bmn.cut then cutOff u else handTemps (levelStage s.bmn.override u)

/-- Time runs to the next scan; the one after it is 1,000 ms later (R139). -/
def dueScan (s : State) : State :=
  (runToOsc s.bmn.nextScan s).withBmn fun b => { b with nextScan := b.nextScan + second }

/-- Time runs to the next scan, and the scan is taken (R139). -/
def runScan (x : MonitorInputs) (s : State) : State := scan x (dueScan s)

/-- What a stored write of the BATTERY entry does to Q (R150): a new capacity below Q clamps it at the write. The SoC waits for
the next scan. -/
def batteryWrite (s : State) : State :=
  let full := fullCharge s.tables.battery
  if full < s.bmn.q then s.withBmn fun b => { b with q := full, r := 0 } else s

end Sys2Proof.Machine
end

