-- ==== Sys2Proof/Machine/Settle.lean ====
section
/-!
DEFINITION. The work that follows every step "at once" (R34, R128, R130, R154, R155, R161, R165): requests,
permissions, the arbiter and the linger are brought to rest after the step's own effect (log entry 7).
-/

namespace Sys2Proof.Machine

/-- Two judgements of the arbiter make at most this many grants: one for each load. -/
abbrev mostGrants : Nat := 8

/-- LNK's request and then the arbiter, which judges whenever a request has been placed (R128, R155). -/
def judgeRequests (s : State) : State := arbitrate mostGrants (radioWork s)

/-- What a step brings about in the requesters and the arbiter. The second judgement is for what the first one's counts
may have queued (R187). -/
def settleOn (s : State) : State :=
  let s := enforcePermission (refreshRequests s)
  let s := refreshRequests (heatersWork (gnssWork s))
  let s := endColdWait (endSuspension s)
  lingerWork (judgeRequests (judgeRequests s))

/-- The same for a part that has supply; without it nothing works. -/
def settle (s : State) : State := if s.supply = .on then settleOn s else s

end Sys2Proof.Machine
end

