-- ==== Sys2Proof/Machine/Command.lean ====
section
/-!
DEFINITION. The Command Processor (chapter 10): taking a command, each command of the catalogue, what a stored write
does in the owning blocks, the save job, and the counters' commands (chapter 11).
-/

namespace Sys2Proof.Machine

/-- What a command ends with (R173), and the state it leaves. -/
structure Done where
  state : State
  status : ReplyStatus
  data : ReplyData

/-- A refusal (R173): the command changed nothing. -/
def refuse (r : Reason) (s : State) : Done := ⟨s, .refused r, .none⟩

/-- A refusal with HELD gives the owner (R173). -/
def refuseHeld (owner : Nat) (s : State) : Done := ⟨s, .refused .held, .owner owner⟩

/-- DONE, or CLAMPED when a value was replaced. -/
def doneOrClamped (clamped : Bool) : ReplyStatus := if clamped then .clamped else .done

/-! ### Events and holds (R89 to R92, R96, R181) -/

/-- EVENT_LIST (R181). -/
def cmdEventList (s : State) : Done := ⟨s, .done, .events (s.evu.table.map fun r => (r.number, r.state, r.wave.state))⟩

/-- EVENT_READ (R181). -/
def cmdEventRead (n : Nat) (s : State) : Done :=
  match findRecord s n with
  | none => refuse .noEvent s
  | some r => ⟨s, .done, .record r (holdOf s n)⟩

/-- A hold is granted (R89): appended to the list; a job on the event for another centre is cancelled. -/
def grantHold (n centre seconds : Nat) (s : State) : State :=
  let s := s.withWfs fun w => { w with holds := w.holds ++ [⟨n, centre, seconds⟩] }
  match s.wfs.job with
  | none => s
  | some j => if j.event = n ∧ j.centre ≠ centre then cancelJob .held s else s

/-- HOLD (R89), in the order of its table. -/
def cmdHold (n minutes centre : Nat) (s : State) : Done :=
  let m := clampN 1 240 minutes
  let status := doneOrClamped (m != minutes)
  match findRecord s n with
  | none => refuse .noEvent s
  | some r =>
    match holdOf s n with
    | some h =>
      if h.owner ≠ centre then refuseHeld h.owner s
      else
        let seconds := max h.seconds (m * 60)
        let s := s.withWfs fun w =>
          { w with holds := w.holds.map fun x => if x.event = n then { x with seconds := seconds } else x }
        ⟨s, status, .hold centre seconds r.wave.state⟩
    | none =>
      if r.wave.state = .lost then refuse .noWave s
      else if Config.holdLimit ≤ s.wfs.holds.length then refuse .noRoom s
      else ⟨grantHold n centre (m * 60) s, status, .hold centre (m * 60) r.wave.state⟩

/-- RELEASE (R90). -/
def cmdRelease (n centre : Nat) (s : State) : Done :=
  match findRecord s n, holdOf s n with
  | some _, some h =>
    if h.owner ≠ centre then refuseHeld h.owner s
    else
      let s := s.withWfs fun w => { w with holds := w.holds.filter (·.event != n) }
      ⟨cancelJobOn n .release s, .done, .none⟩
  | _, _ => refuse .noEvent s

/-- The job that a WAVE_REQUEST starts (R92), with its first WAVE frame formed (R93). -/
def startJob (n offset frames centre : Nat) (tag : Byte) (s : State) : State :=
  let ready := formWave s n centre tag offset 0 frames
  s.withWfs fun w => { w with job := some ⟨n, centre, tag, offset, 0, frames, 0, ready⟩ }

/-- WAVE_REQUEST (R92), in the order of its table. -/
def cmdWaveRequest (n offset count centre : Nat) (tag : Byte) (s : State) : Done :=
  if s.wfs.job.isSome then refuse .busy s
  else if s.atLevel .survival then refuse .shed s
  else
    match findRecord s n with
    | none => refuse .noEvent s
    | some r =>
      if r.state ≠ .closed then refuse .notClosed s
      else if r.wave.state = .lost then refuse .noWave s
      else
        let kept := keptOf s n
        let ask : Unit → Done := fun _ =>
          if kept.length ≤ offset then refuse .badIndex s
          else
            let rest := kept.drop offset
            let taken := if count = 0 then rest else rest.take count
            let frames := (taken.map (·.2.count)).sum
            ⟨startJob n offset frames centre tag s, .done, .wave taken.length frames⟩
        match holdOf s n with
        | some h => if h.owner ≠ centre then refuseHeld h.owner s else ask ()
        | none => ask ()

/-- WAVE_CANCEL (R96). -/
def cmdWaveCancel (centre : Nat) (s : State) : Done :=
  match s.wfs.job with
  | none => refuse .noEvent s
  | some j => if j.centre ≠ centre then refuseHeld j.centre s else ⟨cancelJob .cancel s, .done, .none⟩

/-! ### Alerts (R110, R111) -/

/-- ALERT_ACK (R110). -/
def cmdAlertAck (id centre : Nat) (s : State) : Done :=
  match s.alu.queue.find? (·.id == id) with
  | none => refuse .noAlert s
  | some x =>
    if !x.pending.contains centre then ⟨s, .done, .alertLeft id x.pending true⟩
    else
      let left := x.pending.filter (· != centre)
      if left.isEmpty then
        let s := s.withAlu fun a => { a with queue := a.queue.filter (·.id != id) }
        ⟨startRecheck x.cls (count 19 s), .done, .alertLeft id [] false⟩
      else
        let s := s.withAlu fun a =>
          { a with queue := a.queue.map fun y => if y.id = id then { y with pending := left } else y }
        ⟨s, .done, .alertLeft id left false⟩

/-- ALERT_LIST (R111). -/
def cmdAlertList (s : State) : Done :=
  ⟨s, .done,
    .alerts (s.alu.queue.map fun x =>
      ⟨x.id, x.cls, x.priority, x.state, x.occurrences, x.sends, x.wait, x.cleared, x.pending⟩)⟩

/-! ### Time and loads (R20, R168) -/

/-- TIME_SET (R20). -/
def cmdTimeSet (label fraction : Nat) (s : State) : Done :=
  if timeSettable s then
    let f := min 9999999 fraction
    ⟨setTime label f s, doneOrClamped (f != fraction), .time ⟨label, f⟩⟩
  else refuse .timeHeld s

/-- LOAD_TEST (R168). -/
def cmdLoadTest (load seconds : Nat) (s : State) : Done :=
  if h : 2 ≤ load ∧ load < 8 then
    let l : Fin 8 := ⟨load, h.2⟩
    if (s.lda.loads.get l).state ≠ .off then refuse .busy s
    else
      let n := clampN 1 60 seconds
      let s := refreshRequests (placeRequest l ⟨.test n, 0, false⟩ s)
      ⟨s, doneOrClamped (n != seconds), .load (s.lda.loads.get l).state n⟩
  else refuse .badIndex s

/-! ### STATUS (R180) -/

/-- A STATION sample rate is pending (R179). -/
def ratePending (s : State) : Bool := s.tables.station.sampleRate != s.sif.rate

/-- The report of STATUS. -/
def statusReport (s : State) : StatusReport where
  time := s.stampNow
  err := s.tmb.err
  satellites := s.tmb.satellites
  address := s.lnk.address
  rate := s.sif.rate
  ratePending := ratePending s
  source := s.cmd.source
  shed := s.bmn.shed
  soc := s.bmn.soc
  v := s.bmn.v.value
  i := s.bmn.i.value
  temps := s.bmn.temps.map (·.value)
  gate := s.bmn.gate
  phase := s.evu.phase
  lastNumber := s.evu.lastNumber
  alerts := s.alu.queue.length
  replies := s.lnk.replies.length
  notices := s.lnk.notices.length
  data := s.lnk.dataQueue.length
  radio := match s.lnk.radio with | .off => 0 | .requested => 1 | .warming => 2 | .ready => 3
  loads := s.lda.loads.map (·.state)
  holds := s.wfs.holds
  job := s.wfs.job.map fun j => (j.event, j.centre, j.sent, j.left, priorityOne s)
  saving := s.cmd.save.isSome

/-- STATUS (R180). -/
def cmdStatus (s : State) : Done := ⟨s, .done, .status (statusReport s)⟩

/-! ### Counters (R189, R190) -/

/-- The counters named by a read or clear lie within K0…K39. -/
def countersNamed (first n : Nat) : Bool := decide (1 ≤ n ∧ first + n ≤ 40)

/-- COUNTER_READ (R189). -/
def cmdCounterRead (first n : Nat) (s : State) : Done :=
  if countersNamed first n then
    let values := ((s.cnt.toList.drop first).take n).map fun v => toBytes 4 v.toNat
    ⟨s, .done, .bytes (toBytes 1 first ++ toBytes 1 n ++ values.flatten)⟩
  else refuse .badIndex s

/-- The counters with those from `first` on, `n` of them, at 0. -/
def clearCounters (first n : Nat) (cnt : Vector (BitVec 32) 40) : Vector (BitVec 32) 40 :=
  Vector.ofFn fun k : Fin 40 => if first ≤ k.val ∧ k.val < first + n then 0 else cnt[k]

/-- COUNTER_CLEAR (R190). -/
def cmdCounterClear (first n : Nat) (s : State) : Done :=
  if countersNamed first n then
    ⟨{ s with cnt := clearCounters first n s.cnt }, .done, .bytes (toBytes 1 first ++ toBytes 1 n)⟩
  else refuse .badIndex s

/-! ### Tables (R175 to R179) -/

/-- Does something for each index of a written run. -/
def eachIndex (f : Nat → State → State) (first : Nat) : (count : Nat) → State → State
  | 0, s => s
  | n + 1, s => eachIndex f (first + 1) n (f first s)

/-- What stored entries do in their owning blocks at the write (R177): R8, R28 to R30 and EVENT's fields act where they
are next read, and the sample rate waits (R179). Several ALERT or CHANNEL entries of one write act in index order (log entry
45). `old` holds the tables before the write. -/
def actWrite (id : TableId) (first n : Nat) (old : Tables) (s : State) : State :=
  match id with
  | .station => judgeAddress (closeFull (inrushWrite old.station s))
  | .channel =>
    streamWrite old.channel
      (eachIndex (fun i => let c := indexIn 6 i (by decide); detWrite c (old.channel.get c)) first n s)
  | .time => judgeWay s
  | .alert => eachIndex (fun i => let c := indexIn 8 i (by decide); aluWrite c (old.alert.get c)) first n s
  | .load => if 2 < first + n then judgeZones s else s
  | .zone => judgeZones s
  | .battery => judgeZones (batteryWrite s)
  | .event | .correction | .countermask => s

/-- The addressing of a table command (R175): the table, when its number and entries exist. -/
def addressTable (table first n : Nat) : Except Reason TableId :=
  match tableOf table with
  | none => .error .badTable
  | some id => if n = 0 ∨ id.entries < first + n then .error .badIndex else .ok id

/-- The addressing bytes that open the data of a table reply. -/
def tableHead (table first n : Nat) : List Byte := toBytes 1 table ++ toBytes 1 first ++ toBytes 1 n

/-- TABLE_WRITE (R175 to R177): judged whole, then stored whole. -/
def cmdTableWrite (table first n : Nat) (entries : List Byte) (s : State) : Done :=
  match addressTable table first n with
  | .error r => refuse r s
  | .ok id =>
    if entries.length ≠ n * id.entrySize then refuse .badLength s
    else
      match judgeEntries id s.now.label first n entries with
      | .error (r, i) => ⟨s, .refused r, .index i⟩
      | .ok (es, clamped) =>
        let t := storeEntries first es s.tables
        ⟨actWrite id first n s.tables { s with tables := t }, doneOrClamped clamped,
          .bytes (tableHead table first n ++ readEntries t id first n)⟩

/-- TABLE_READ (R178). -/
def cmdTableRead (table first n : Nat) (s : State) : Done :=
  match addressTable table first n with
  | .error r => refuse r s
  | .ok id =>
    ⟨s, .done, .bytes (tableHead table first n ++ yesNo (ratePending s) ++ readEntries s.tables id first n)⟩

/-! ### The save job (R184) -/

/-- SAVE (R184): the snapshot is formed and the write begins, in place over the previous image. -/
def cmdSave (centre : Nat) (s : State) : Done :=
  if s.cmd.save.isSome then refuse .busy s
  else
    ⟨{ s with
        cmd := { s.cmd with save := some ⟨imageOf s.tables, centre, 0⟩ }
        image := { s.image with torn := true } }, .done, .none⟩

/-- The memory has taken the last byte and the image is read back (R184). -/
def saveComplete (readBack : List Byte) (s : State) : State :=
  match s.cmd.save with
  | none => s
  | some j =>
    let s := { s with cmd := { s.cmd with save := none } }
    if readBack = j.snapshot then
      queueNotice (.saveDone j.snapshot.length (beNat (j.snapshot.drop (j.snapshot.length - 2)))) j.centre
        { s with image := ⟨j.snapshot, false⟩ }
    else queueNotice (.saveFailed .mismatch) j.centre { s with image := ⟨readBack, true⟩ }

/-- The memory does not answer (R184): what it had taken of the snapshot lies over the previous image. -/
def saveNoAnswer (written : Nat) (s : State) : State :=
  match s.cmd.save with
  | none => s
  | some j =>
    let s := { s with cmd := { s.cmd with save := none } }
    queueNotice (.saveFailed .noAnswer) j.centre
      { s with image := ⟨j.snapshot.take written ++ s.image.bytes.drop written, true⟩ }

/-! ### Taking a command (R172, R134 to R136) -/

/-- A command by its own rule. RESTART's own effect comes after its count (R182). -/
def perform (c : Command) (centre : Nat) (tag : Byte) (s : State) : Done :=
  match c with
  | .emptyPayload => refuse .badLength s
  | .unknownKind _ => refuse .unknownKind s
  | .badLength _ => refuse .badLength s
  | .status => cmdStatus s
  | .tableWrite t f n es => cmdTableWrite t f n es s
  | .tableRead t f n => cmdTableRead t f n s
  | .counterRead f n => cmdCounterRead f n s
  | .counterClear f n => cmdCounterClear f n s
  | .timeSet l f => cmdTimeSet l f s
  | .alertAck i => cmdAlertAck i centre s
  | .alertList => cmdAlertList s
  | .eventList => cmdEventList s
  | .eventRead e => cmdEventRead e s
  | .hold e m => cmdHold e m centre s
  | .release e => cmdRelease e centre s
  | .waveRequest e o n => cmdWaveRequest e o n centre tag s
  | .waveCancel => cmdWaveCancel centre s
  | .loadTest l n => cmdLoadTest l n s
  | .save => cmdSave centre s
  | .restart => ⟨s, .done, .none⟩

/-- A status that counts in K22 or K23 (R172). -/
def countStatus (st : ReplyStatus) (s : State) : State :=
  match st with
  | .done | .clamped => count 22 s
  | .refused _ => count 23 s

/-- Fills the place reserved last (R126, R172). -/
def fillReply (r : Reply) (s : State) : State :=
  s.withLnk fun l =>
    { l with
      replies :=
        match l.replies.getLast? with
        | none => []
        | some p => l.replies.dropLast ++ [{ p with reply := some r }] }

/-- CMD executes a command; `place` says that a reply place has been reserved (R172, R182). `straps` is what the strap pins
read, for a restart (R134). -/
def execute (straps : Byte) (c : Command) (centre : Nat) (tag : Byte) (place : Bool) (s : State) : State :=
  let d := perform c centre tag s
  let s := countStatus d.status d.state
  if c = .restart then warmRestart straps s
  else if place then fillReply ⟨c.kind, d.status, d.data⟩ s
  else s

/-- A broadcast is taken for TABLE_WRITE, TIME_SET and RESTART alone (R135). -/
def broadcastKind (c : Command) : Bool := c.kind == 2 || c.kind == 6 || c.kind == 17

/-- A downstream frame whose check, kind and station address are good, with its command (R134 to R136, R126). -/
def takeCommand (straps centre tag : Byte) (broadcast : Bool) (c : Command) (s : State) : State :=
  if centre = 0 ∨ 15 < centre.toNat then count 25 s
  else if broadcast then if broadcastKind c then execute straps c centre.toNat tag false s else count 23 s
  else if Config.replyLimit ≤ s.lnk.replies.length then count 24 s
  else
    execute straps c centre.toNat tag true
      (s.withLnk fun l => { l with replies := l.replies ++ [⟨centre.toNat, tag, none⟩] })

end Sys2Proof.Machine
end

