-- ==== Sys2Proof/Machine/Receive.lean ====
section
/-!
DEFINITION. LNK's receiver (section 7.6, R132 to R136): hunting for the sync pair, taking a frame, and judging it. `straps` is
what the strap pins read while the bytes arrive, which a restart among them reads (R134).
-/

namespace Sys2Proof.Machine

/-- The first whole ns that is more than the 20 ms of R133. -/
abbrev receiveGap : Nat := 20 * Config.milli + 1

/-- The receiver's next state. -/
def setReceiver (r : Receiver) (s : State) : State := s.withLnk fun l => { l with receiver := r }

/-- A complete downstream frame is judged (R134): check, kind and station address here, the centre and the rest in
`takeCommand`. -/
def judgeFrame (straps : Byte) (bytes : List Byte) (s : State) : State :=
  let h := decodeHeader bytes
  if !checkGood bytes || h.kind != 8 then count 25 s
  else if h.station.toNat ≠ s.lnk.address ∧ h.station.toNat ≠ 65535 then s
  else
    settle
      (takeCommand straps h.centre h.tag (h.station.toNat == 65535) (decodeCommand (field 10 h.length.toNat bytes)) s)

/-- Where a frame stands after one more of its bytes. -/
inductive FrameEnd where
  | more
  | tooLong
  | complete
  deriving DecidableEq, Repr

/-- Where a frame stands whose bytes so far are these (R133): its header names at most 96 bytes of payload, and its two check
bytes end it. -/
def frameEnd (bytes : List Byte) : FrameEnd :=
  if bytes.length < 10 then .more
  else
    let n := (decodeHeader bytes).length.toNat
    if Config.downPayload < n then .tooLong else if bytes.length < 12 + n then .more else .complete

/-- A frame in reception has one more byte (R133). -/
def receiveInFrame (straps : Byte) (bytes : List Byte) (s : State) : State :=
  match frameEnd bytes with
  | .more => setReceiver (.receiving bytes) s
  | .tooLong => count 25 (setReceiver .hunting s)
  | .complete => judgeFrame straps bytes (setReceiver .hunting s)

/-- A frame that is lost has one more byte (R132): it ends where a frame in reception would, and counts nowhere. -/
def loseInFrame (bytes : List Byte) (s : State) : State :=
  match frameEnd bytes with
  | .more => setReceiver (.deaf bytes) s
  | .tooLong | .complete => setReceiver .hunting s

/-- A byte that may be a first sync byte: the frame it begins is received if LNK is listening, and lost if not (R132). -/
def hunt (b : Byte) (s : State) : State :=
  setReceiver (if b = 0x5A then if s.lnk.listening then .receiving [b] else .deaf [b] else .hunting) s

/-- One byte of the downstream line (R132, R133). A lone first sync byte is still HUNTING. -/
def receiveByte (straps : Byte) (b : Byte) (s : State) : State :=
  match s.lnk.receiver with
  | .hunting => hunt b s
  | .receiving [x] => if b = 0xC3 then setReceiver (.receiving [x, b]) s else hunt b s
  | .receiving bytes => receiveInFrame straps (bytes ++ [b]) s
  | .deaf [x] => if b = 0xC3 then setReceiver (.deaf [x, b]) s else hunt b s
  | .deaf bytes => loseInFrame (bytes ++ [b]) s

/-- A frame is in reception: a sync pair has been taken (R133). -/
def inReception (s : State) : Bool :=
  match s.lnk.receiver with
  | .receiving (_ :: _ :: _) => true
  | _ => false

/-- The line is between frames: no sync pair has been taken, or its frame has ended. -/
def betweenFrames (s : State) : Bool :=
  match s.lnk.receiver with
  | .receiving (_ :: _ :: _) | .deaf (_ :: _ :: _) => false
  | _ => true

/-- A frame whose bytes have stopped for more than 20 ms is at its end: one in reception is discarded and counts (R133), one
that is lost counts nowhere (R132). -/
def receiveTimeout (s : State) : State :=
  if s.lnk.rxLeft ≠ 0 ∨ betweenFrames s then s
  else if inReception s then count 25 (setReceiver .hunting s)
  else setReceiver .hunting s

/-- Bytes arrive on the downstream line, one after another without a gap (log entry 5). -/
def receiveBytes (straps : Byte) (bytes : List Byte) (s : State) : State :=
  let s := bytes.foldl (fun s b => receiveByte straps b s) (receiveTimeout s)
  if bytes.isEmpty then s else s.withLnk fun l => { l with rxLeft := receiveGap }

end Sys2Proof.Machine
end

