-- ==== Sys2Proof/Machine/Run.lean ====
section
/-!
DEFINITION. The forms a command's meaning takes: a step of a part that has supply, a step that is due at a moment of
oscillator time, and an occurrence inside a larger step (log entries 2, 3, 7, 15).
-/

namespace Sys2Proof.Machine

/-- The outcome of a step: always a next state (INVENTORY.md, Faults). -/
abbrev Result := Host.Outcome State Fault Refusal

/-- A step of the part: `f` and what it brings about at once. A part without supply takes no step. -/
def stepOf (f : State → State) (s : State) : Result := .next (if s.supply = .on then settle (f s) else s)

/-- A step that is taken only where it can fall due; elsewhere the command finds nothing to do. -/
def stepWhen (due : State → Bool) (f : State → State) (s : State) : Result :=
  .next (if s.supply = .on ∧ due s = true then settle (f s) else s)

/-- An occurrence inside a larger step: the larger step `f` is taken if the occurrence comes about in it, judged on the
states before and after `f`; elsewhere the command finds nothing to do. -/
def stepIf (happens : State → State → Bool) (f : State → State) (s : State) : Result :=
  .next (if s.supply = .on ∧ happens s (f s) = true then settle (f s) else s)

/-- A step that comes `after` ns of oscillator time. -/
def stepAfter (after : Nat) (f : State → State) (s : State) : Result := stepOf (fun s => f (passTime after s)) s

end Sys2Proof.Machine
end

