-- ==== Sys2Proof/Machine/BatteryRows.lean ====
section
/-!
DEFINITION. The battery commands: SCAN, and the occurrences inside a scan (R139; log entry 2).
-/

namespace Sys2Proof.Machine

/-- SCAN (R139 to R149). -/
def execScan (x : MonitorInputs) (s : State) : Result := stepOf (runScan x) s

/-- FULL_RECALIBRATION (R142): the 60th scan in turn that meets the full condition. -/
def execFullRecalibration (x : MonitorInputs) (s : State) : Result :=
  stepIf (fun s _ => decide (60 ≤ s.bmn.recal + 1) && fullCondition s.tables.battery x s.bmn) (runScan x) s

/-- The voltage override as the next scan judges it (R145), whether or not the same scan reaches CUTOFF. -/
def overrideAtScan (x : MonitorInputs) (s : State) : Bool := (scanToCut x (dueScan s)).bmn.override

/-- VOLTAGE_OVERRIDE (R145). -/
def execVoltageOverride (x : MonitorInputs) (s : State) : Result :=
  stepWhen (fun s => !s.bmn.override && overrideAtScan x s) (runScan x) s

/-- OVERRIDE_RELEASE (R145). -/
def execOverrideRelease (x : MonitorInputs) (s : State) : Result :=
  stepWhen (fun s => s.bmn.override && !overrideAtScan x s) (runScan x) s

/-- CUTOFF (R146, R162). -/
def execCutoff (x : MonitorInputs) (s : State) : Result := stepIf (fun _ t => t.supply == .cut) (runScan x) s

end Sys2Proof.Machine
end

