-- ==== Sys2Proof/Machine/Supply.lean ====
section
/-!
DEFINITION. Supply and restart: POWER_ON, SUPPLY_LOSS, RESTART (R146, R182, R185).
-/

namespace Sys2Proof.Machine

/-- POWER_ON (R185): supply is applied and the part takes a cold start. The scan that R151 takes at the cold start is
the SCAN command that follows (log entry 21). -/
def execPowerOn (straps : Byte) (memoryAnswers : Bool) (s : State) : Result :=
  .next (settle (coldStart straps memoryAnswers s))

/-- SUPPLY_LOSS (R185): all state but the configuration image as it then stands is lost. -/
def execSupplyLoss (s : State) : Result := .next (powerDown .off s.bmn.disconnect s)

/-- A centre's command whose frame has been accepted (R134 to R136; log entry 6), with what the strap pins read. -/
def fromCentreWith (straps : Byte) (src : Sender) (c : Command) (s : State) : Result :=
  stepAfter src.after (takeCommand straps src.centre src.tag src.broadcast c) s

/-- A centre's command that does not read the straps: every one but RESTART (R134). -/
def fromCentre (src : Sender) (c : Command) (s : State) : Result := fromCentreWith s.straps src c s

/-- RESTART (R182); the straps are read again (R138). -/
def execRestart (src : WithStraps Sender) (s : State) : Result := fromCentreWith src.straps src.given .restart s

end Sys2Proof.Machine
end

