-- ==== Sys2Proof/Machine/CommandRows.lean ====
section
/-!
DEFINITION. The centre's commands (chapter 10 and the owning chapters), and the two ends of a save (R184).
-/

namespace Sys2Proof.Machine

/-- STATUS (R180). -/
def execStatus (src : Sender) (s : State) : Result := fromCentre src .status s

/-- TABLE_WRITE of the STATION entry (R177, R179). -/
def execTableWriteStation (src : Sender) (first count : Byte) (entries : List Byte) (s : State) : Result :=
  fromCentre src (.tableWrite 1 first.toNat count.toNat entries) s

/-- TABLE_WRITE of CHANNEL entries (R58 to R60). -/
def execTableWriteChannel (src : Sender) (first count : Byte) (entries : List Byte) (s : State) : Result :=
  fromCentre src (.tableWrite 2 first.toNat count.toNat entries) s

/-- TABLE_WRITE of the EVENT entry (R78). -/
def execTableWriteEvent (src : Sender) (first count : Byte) (entries : List Byte) (s : State) : Result :=
  fromCentre src (.tableWrite 3 first.toNat count.toNat entries) s

/-- TABLE_WRITE of the TIME entry (R38). -/
def execTableWriteTime (src : Sender) (first count : Byte) (entries : List Byte) (s : State) : Result :=
  fromCentre src (.tableWrite 4 first.toNat count.toNat entries) s

/-- TABLE_WRITE of CORRECTION entries (R28). -/
def execTableWriteCorrection (src : Sender) (first count : Byte) (entries : List Byte) (s : State) : Result :=
  fromCentre src (.tableWrite 5 first.toNat count.toNat entries) s

/-- TABLE_WRITE of ALERT entries (R113 to R115). -/
def execTableWriteAlert (src : Sender) (first count : Byte) (entries : List Byte) (s : State) : Result :=
  fromCentre src (.tableWrite 6 first.toNat count.toNat entries) s

/-- TABLE_WRITE of LOAD entries (R169). -/
def execTableWriteLoad (src : Sender) (first count : Byte) (entries : List Byte) (s : State) : Result :=
  fromCentre src (.tableWrite 7 first.toNat count.toNat entries) s

/-- TABLE_WRITE of ZONE entries (R167). -/
def execTableWriteZone (src : Sender) (first count : Byte) (entries : List Byte) (s : State) : Result :=
  fromCentre src (.tableWrite 8 first.toNat count.toNat entries) s

/-- TABLE_WRITE of the BATTERY entry (R150). -/
def execTableWriteBattery (src : Sender) (first count : Byte) (entries : List Byte) (s : State) : Result :=
  fromCentre src (.tableWrite 9 first.toNat count.toNat entries) s

/-- TABLE_WRITE of the COUNTERMASK entry (R188). -/
def execTableWriteCountermask (src : Sender) (first count : Byte) (entries : List Byte) (s : State) : Result :=
  fromCentre src (.tableWrite 10 first.toNat count.toNat entries) s

/-- TABLE_READ (R178). -/
def execTableRead (src : Sender) (table first count : Byte) (s : State) : Result :=
  fromCentre src (.tableRead table.toNat first.toNat count.toNat) s

/-- COUNTER_READ (R189). -/
def execCounterRead (src : Sender) (first count : Byte) (s : State) : Result :=
  fromCentre src (.counterRead first.toNat count.toNat) s

/-- COUNTER_CLEAR (R190). -/
def execCounterClear (src : Sender) (first count : Byte) (s : State) : Result :=
  fromCentre src (.counterClear first.toNat count.toNat) s

/-- TIME_SET (R20). -/
def execTimeSet (src : Sender) (label : BitVec 40) (fraction : BitVec 24) (s : State) : Result :=
  fromCentre src (.timeSet label.toNat fraction.toNat) s

/-- ALERT_ACK (R110). -/
def execAlertAck (src : Sender) (id : Byte) (s : State) : Result := fromCentre src (.alertAck id.toNat) s

/-- ALERT_LIST (R111). -/
def execAlertList (src : Sender) (s : State) : Result := fromCentre src .alertList s

/-- EVENT_LIST (R181). -/
def execEventList (src : Sender) (s : State) : Result := fromCentre src .eventList s

/-- EVENT_READ (R181). -/
def execEventRead (src : Sender) (event : BitVec 16) (s : State) : Result := fromCentre src (.eventRead event.toNat) s

/-- HOLD (R89). -/
def execHold (src : Sender) (event : BitVec 16) (minutes : Byte) (s : State) : Result :=
  fromCentre src (.hold event.toNat minutes.toNat) s

/-- RELEASE (R90). -/
def execRelease (src : Sender) (event : BitVec 16) (s : State) : Result := fromCentre src (.release event.toNat) s

/-- WAVE_REQUEST (R92). -/
def execWaveRequest (src : Sender) (event : BitVec 16) (offset count : Byte) (s : State) : Result :=
  fromCentre src (.waveRequest event.toNat offset.toNat count.toNat) s

/-- WAVE_CANCEL (R96). -/
def execWaveCancel (src : Sender) (s : State) : Result := fromCentre src .waveCancel s

/-- LOAD_TEST (R168). -/
def execLoadTest (src : Sender) (load seconds : Byte) (s : State) : Result :=
  fromCentre src (.loadTest load.toNat seconds.toNat) s

/-- SAVE (R184). -/
def execSave (src : Sender) (s : State) : Result := fromCentre src .save s

/-- SAVE_COMPLETE (R184). -/
def execSaveComplete (after : Nat) (readBack : List Byte) (s : State) : Result := stepAfter after (saveComplete readBack) s

/-- SAVE_NO_ANSWER (R184). -/
def execSaveNoAnswer (after written : Nat) (s : State) : Result := stepAfter after (saveNoAnswer written) s

end Sys2Proof.Machine
end

