-- ==== Sys2Proof/Machine/LinkRows.lean ====
section
/-!
DEFINITION. The link commands: the transmitter, the radio's timers, and the downstream line (R119, R129, R130, R133,
R134).
-/

namespace Sys2Proof.Machine

/-- FRAME_BEGIN (R119). -/
def execFrameBegin (s : State) : Result := stepWhen mayBegin beginFrame s

/-- TRANSMISSION_COMPLETE (R119): the line time left passes, and the transmitter is FREE. -/
def execTransmissionComplete (s : State) : Result :=
  stepWhen (fun s => s.lnk.tx.isSome)
    (fun s => completeTransmission (passTime ((s.lnk.tx.map (·.left)).getD 0) s)) s

/-- The radio becomes READY (R129). -/
def radioReady (s : State) : State :=
  judgeListening (s.withLnk fun l => { l with radio := .ready, warmLeft := none })

/-- WARM_UP_EXPIRY (R129). -/
def execWarmUpExpiry (s : State) : Result :=
  stepWhen (fun s => s.lnk.radio == .warming) (fun s => radioReady (passTime (s.lnk.warmLeft.getD 0) s)) s

/-- LINGER_EXPIRY (R130): L0 is released. -/
def execLingerExpiry (s : State) : Result :=
  stepWhen (fun s => s.lnk.lingerLeft.isSome) (fun s => switchOff 0 (passTime (s.lnk.lingerLeft.getD 0) s)) s

/-- DOWNSTREAM_FRAME (R132 to R136). -/
def execDownstreamFrame (after : WithStraps Nat) (bytes : List Byte) (s : State) : Result :=
  stepAfter after.given (receiveBytes after.straps bytes) s

/-- RECEIVE_TIMEOUT (R133). -/
def execReceiveTimeout (s : State) : Result :=
  stepWhen inReception (fun s => receiveTimeout (passTime s.lnk.rxLeft s)) s

/-- PAYLOAD_LENGTH_ABOVE_96 (R133): the header of a frame arrives that names more than 96 bytes; inside another frame its
bytes would be no header. -/
def execPayloadLengthAbove96 (after : Nat) (header : LinkHeader) (s : State) : Result :=
  stepWhen
    (fun s => decide (Config.downPayload < header.length.toNat) && betweenFrames (receiveTimeout (passTime after s)))
    (fun s => receiveBytes s.straps (encodeHeader header) (passTime after s)) s

end Sys2Proof.Machine
end

