-- ==== Sys2Proof/Machine/LoadRows.lean ====
section
/-!
DEFINITION. The load commands: the ends of the oscillator-timed waits, bursts and rests of the Load Arbiter (R153, R155,
R158, R159, R170).
-/

namespace Sys2Proof.Machine

open Config (second)

/-- The moments of a list that are still to come. -/
def momentsAhead (s : State) (l : List Nat) : List Nat := l.filter (s.osc < ·)

/-- The earliest of some moments; 0 of none. -/
def earliest (l : List Nat) : Nat := l.foldl (fun m t => if m = 0 ∨ t < m then t else m) 0

/-- When the short spacing and the groups' long spacings run out (R155, conditions 3 and 4). -/
def spacingMoments (s : State) : List Nat :=
  let c := s.tables.station
  momentsAhead s
    ((s.lda.lastAct.toList.map (· + c.shortSpacing * second)) ++
      (s.lda.lastGroup.toList.filterMap id).map (· + c.longSpacing * second))

/-- SPACING_EXPIRY (R155): the arbiter judges again when a spacing runs out. -/
def execSpacingExpiry (s : State) : Result :=
  stepWhen (fun s => !(spacingMoments s).isEmpty) (fun s => runToOsc (earliest (spacingMoments s)) s) s

/-- When the activations of the inrush record reach the age of the window in force (R155, condition 5). -/
def inrushMoments (s : State) : List Nat := momentsAhead s (s.lda.record.map (· + s.lda.window * second))

/-- INRUSH_AGE_EXPIRY (R155). -/
def execInrushAgeExpiry (s : State) : Result :=
  stepWhen (fun s => !(inrushMoments s).isEmpty) (fun s => runToOsc (earliest (inrushMoments s)) s) s

/-- The moment at which no activation is younger than a window. -/
def clearMoment (s : State) (window : Nat) : Nat := (s.lda.record.map (· + window * second)).foldl max 0

/-- INRUSH_SUSPENSION_END (R159). -/
def execInrushSuspensionEnd (s : State) : Result :=
  stepWhen (fun s => s.lda.suspension.isSome)
    (fun s => endSuspension (runToOsc (clearMoment s (s.lda.suspension.getD 0)) s)) s

/-- COLD_START_WAIT_END (R170). -/
def execColdStartWaitEnd (s : State) : Result :=
  stepWhen (fun s => s.lda.coldWait) (fun s => endColdWait (runToOsc (s.lda.window * second) s)) s

/-- BURST_END (R158): the burst left passes, and the heater is switched off. -/
def execBurstEnd (load : Fin 8) (s : State) : Result :=
  stepWhen (fun s => (zoneOf load).isSome && (s.lda.loads.get load).state == .on)
    (fun s => switchOff load (passTime (s.lda.loads.get load).burst s)) s

/-- REST_END (R153): the rest left passes, and the load is OFF or REQUESTED. -/
def execRestEnd (load : Fin 8) (s : State) : Result :=
  stepWhen (fun s => (s.lda.loads.get load).state == .resting)
    (fun s => endRest load (passTime (s.lda.loads.get load).rest s)) s

end Sys2Proof.Machine
end

