-- ==== Sys2Proof/Machine/SampleRows.lean ====
section
/-!
DEFINITION. The sample commands: STROBE and DIGITIZER_FRAME, and the occurrences inside the sample instants that one of
them brings about (R41; log entry 2).
-/

namespace Sys2Proof.Machine

/-- STROBE (R1, R2, R33): due while the next strobe instant stands in the running second. -/
def execStrobe (s : State) : Result := stepWhen strobeDue runStrobe s

/-- DIGITIZER_FRAME (R4). -/
def execDigitizerFrame (after : Nat) (bytes : List Byte) (s : State) : Result := stepAfter after (digitizerFrame bytes) s

/-! ### The sample instants that a step brings about

One strobe or frame may deliver several entries, each of which is a sample instant. An occurrence inside a sample instant is
looked for in each of them, in the state in which the entry leaves the list. -/

/-- A sample instant of a step: the entry that leaves the list, and the state in which it leaves. -/
structure Instant where
  entry : Strobe
  before : State

/-- The state that the entry's delivery, or its being declared missing, leaves. -/
def Instant.after (x : Instant) : State := leave x.entry x.before

/-- What SIF hands DET at the instant (R5 to R7). -/
def Instant.item (x : Instant) : SampleItem :=
  match x.entry.frame with
  | some f => if f.fault then none else some (f.samples, f.clips)
  | none => none

/-- The instant's batch, up to the trigger changes (R63, steps 1 and 2). -/
def Instant.changed (x : Instant) : State :=
  batchChanges (bankBatch ⟨x.entry.time, x.entry.tq⟩ x.item x.before) (bankWork x.item x.before)

/-- The state with a strobe list. -/
def withStrobes (l : List Strobe) (s : State) : State := s.withSif fun x => { x with strobes := l }

/-- The instants of a delivery from the front of the list (`deliverFront`). -/
def frontInstants : (most : Nat) → State → List Instant
  | 0, _ => []
  | n + 1, s =>
    match s.sif.strobes with
    | [] => []
    | e :: rest =>
      if e.frame.isSome then
        let x : Instant := ⟨e, withStrobes rest s⟩
        x :: frontInstants n x.after
      else []

/-- The instants of a strobe's push-out (`pushOut`). -/
def pushInstants (s : State) : List Instant :=
  if s.sif.strobes.length < Config.strobeLimit then []
  else
    match s.sif.strobes with
    | [] => []
    | e :: rest =>
      let x : Instant := ⟨e, withStrobes rest s⟩
      x :: frontInstants Config.strobeLimit x.after

/-- The instants of a well-formed frame's delivery (`matchFrame`). -/
def matchInstants (f : DigFrame) (s : State) : List Instant :=
  match s.sif.strobes.find? (·.seq == f.seq) with
  | some e => if e.frame.isSome then [] else frontInstants Config.strobeLimit (storeFrame f s)
  | none => []

/-- The step that brings instants about. -/
def runInstant (via : InstantStep) (s : State) : State :=
  match via with
  | .strobe => runStrobe s
  | .frame after bytes => digitizerFrame bytes (passTime after s)

/-- The instants of that step, in order. -/
def instantsOf (via : InstantStep) (s : State) : List Instant :=
  match via with
  | .strobe => if strobeDue s then pushInstants (runToStation s.tmb.strobeNext s) else []
  | .frame after bytes =>
    match decodeDigFrame bytes with
    | some f => matchInstants f (passTime after s)
    | none => []

/-- An occurrence inside one of the step's sample instants: the whole step is taken if some instant has it. -/
def stepInstant (p : Instant → Bool) (via : InstantStep) (s : State) : Result :=
  stepWhen (fun s => (instantsOf via s).any p) (runInstant via) s

/-! ### The occurrences -/

/-- A warm-up completes at the instant (R47). -/
def warmsUp (c : Fin 6) (x : Instant) : Bool :=
  (x.before.det.get c).state == .warming && ((bankInstant x.item x.before).get c).det.state == .armed

/-- The trigger timer reaches its limit at the instant (R50). -/
def forcesOff (c : Fin 6) (x : Instant) : Bool :=
  let d := x.before.det.get c
  d.state == .triggered && decide ((x.before.tables.channel.get c).maxTrigger * x.before.sif.rate ≤ d.timer + 1)

/-- Blank remaining comes to 0 at the instant's end (R52). -/
def endsBlanking (c : Fin 6) (x : Instant) : Bool :=
  let blank := (x.before.det.get c).blank
  decide (0 < blank ∧ blank ≤ x.before.periodMs)

/-- A contribution ends at the instant (R65): at step 3 of its batch, or by the trigger-off of a gap reset. -/
def endsContribution (c : Fin 6) (x : Instant) : Bool :=
  let atStep3 :=
    match x.changed.evu.contrib.get c with
    | some k => contributionEnds x.changed c k
    | none => false
  let batch := sampleInstant ⟨x.entry.time, x.entry.tq⟩ x.item x.before
  atStep3 || ((batch.evu.contrib.get c).isSome && (x.after.evu.contrib.get c).isNone)

/-- A forced closing begins at the instant (R72); K14 counts each. -/
def forcesClosing (x : Instant) : Bool := x.after.cnt[14] != x.before.cnt[14]

/-- An event closes at the instant (R73). -/
def closesEvent (x : Instant) : Bool := x.before.evu.current.isSome && x.after.evu.current.isNone

/-- The quiet tail runs out in IDLE at the instant (R77). -/
def endsTail (x : Instant) : Bool :=
  x.before.evu.tail.isSome && x.after.evu.tail.isNone && x.after.evu.phase == .idle

/-- The instant's frame is the 2,048th of the WRITING segment (R86). -/
def completesSegment (x : Instant) : Bool :=
  x.entry.frame.isSome &&
    match x.before.wfs.writer with
    | some i => decide (Config.segmentFrames ≤ (segmentAt x.before i).count + 1)
    | none => false

/-- WARM_UP_COMPLETE (R47): the channel's detector leaves WARMING for ARMED. -/
def execWarmUpComplete (c : Fin 6) (via : InstantStep) (s : State) : Result := stepInstant (warmsUp c) via s

/-- FORCED_TRIGGER_OFF (R50). -/
def execForcedTriggerOff (c : Fin 6) (via : InstantStep) (s : State) : Result := stepInstant (forcesOff c) via s

/-- BLANKING_END (R52). -/
def execBlankingEnd (c : Fin 6) (via : InstantStep) (s : State) : Result := stepInstant (endsBlanking c) via s

/-- CONTRIBUTION_END (R65): the contribution ends other than with the close of an event. -/
def execContributionEnd (c : Fin 6) (via : InstantStep) (s : State) : Result := stepInstant (endsContribution c) via s

/-- FORCED_CLOSING (R72). -/
def execForcedClosing (via : InstantStep) (s : State) : Result := stepInstant forcesClosing via s

/-- EVENT_CLOSE (R73). -/
def execEventClose (via : InstantStep) (s : State) : Result := stepInstant closesEvent via s

/-- QUIET_TAIL_END (R77): the tail runs out in IDLE. -/
def execQuietTailEnd (via : InstantStep) (s : State) : Result := stepInstant endsTail via s

/-- SEGMENT_COMPLETE (R86): the writer goes on to a new segment. -/
def execSegmentComplete (via : InstantStep) (s : State) : Result := stepInstant completesSegment via s

end Sys2Proof.Machine
end

