-- ==== Sys2Proof/Machine/TimeRows.lean ====
section
/-!
DEFINITION. The time commands: SECOND_TICK, TIME_MESSAGE and PPS_EDGE, and the occurrences inside a second tick (R13;
log entry 2).
-/

namespace Sys2Proof.Machine

/-- Station time runs to the end of its second, and the boundary is crossed. -/
def runSecond (s : State) : State := secondBoundary (runToStation Config.second s)

/-- SECOND_TICK (R13, R24, R29, R30). -/
def execSecondTick (s : State) : Result := stepOf runSecond s

/-- TIME_MESSAGE (R14). -/
def execTimeMessage (after : Nat) (bytes : List Byte) (s : State) : Result := stepAfter after (timeMessage bytes) s

/-- PPS_EDGE (R16). -/
def execPpsEdge (after : Nat) (s : State) : Result := stepAfter after ppsEdge s

/-! ### The ticks of a second

A second may make several ticks, since a fired STEP that lands on a boundary makes one of its own (R31). An occurrence inside a
tick is looked for in each of them, in the state that the tick finds. -/

/-- What the landing of entry `i`'s firing finds, and whether a tick goes with it; none where the firing lands on no boundary
(R31). -/
def landingOf (entered : Nat) (i : Fin 3) (s : State) : Option (Bool × State) :=
  let e := s.tables.correction.get i
  let moves :=
    match e.kind with
    | .none | .insert => false
    | .delete => true
    | .step => e.amount != 0
  let t := fireOne (fun _ s => s) entered i s
  if moves && t.tmb.ns == 0 then some (e.kind == .step, t) else none

/-- The states that the ticks of a crossing find, in order (`crossBoundary`). -/
def crossingTicks : (depth : Nat) → (ticks : Bool) → State → List State
  | 0, ticks, s => if ticks then [s] else []
  | d + 1, ticks, s =>
    let fire (x : (Nat × State) × List State) (i : Fin 3) : (Nat × State) × List State :=
      let landed := if stillDue x.1.2 s.tmb.label i then landingOf x.1.1 i x.1.2 else none
      (fireNext (crossBoundary d) s.tmb.label x.1 i,
        x.2 ++ match landed with | some (ticks, t) => crossingTicks d ticks t | none => [])
    let x := entriesInOrder.foldl fire ((s.tmb.label, s), [])
    if ticks then x.2 ++ [x.1.2] else x.2

/-- The states that the ticks at the end of a second find, in order (`secondBoundary`). -/
def boundaryTicks (s : State) : List State :=
  if s.tmb.wrapsSilently then []
  else if s.tmb.inFirstRun then [onNextBoundary s]
  else crossingTicks boundaryDepth true (onNextBoundary s)

/-- The states that the ticks of the running second find, in order (`runSecond`). -/
def secondTicks (s : State) : List State := boundaryTicks (runToStation Config.second s)

/-- An occurrence inside one of the second's ticks: the whole second is taken if some tick has it. -/
def stepTick (p : State → Bool) (s : State) : Result := stepWhen (fun s => (secondTicks s).any p) runSecond s

/-- An occurrence that shows in what a tick makes of the state it finds. -/
def stepTickIf (p : State → State → Bool) (s : State) : Result := stepTick (fun s => p s (tickBlocks s)) s

/-! ### The occurrences -/

/-- HOLDOVER_ENTRY (R23): the tick at which the edge age meets the timeout in LOCKED. -/
def execHoldoverEntry (s : State) : Result :=
  stepTickIf
    (fun s t =>
      s.tmb.tq == .locked && t.tmb.tq == .holdover && decide (s.tables.time.holdoverTimeout ≤ t.tmb.edgeAge)) s

/-- DRIFTING_ENTRY (R24). -/
def execDriftingEntry (s : State) : Result :=
  stepTickIf (fun s t => s.tmb.tq == .holdover && t.tmb.tq == .drifting) s

/-- RESTART_AGE_EXPIRY (R26). -/
def execRestartAgeExpiry (s : State) : Result :=
  stepTickIf
    (fun s t => decide (s.tmb.restartAge ≤ 600 ∧ 600 < t.tmb.restartAge) && (t.tmb.tq == .unset || t.tmb.tq == .coarse)) s

/-- GNSS_SETTLED (R35). -/
def execGnssSettled (s : State) : Result :=
  stepTickIf (fun s t => s.tmb.gnss == .settling && t.tmb.gnss == .active) s

/-- DUTY_RELEASE (R36): a tick at which L1 goes off. -/
def execDutyRelease (s : State) : Result :=
  stepTickIf (fun s t => (s.lda.loads.get 1).state == .on && (t.lda.loads.get 1).state != .on) s

/-- REFIX_REQUEST (R37): a tick at which the refix counter stands at 0 and TMB requests L1. -/
def execRefixRequest (s : State) : Result :=
  stepTickIf (fun s t => !gnssRequested s && gnssRequested t && t.tmb.refixCounter == 0) s

/-- REFIX_BOUND_CROSSED (R37): a tick at which E is above the bound with the trigger armed and TMB requests L1. -/
def execRefixBoundCrossed (s : State) : Result :=
  stepTickIf
    (fun s t =>
      !gnssRequested s && gnssRequested t && t.tmb.refixArmed && decide (s.tables.time.refixBound < t.tmb.err)) s

/-- HOLD_EXPIRY (R91): a tick at which the hold on the event ends. -/
def execHoldExpiry (event : BitVec 16) (s : State) : Result :=
  stepTickIf (fun s t => (holdOf s event.toNat).isSome && (holdOf t event.toNat).isNone) s

/-- RE_CHECK_END (R105): a tick at which the class's re-check runs out. -/
def execReCheckEnd (cls : Fin 8) (s : State) : Result :=
  stepTick (fun s => match s.alu.recheck.get cls with | some n => decide (n ≤ 1) | none => false) s

/-- The Alert Queue as the waits of a tick find it, after the tick's re-checks (R108; log entry 11). -/
def queueAtWaits (s : State) : List AlertInstance := (recheckTicks (wfsTick (tmbTick s))).alu.queue

/-- REPEAT_DUE (R108): a tick at which the wait of the SENT instance runs out. -/
def execRepeatDue (id : Byte) (s : State) : Result :=
  stepTick (fun s => (queueAtWaits s).any fun x => x.id == id.toNat && x.state == .sent && x.wait == 1) s

/-- LISTEN_PERIOD (R131): the tick at which the listen count returns to 0. -/
def execListenPeriod (s : State) : Result := stepTickIf (fun _ t => t.lnk.listenCount == 0) s

/-- LISTEN_WINDOW_END (R131): the tick at which the listen count reaches the window. -/
def execListenWindowEnd (s : State) : Result :=
  stepTickIf
    (fun s t =>
      decide (s.lnk.listenCount < s.tables.station.listenWindow ∧ s.tables.station.listenWindow ≤ t.lnk.listenCount)) s

end Sys2Proof.Machine
end

