-- ==== Sys2Proof/Machine/Dispatch.lean ====
section
/-!
DEFINITION. One arm per command of spec/opcode_table.json.
-/

namespace Sys2Proof.Machine

/-- A command's effect on everything but the queue of waiting commands. -/
def exec (i : Instr) (s : State) : Host.Outcome State Fault Refusal :=
  match i with
  | .powerOn straps memoryAnswers => Sys2Proof.Machine.execPowerOn straps memoryAnswers s
  | .coldStartWaitEnd => Sys2Proof.Machine.execColdStartWaitEnd s
  | .strobe => Sys2Proof.Machine.execStrobe s
  | .digitizerFrame after bytes => Sys2Proof.Machine.execDigitizerFrame after bytes s
  | .warmUpComplete channel via => Sys2Proof.Machine.execWarmUpComplete channel via s
  | .forcedTriggerOff channel via => Sys2Proof.Machine.execForcedTriggerOff channel via s
  | .blankingEnd channel via => Sys2Proof.Machine.execBlankingEnd channel via s
  | .contributionEnd channel via => Sys2Proof.Machine.execContributionEnd channel via s
  | .forcedClosing via => Sys2Proof.Machine.execForcedClosing via s
  | .eventClose via => Sys2Proof.Machine.execEventClose via s
  | .quietTailEnd via => Sys2Proof.Machine.execQuietTailEnd via s
  | .segmentComplete via => Sys2Proof.Machine.execSegmentComplete via s
  | .hold src event minutes => Sys2Proof.Machine.execHold src event minutes s
  | .release src event => Sys2Proof.Machine.execRelease src event s
  | .holdExpiry event => Sys2Proof.Machine.execHoldExpiry event s
  | .waveRequest src event offset count => Sys2Proof.Machine.execWaveRequest src event offset count s
  | .waveCancel src => Sys2Proof.Machine.execWaveCancel src s
  | .reCheckEnd cls => Sys2Proof.Machine.execReCheckEnd cls s
  | .repeatDue id => Sys2Proof.Machine.execRepeatDue id s
  | .alertAck src id => Sys2Proof.Machine.execAlertAck src id s
  | .alertList src => Sys2Proof.Machine.execAlertList src s
  | .secondTick => Sys2Proof.Machine.execSecondTick s
  | .timeMessage after bytes => Sys2Proof.Machine.execTimeMessage after bytes s
  | .ppsEdge after => Sys2Proof.Machine.execPpsEdge after s
  | .holdoverEntry => Sys2Proof.Machine.execHoldoverEntry s
  | .driftingEntry => Sys2Proof.Machine.execDriftingEntry s
  | .restartAgeExpiry => Sys2Proof.Machine.execRestartAgeExpiry s
  | .gnssSettled => Sys2Proof.Machine.execGnssSettled s
  | .dutyRelease => Sys2Proof.Machine.execDutyRelease s
  | .refixRequest => Sys2Proof.Machine.execRefixRequest s
  | .refixBoundCrossed => Sys2Proof.Machine.execRefixBoundCrossed s
  | .frameBegin => Sys2Proof.Machine.execFrameBegin s
  | .transmissionComplete => Sys2Proof.Machine.execTransmissionComplete s
  | .warmUpExpiry => Sys2Proof.Machine.execWarmUpExpiry s
  | .lingerExpiry => Sys2Proof.Machine.execLingerExpiry s
  | .listenPeriod => Sys2Proof.Machine.execListenPeriod s
  | .listenWindowEnd => Sys2Proof.Machine.execListenWindowEnd s
  | .downstreamFrame after bytes => Sys2Proof.Machine.execDownstreamFrame after bytes s
  | .receiveTimeout => Sys2Proof.Machine.execReceiveTimeout s
  | .scan inputs => Sys2Proof.Machine.execScan inputs s
  | .fullRecalibration inputs => Sys2Proof.Machine.execFullRecalibration inputs s
  | .voltageOverride inputs => Sys2Proof.Machine.execVoltageOverride inputs s
  | .overrideRelease inputs => Sys2Proof.Machine.execOverrideRelease inputs s
  | .cutoff inputs => Sys2Proof.Machine.execCutoff inputs s
  | .spacingExpiry => Sys2Proof.Machine.execSpacingExpiry s
  | .inrushAgeExpiry => Sys2Proof.Machine.execInrushAgeExpiry s
  | .inrushSuspensionEnd => Sys2Proof.Machine.execInrushSuspensionEnd s
  | .burstEnd load => Sys2Proof.Machine.execBurstEnd load s
  | .restEnd load => Sys2Proof.Machine.execRestEnd load s
  | .loadTest src load seconds => Sys2Proof.Machine.execLoadTest src load seconds s
  | .status src => Sys2Proof.Machine.execStatus src s
  | .tableWriteStation src first count entries => Sys2Proof.Machine.execTableWriteStation src first count entries s
  | .tableWriteChannel src first count entries => Sys2Proof.Machine.execTableWriteChannel src first count entries s
  | .tableWriteEvent src first count entries => Sys2Proof.Machine.execTableWriteEvent src first count entries s
  | .tableWriteTime src first count entries => Sys2Proof.Machine.execTableWriteTime src first count entries s
  | .tableWriteCorrection src first count entries => Sys2Proof.Machine.execTableWriteCorrection src first count entries s
  | .tableWriteAlert src first count entries => Sys2Proof.Machine.execTableWriteAlert src first count entries s
  | .tableWriteLoad src first count entries => Sys2Proof.Machine.execTableWriteLoad src first count entries s
  | .tableWriteZone src first count entries => Sys2Proof.Machine.execTableWriteZone src first count entries s
  | .tableWriteBattery src first count entries => Sys2Proof.Machine.execTableWriteBattery src first count entries s
  | .tableWriteCountermask src first count entries => Sys2Proof.Machine.execTableWriteCountermask src first count entries s
  | .tableRead src table first count => Sys2Proof.Machine.execTableRead src table first count s
  | .counterRead src first count => Sys2Proof.Machine.execCounterRead src first count s
  | .counterClear src first count => Sys2Proof.Machine.execCounterClear src first count s
  | .timeSet src label fraction => Sys2Proof.Machine.execTimeSet src label fraction s
  | .eventList src => Sys2Proof.Machine.execEventList src s
  | .eventRead src event => Sys2Proof.Machine.execEventRead src event s
  | .save src => Sys2Proof.Machine.execSave src s
  | .saveComplete after readBack => Sys2Proof.Machine.execSaveComplete after readBack s
  | .saveNoAnswer after written => Sys2Proof.Machine.execSaveNoAnswer after written s
  | .restart src => Sys2Proof.Machine.execRestart src s
  | .payloadLengthAbove96 after header => Sys2Proof.Machine.execPayloadLengthAbove96 after header s
  | .supplyLoss => Sys2Proof.Machine.execSupplyLoss s

end Sys2Proof.Machine
end

