-- ==== Sys2Proof/Safety.lean ====
section
/-!
DEFINITION. The terms that the claims are made in: the parts of the state that a step may leave alone, the ways a command
from a centre is taken and answered, the situations in which a row's occurrence comes about, and the invariants of the
part.
-/

namespace Sys2Proof.Machine

/-! ### What is left alone -/

/-- The state but for the health counters and the notice queue: what counting and notices may change. -/
def State.butCounts (s : State) : State :=
  { s with cnt := Vector.replicate 40 0, lnk := { s.lnk with notices := [] } }

/-- A detector but for its blank remaining. -/
def Detector.unblanked (d : Detector) : Detector := { d with blank := 0 }

/-- A record but for its blanked-during flag. -/
def EventRecord.unblanked (r : EventRecord) : EventRecord := { r with blankedDuring := false }

/-- The state but for what requests, switches and their counts may change: LDA, the radio, TMB's view of L1, blank
remaining, the blanked-during flags, the counters and the notice queue. -/
def State.butSwitching (s : State) : State :=
  { s with
    cnt := Vector.replicate 40 0
    lda := Cold.lda 0 0
    tmb := { s.tmb with gnss := .off, onTime := 0, lockedTime := 0 }
    det := s.det.map Detector.unblanked
    evu := { s.evu with table := s.evu.table.map EventRecord.unblanked }
    lnk :=
      { s.lnk with
        notices := [], radio := .off, warmLeft := none, lingerLeft := none, listening := true } }

/-! ### Which commands move which part of the state -/

/-- The groups of commands: the rows that are one kind of step. -/
inductive Group where
  /-- POWER_ON and SUPPLY_LOSS. -/
  | power
  /-- The strobe, the digitizer frame, and what comes about at a sample instant. -/
  | sample
  /-- The second tick and what comes about at it. -/
  | tick
  /-- The PPS edge. -/
  | edge
  /-- The time message. -/
  | message
  /-- A time of the line, the radio or a load that runs out. -/
  | timer
  /-- FRAME_BEGIN. -/
  | frame
  /-- Bytes from the line that may hold any command of a centre. -/
  | line
  /-- A reception that breaks off. -/
  | broken
  /-- The scan and what comes about at it. -/
  | scan
  /-- The commands that only read. -/
  | read
  /-- HOLD and RELEASE. -/
  | hold
  /-- WAVE_REQUEST and WAVE_CANCEL. -/
  | wave
  /-- ALERT_ACK. -/
  | ack
  /-- LOAD_TEST. -/
  | test
  /-- COUNTER_CLEAR. -/
  | clear
  /-- TIME_SET. -/
  | timeSet
  /-- SAVE. -/
  | save
  /-- The two ends of a save. -/
  | memory
  /-- RESTART. -/
  | restart
  /-- TABLE_WRITE of a table. -/
  | write (table : TableId)
  deriving DecidableEq, Repr

/-- The group of a command. -/
def groupOf (c : Instr) : Group :=
  match c with
  | .powerOn _ _ => .power
  | .coldStartWaitEnd => .timer
  | .strobe => .sample
  | .digitizerFrame _ _ => .sample
  | .warmUpComplete _ _ => .sample
  | .forcedTriggerOff _ _ => .sample
  | .blankingEnd _ _ => .sample
  | .contributionEnd _ _ => .sample
  | .forcedClosing _ => .sample
  | .eventClose _ => .sample
  | .quietTailEnd _ => .sample
  | .segmentComplete _ => .sample
  | .hold _ _ _ => .hold
  | .release _ _ => .hold
  | .holdExpiry _ => .tick
  | .waveRequest _ _ _ _ => .wave
  | .waveCancel _ => .wave
  | .reCheckEnd _ => .tick
  | .repeatDue _ => .tick
  | .alertAck _ _ => .ack
  | .alertList _ => .read
  | .secondTick => .tick
  | .timeMessage _ _ => .message
  | .ppsEdge _ => .edge
  | .holdoverEntry => .tick
  | .driftingEntry => .tick
  | .restartAgeExpiry => .tick
  | .gnssSettled => .tick
  | .dutyRelease => .tick
  | .refixRequest => .tick
  | .refixBoundCrossed => .tick
  | .frameBegin => .frame
  | .transmissionComplete => .timer
  | .warmUpExpiry => .timer
  | .lingerExpiry => .timer
  | .listenPeriod => .tick
  | .listenWindowEnd => .tick
  | .downstreamFrame _ _ => .line
  | .receiveTimeout => .broken
  | .scan _ => .scan
  | .fullRecalibration _ => .scan
  | .voltageOverride _ => .scan
  | .overrideRelease _ => .scan
  | .cutoff _ => .scan
  | .spacingExpiry => .timer
  | .inrushAgeExpiry => .timer
  | .inrushSuspensionEnd => .timer
  | .burstEnd _ => .timer
  | .restEnd _ => .timer
  | .loadTest _ _ _ => .test
  | .status _ => .read
  | .tableWriteStation _ _ _ _ => .write .station
  | .tableWriteChannel _ _ _ _ => .write .channel
  | .tableWriteEvent _ _ _ _ => .write .event
  | .tableWriteTime _ _ _ _ => .write .time
  | .tableWriteCorrection _ _ _ _ => .write .correction
  | .tableWriteAlert _ _ _ _ => .write .alert
  | .tableWriteLoad _ _ _ _ => .write .load
  | .tableWriteZone _ _ _ _ => .write .zone
  | .tableWriteBattery _ _ _ _ => .write .battery
  | .tableWriteCountermask _ _ _ _ => .write .countermask
  | .tableRead _ _ _ _ => .read
  | .counterRead _ _ _ => .read
  | .counterClear _ _ _ => .clear
  | .timeSet _ _ _ => .timeSet
  | .eventList _ => .read
  | .eventRead _ _ => .read
  | .save _ => .save
  | .saveComplete _ _ => .memory
  | .saveNoAnswer _ _ => .memory
  | .restart _ => .restart
  | .payloadLengthAbove96 _ _ => .broken
  | .supplyLoss => .power

/-- The groups of the commands that a centre sends. -/
def Group.fromCentre : Group → Bool
  | .read | .hold | .wave | .ack | .test | .clear | .timeSet | .save | .restart | .write _ => true
  | .power | .sample | .tick | .edge | .message | .timer | .frame | .line | .broken | .scan | .memory => false

/-- The groups in which a counter may count (chapter 11); K28 to K36 count wherever a load is switched. -/
def countsIn (k : Fin 40) (g : Group) : Bool :=
  g == .clear ||
    if k.val < 15 then g == .sample
    else if k.val < 17 then g == .sample || g == .restart
    else if k.val = 17 ∨ k.val = 21 then
      g ∈ [.sample, .tick, .edge, .timeSet, .scan, .restart, .write .alert, .write .load, .write .zone, .write .battery]
    else if k.val = 18 then g == .frame
    else if k.val = 19 then g == .ack
    else if k.val = 20 then g == .tick || g == .edge || g == .timeSet
    else if k.val < 25 then g.fromCentre
    else if k.val = 25 then g.fromCentre || g == .broken
    else if k.val = 26 then g == .timer
    else if k.val = 27 then g ∈ [.sample, .write .channel, .write .station]
    else if k.val < 37 then true
    else if k.val < 39 then g == .edge
    else g ∈ [.tick, .edge, .timeSet]

/-! ### A command from a centre (R134 to R136, R172) -/

/-- CMD takes the command: the part has supply, the centre is 1 to 15, and the frame is addressed to the station with a
reply place free, or is a broadcast of a kind that is taken (R134, R135, R126). -/
structure Accepted (src : Sender) (c : Command) (s : State) : Prop where
  supply : s.supply = .on
  centre : 1 ≤ src.centre.toNat ∧ src.centre.toNat ≤ 15
  room : src.broadcast = false → s.lnk.replies.length < 6
  kind : src.broadcast = true → broadcastKind c = true

/-- The state CMD executes the command in: the time since the step before has passed, and for an addressed frame a reply
place is reserved (R126). -/
def arrived (src : Sender) (s : State) : State :=
  if src.broadcast then passTime src.after s
  else
    (passTime src.after s).withLnk fun l => { l with replies := l.replies ++ [⟨src.centre.toNat, src.tag, none⟩] }

/-- What CMD does when the command has had its effect (R172): its status counts in K22 or K23, the reserved place is
filled with the reply, and what follows at once is brought about. -/
def answered (src : Sender) (c : Command) (status : ReplyStatus) (data : ReplyData) (s : State) : State :=
  let s := countStatus status s
  settle (if src.broadcast then s else fillReply ⟨c.kind, status, data⟩ s)

/-- The row that writes a table (R177). -/
def writeRow (id : TableId) (src : Sender) (first count : Byte) (entries : List Byte) : Instr :=
  match id with
  | .station => .tableWriteStation src first count entries
  | .channel => .tableWriteChannel src first count entries
  | .event => .tableWriteEvent src first count entries
  | .time => .tableWriteTime src first count entries
  | .correction => .tableWriteCorrection src first count entries
  | .alert => .tableWriteAlert src first count entries
  | .load => .tableWriteLoad src first count entries
  | .zone => .tableWriteZone src first count entries
  | .battery => .tableWriteBattery src first count entries
  | .countermask => .tableWriteCountermask src first count entries

/-! ### Where a row's occurrence comes about -/

/-- The frame of the front strobe arrives whole, and no frame waits behind it (R4): one sample instant is taken. -/
structure FrontFrame (bytes : List Byte) (f : DigFrame) (e : Strobe) (rest : List Strobe) (s : State) : Prop where
  supply : s.supply = .on
  decoded : decodeDigFrame bytes = some f
  strobes : s.sif.strobes = e :: rest
  empty : e.frame = none
  sequence : e.seq = f.seq
  behind : ∀ x ∈ rest, x.frame = none ∧ x.seq ≠ f.seq

/-- The same without the fault flag (R5): the instant is taken with the frame's samples. -/
structure FrontArrives (bytes : List Byte) (f : DigFrame) (e : Strobe) (rest : List Strobe) (s : State) : Prop
    extends FrontFrame bytes f e rest s where
  good : f.fault = false

/-- A strobe is due and finds a full list, so its front entry is declared missing (R7). -/
structure FrontPushedOut (e : Strobe) (rest : List Strobe) (s : State) : Prop where
  supply : s.supply = .on
  due : s.tmb.strobeNext < Config.second
  strobes : s.sif.strobes = e :: rest
  full : rest.length = 3
  empty : e.frame = none

/-- The step takes one sample instant, that of the front entry `e`, with `item` handed to DET (R4 to R7): the front entry's frame
arrives, its fault flag clear or set, or a strobe pushes the entry out, and no frame waits behind it. -/
inductive OneInstant : InstantStep → Strobe → SampleItem → State → Prop where
  | frame {bytes : List Byte} {f : DigFrame} {e : Strobe} {rest : List Strobe} {s : State} (after : Nat)
      (front : FrontFrame bytes f e rest s) :
      OneInstant (.frame after bytes) e (if f.fault then none else some (f.samples, f.clips)) s
  | strobe {e : Strobe} {rest : List Strobe} {s : State} (pushed : FrontPushedOut e rest s)
      (behind : ∀ x ∈ rest, x.frame = none) : OneInstant .strobe e none s

/-- The channel reports no trigger-on at an instant with this item (R48). -/
def QuietAt (item : SampleItem) (s : State) (c : Fin 6) : Prop := ((bankInstant item s).get c).change ≠ some true

/-- No channel reports a trigger-on at an instant with this item. -/
def NoTriggerOn (item : SampleItem) (s : State) : Prop := ∀ c, QuietAt item s c

/-- No event is declared at an instant with this item (R67): one is in progress, or no channel triggers on and the running
contributions do not reach V. -/
def NoDeclaration (item : SampleItem) (s : State) : Prop :=
  s.evu.phase ≠ .idle ∨ (NoTriggerOn item s ∧ weightSum s.evu.contrib < s.tables.event.threshold)

/-- No second is marked to run twice, and none is being repeated (R30). -/
def NoInserted (t : Tmb) : Prop := t.marks = [] ∧ t.repeating = false

/-- The end of a second of station time with nothing beside the tick (R13): no repeat follows, a label below the last one
and no ARMED entry for the label that is entered. -/
structure PlainTick (s : State) : Prop where
  supply : s.supply = .on
  once : s.tmb.inFirstRun = false
  label : s.tmb.label < Config.maxLabel
  entries : ∀ i, (s.tables.correction.get i).status = .armed → (s.tables.correction.get i).target ≠ s.tmb.label + 1

/-- The end of a second at which correction entry `i`, and no other, fires (R29). -/
structure FiringTick (i : Fin 3) (s : State) : Prop where
  supply : s.supply = .on
  once : s.tmb.inFirstRun = false
  label : s.tmb.label + 2 ≤ Config.maxLabel
  armed : (s.tables.correction.get i).status = .armed
  target : (s.tables.correction.get i).target = s.tmb.label + 1
  alone : ∀ j, j ≠ i → (s.tables.correction.get j).status ≠ .armed

/-- LOCKED with edges coming: the tick leaves the time-quality state and A3 as they are (R23, R26). -/
structure SteadyTick (s : State) : Prop extends PlainTick s where
  locked : s.tmb.tq = .locked
  a3 : s.tmb.a3 = false
  age : s.tmb.edgeAge + 1 < s.tables.time.holdoverTimeout
  way : s.tmb.way ≠ some .duty

/-- The counts of a second after the tick, held at 86,400 (R13). -/
def countedSecond (n : Nat) : Nat := min 86400 (n + 1)

/-- E after a tick in HOLDOVER or DRIFTING (R24). -/
def grownError (s : State) : Nat := min 4294967295 (s.tmb.err + s.tables.time.drift)

/-! ### The invariants -/

/-- No mark of an inserted second lies behind station time (R30): each marked second is still to run or in its first run, and a
second that is being repeated is not marked. -/
def MarkAhead (t : Tmb) : Prop :=
  ∀ l ∈ t.marks, t.label ≤ l ∧ (t.repeating = true → t.label ≠ l)

/-- Every ARMED correction entry has its target ahead of the label in force (R28, R29, R32). -/
def ArmedAhead (s : State) : Prop :=
  ∀ i, (s.tables.correction.get i).status = .armed → s.tmb.label < (s.tables.correction.get i).target

/-- The outstanding-strobe list (R1, R2, R4): four entries at most, the front entry without a frame. -/
def Sif.StrobesInv (f : Sif) : Prop := f.strobes.length ≤ 4 ∧ ∀ e ∈ f.strobes.head?, e.frame = none

/-- The strobes outstanding bear the sequence numbers before the next one, in order, from 255 to 0 (R1). -/
def Sif.SequenceInv (f : Sif) : Prop :=
  ∀ i (h : i < f.strobes.length), f.strobes[i].seq = f.nextSeq - BitVec.ofNat 8 (f.strobes.length - i)

/-- A sample value (Principal quantities). -/
def inSampleRange (x : Int) : Prop := -8388608 ≤ x ∧ x ≤ 8388607

/-- The ranges of the detectors' values (chapter 3, state table), with the samples that the strobe list still holds. -/
def DetectorRanges (s : State) : Prop :=
  (∀ c, -2147483648 ≤ (s.det.get c).baseline ∧ (s.det.get c).baseline ≤ 2147483392 ∧
      0 ≤ (s.det.get c).sta ∧ (s.det.get c).sta ≤ 4294967040 ∧
      0 ≤ (s.det.get c).lta ∧ (s.det.get c).lta ≤ 4294967040) ∧
    ∀ e ∈ s.sif.strobes, ∀ f ∈ e.frame, ∀ c, inSampleRange (f.samples.get c)

/-- The queues of LNK keep to their places (R125 to R127). -/
def QueuesBounded (s : State) : Prop :=
  s.lnk.replies.length ≤ 6 ∧ s.lnk.notices.length ≤ 8 ∧ s.lnk.dataQueue.length ≤ 24

/-- The Alert Queue (R100, R101): twelve instances at most, in order of priority, no id twice, the next id held by none,
ids 1 to 255. -/
def AlertQueueInv (a : Alu) : Prop :=
  a.queue.length ≤ 12 ∧ a.queue.Pairwise (fun x y => x.priority ≤ y.priority) ∧
    a.queue.Pairwise (fun x y => x.id ≠ y.id) ∧ (∀ x ∈ a.queue, x.id ≠ a.nextId) ∧
    (1 ≤ a.nextId ∧ a.nextId ≤ 255)

/-- The station-scope classes (R101, R105): one instance of each at most, and none while the class's re-check runs. -/
def StationClassInv (a : Alu) : Prop :=
  ∀ cls : Fin 8, 3 ≤ cls.val →
    (a.queue.filter (·.cls == cls)).length ≤ 1 ∧
      ((a.recheck.get cls).isSome = true → ∀ x ∈ a.queue, x.cls ≠ cls)

/-- The Event Table and the holds (R67, R68, R89): twelve records at most, no number twice, the next number borne by none;
a record that is not CLOSED is the current one, there is a current one exactly outside IDLE; two holds at most, each on a
record of the table, one an event. -/
structure EventInv (s : State) : Prop where
  records : s.evu.table.length ≤ 12
  numbers : s.evu.table.Pairwise fun a b => a.number ≠ b.number
  next : ∀ r ∈ s.evu.table, r.number ≠ s.evu.nextNumber
  range : 1 ≤ s.evu.nextNumber ∧ s.evu.nextNumber ≤ 65535
  open_ : ∀ r ∈ s.evu.table, r.state ≠ .closed → s.evu.current = some r.number
  current : ∀ n ∈ s.evu.current, ∃ r ∈ s.evu.table, r.number = n ∧ r.state ≠ .closed
  idle : s.evu.phase = .idle ↔ s.evu.current = none
  holds : s.wfs.holds.length ≤ 2
  held : ∀ h ∈ s.wfs.holds, ∃ r ∈ s.evu.table, r.number = h.event
  one : s.wfs.holds.Pairwise fun a b => a.event ≠ b.event

/-- The segments (R83, R85, R87): 128 of them, 112 KEPT at most; each KEPT one belongs to a record, whose waveform counts
exactly its KEPT segments; the writer's segment is the one that is WRITING; a claim beside an event in progress is that
event's. -/
structure SegmentInv (s : State) : Prop where
  total : s.wfs.segments.length = 128
  kept : keptCount s ≤ 112
  owned : ∀ x ∈ s.wfs.segments, x.state = .kept → ∃ r ∈ s.evu.table, x.owner = some r.number
  counted : ∀ r ∈ s.evu.table,
    (s.wfs.segments.filter fun x => x.state == .kept && x.owner == some r.number).length = r.wave.count
  writing : ∀ i x, s.wfs.segments[i]? = some x → (x.state = .writing ↔ s.wfs.writer = some i)
  writer : ∀ i ∈ s.wfs.writer, i < 128
  claimed : ∀ n ∈ s.wfs.claim, ∀ m ∈ s.evu.current, m = n

/-- The inrush record (R156, R159): no more activations younger than the window in force than the limit in force; a
suspension outlasts the window written. -/
def InrushInv (s : State) : Prop :=
  younger s s.lda.window ≤ s.lda.limit ∧ ∀ w ∈ s.lda.suspension, s.tables.station.inrushWindow ≤ w

/-- A zone's critical mark (R163): the sensor's value at the latest judgement was below the zone's critical floor; before the first hand-over no zone is marked (R170). -/
def CriticalInv (s : State) : Prop :=
  ∀ z, (s.hzc.zones.get z).critical = true →
    s.hzc.handed.isSome = true ∧
      ∃ t, (s.hzc.zones.get z).temperature = some (some t) ∧ t < (s.tables.zone.get z).floor

/-- Station time's frequency correction (R17). -/
def FreqInRange (s : State) : Prop := -500000 ≤ s.tmb.freq ∧ s.tmb.freq ≤ 500000

/-- The charge counter and its remainder (R141). -/
def ChargeInRange (s : State) : Prop := s.bmn.q ≤ fullCharge s.tables.battery ∧ s.bmn.r ≤ 3599

/-- Every load that is ON is permitted (R161); a part without supply has none ON. -/
def OnlyPermittedOn (s : State) : Prop :=
  ∀ l, (s.lda.loads.get l).state = .on → s.supply = .on ∧ permitted s l = true

end Sys2Proof.Machine
end

