-- ==== Sys2Proof/Certificates/Slice0/Obligations.lean ====
section
/-!
DEFINITION. The statements for the provers: what the rules of spec/ say the part does, command by command and for the
machine as a whole.
-/

open Sys2Proof Sys2Proof.Machine

/-! ### The machine -/

/-- A step is the command at the front of the queue, taken on the state with the queue's rest.
THE MODEL'S CHOICE (log entry 1): with nothing waiting the block idles. -/
def Obligations.StepTakesFrontCommandOrIdles : Prop :=
   (∀ (c : Instr) (rest : List Instr) (s : State),
      step { s with pending := c :: rest } = exec c { s with pending := rest }) ∧
   (∀ s : State, s.pending = [] → step s = .next s)

/-- No rule stops the part, and no command touches the queue of commands that wait. -/
def Obligations.EveryCommandCompletesAndKeepsQueue : Prop :=
  ∀ (c : Instr) (s : State), ∃ t, exec c s = .next t ∧ t.pending = s.pending

/-- What follows a step at once (R128, R130, R155, R161, R165) changes LDA, the radio, TMB's view of L1, blank remaining,
the blanked-during flags, the counters K28 to K36 and the notice queue, and nothing else. -/
def Obligations.SettlingLeavesTheRestAlone : Prop :=
  ∀ s : State,
    (settle s).butSwitching = s.butSwitching ∧
      ∀ k : Fin 40, (k.val < 28 ∨ 36 < k.val) → (settle s).cnt[k] = s.cnt[k]

/-- An occurrence row of the table is the larger step in which it comes about, or finds nothing to do (log entry 2: the
model's reading of the table). -/
def Obligations.OccurrenceRowsAreTheirStep : Prop :=
  (∀ (c : Fin 6) (via : InstantStep) (s : State) (i : Instr),
      i ∈ [.warmUpComplete c via, .forcedTriggerOff c via, .blankingEnd c via, .contributionEnd c via,
        .forcedClosing via, .eventClose via, .quietTailEnd via, .segmentComplete via] →
      exec i s = .next s ∨
        exec i s = exec (match via with | .strobe => .strobe | .frame after bytes => .digitizerFrame after bytes) s) ∧
    (∀ (n : BitVec 16) (cls : Fin 8) (id : Byte) (s : State) (i : Instr),
      i ∈ [.holdoverEntry, .driftingEntry, .restartAgeExpiry, .gnssSettled, .dutyRelease, .refixRequest,
        .refixBoundCrossed, .holdExpiry n, .reCheckEnd cls, .repeatDue id, .listenPeriod, .listenWindowEnd] →
      exec i s = .next s ∨ exec i s = exec .secondTick s) ∧
    (∀ (x : MonitorInputs) (s : State) (i : Instr),
      i ∈ [.fullRecalibration x, .voltageOverride x, .overrideRelease x, .cutoff x] →
      exec i s = .next s ∨ exec i s = exec (.scan x) s)

/-- The frame of every command that is neither a supply row nor bytes from the line that hold a command, where the part
has supply before and after: each block of the part is moved by the groups of commands named for it alone. SIF and the
segments by the sample rows and RESTART; the detectors (blanking aside) and EVU (blanked-during flags aside) by those and
CHANNEL writes; the holds by ticks, HOLD and RELEASE, a TIME_SET or an edge that lands on a boundary being a tick too;
the job also by what cancels or starts it; the Alert Queue by what
raises, sends, repeats and acknowledges; BMN by scans and BATTERY writes; HZC by those and LOAD and ZONE writes; the tables
by TABLE_WRITE, the statuses of CORRECTION entries also by ticks, edges and TIME_SET; F by PPS edges; station time's label
by ticks, edges and TIME_SET, its quality and error bound also by scans and TIME writes, which change the way of working
L1; the image by the save rows. Oscillator time never runs back. -/
def Obligations.EachBlockMovesOnlyByItsCommands : Prop :=
  ∀ (c : Instr) (s t : State), s.supply = .on → exec c s = .next t → t.supply = .on →
    let g := groupOf c
    g ≠ .power → g ≠ .line →
    (g ≠ .restart → t.straps = s.straps) ∧ s.osc ≤ t.osc ∧ t.pending = s.pending ∧
      (g ∉ [.sample, .restart] →
        t.sif = s.sif ∧ t.wfs.segments = s.wfs.segments ∧ t.wfs.writer = s.wfs.writer ∧ t.wfs.claim = s.wfs.claim ∧
          t.wfs.nextOrder = s.wfs.nextOrder) ∧
      (g ∉ [.sample, .restart, .write .channel] →
        t.det.map Detector.unblanked = s.det.map Detector.unblanked ∧
          t.evu = { s.evu with table := t.evu.table } ∧
          t.evu.table.map EventRecord.unblanked = s.evu.table.map EventRecord.unblanked) ∧
      (g ∉ [.tick, .edge, .timeSet, .hold] → t.wfs.holds = s.wfs.holds) ∧
      (g ∉ [.sample, .tick, .edge, .timeSet, .frame, .scan, .hold, .wave, .restart] → t.wfs.job = s.wfs.job) ∧
      (g ∉ [.sample, .tick, .edge, .timeSet, .scan, .frame, .ack, .restart, .write .alert, .write .load, .write .zone,
          .write .battery] → t.alu = s.alu) ∧
      (g ∉ [.scan, .write .battery] → t.bmn = s.bmn) ∧
      (g ∉ [.scan, .write .battery, .write .load, .write .zone] → t.hzc = s.hzc) ∧
      (g ∉ [.save, .memory, .restart] → t.cmd = s.cmd) ∧
      (g ∉ [.save, .memory] → t.image = s.image) ∧
      ((∀ id, g ≠ .write id) → { t.tables with correction := s.tables.correction } = s.tables) ∧
      ((∀ id, g ≠ .write id) → g ∉ [.tick, .edge, .timeSet] → t.tables = s.tables) ∧
      (g ≠ .edge → t.tmb.freq = s.tmb.freq) ∧
      (g ∉ [.tick, .edge, .timeSet] → t.tmb.label = s.tmb.label) ∧
      (g ∉ [.tick, .edge, .timeSet, .restart] → t.tmb.edgeAge = s.tmb.edgeAge) ∧
      (g ∉ [.tick, .edge, .timeSet, .scan, .write .time] → t.tmb.tq = s.tmb.tq ∧ t.tmb.err = s.tmb.err) ∧
      (g ∉ [.broken, .restart] → t.lnk.receiver = s.lnk.receiver) ∧
      (g.fromCentre = false → g ≠ .frame → t.lnk.replies = s.lnk.replies) ∧
      (g ∉ [.sample, .frame, .scan, .restart, .write .channel, .write .station] →
        t.lnk.dataQueue = s.lnk.dataQueue ∧ t.lnk.openData = s.lnk.openData ∧ t.lnk.gapPending = s.lnk.gapPending)

/-- The health counters (chapter 11): outside the supply rows and the bytes of the line, with supply before and after, a
counter moves only in the groups of commands in which what it counts can happen, or by COUNTER_CLEAR. -/
def Obligations.EachCounterCountsOnlyItsOwnRows : Prop :=
  ∀ (c : Instr) (s t : State) (k : Fin 40), s.supply = .on → exec c s = .next t → t.supply = .on →
    groupOf c ≠ .power → groupOf c ≠ .line → countsIn k (groupOf c) = false → t.cnt[k] = s.cnt[k]

/-! ### Supply and restart -/

/-- POWER_ON: every block at its cold-start values from the tables of a good image or the defaults, every counter 0, the
START notice queued, and LNK's request for L0 placed; nothing of the run before is left but the configuration memory. The
values of `Cold` that the chapters do not state are the model's (log entries 19 to 21). A good image holds entries that the
value policy has passed (R185), so an inrush window of at least 1.
SUPPLY_LOSS: the part is off and keeps its configuration image as it then stands; nothing else of its state tells in
what follows (two parts that agree in image, straps, disconnect output and waiting commands end alike). -/
def Obligations.SupplyComesAndGoes : Prop :=
   (∀ (straps : Byte) (answers : Bool) (s : State),
      let good := answers && imageGood s.image
      let tables := if good then tablesOfImage s.image.bytes else Defaults.tables
      let source : ConfigSource := if good then .image else .defaults
      let cold := coldBlocks straps source tables s
      1 ≤ tables.station.inrushWindow →
      exec (.powerOn straps answers) s =
        .next
          { cold with
            lnk :=
              { cold.lnk with
                notices := [⟨.start .cold source, 0, ⟨⟨0, 0⟩, .unset⟩⟩]
                radio := .requested }
            lda :=
              { cold.lda with
                loads := cold.lda.loads.set 0 ⟨.requested, some ⟨.lnk, tables.load.x0.priority, false⟩, false, false, 0, 0⟩ } }) ∧
   ((∀ s : State, ∃ t, exec .supplyLoss s = .next t ∧ t.supply = .off ∧ t.image = s.image ∧
        ∀ l, (t.lda.loads.get l).state = .off) ∧
      ∀ s s' : State,
        s.image = s'.image → s.straps = s'.straps → s.pending = s'.pending → s.bmn.disconnect = s'.bmn.disconnect →
          exec .supplyLoss s = exec .supplyLoss s')

/-- RESTART: every table, the counters, BMN, F and the holds are kept; SIF and DET take their start values at the stored
rate, the event in progress ends, the queues, the job and the save job go, no load is ON, no
request is left but the one that TMB may place for L1 anew (R40), and the START notice with cause WARM is the station's answer; the straps
are read again and the station address judged from them. What `Cold.detector` holds that R61 does not state, a baseline of 0
until the first sample, is the model's (log entry 20), and so is that the START notice stands alone: a notice that the restart
itself queues before LNK's turn goes with the others (THE MODEL'S CHOICE: log entry 44). `u` is the state before what follows at once. -/
def Obligations.RestartKeepsTablesAndEmptiesQueues : Prop :=
  ∀ (src : Sender) (straps : Byte) (s : State), Accepted src .restart s → (s.evu.phase = .idle ↔ s.evu.current = none) →
    ∃ u, exec (.restart ⟨src, straps⟩) s = .next (settle u) ∧ u.straps = straps ∧
      u.lnk.address = addressInUse s.tables.station.address straps ∧
      u.tables = s.tables ∧ u.cmd.source = s.cmd.source ∧ u.cmd.save = none ∧ u.bmn = s.bmn ∧ u.image = s.image ∧
      u.hzc = s.hzc ∧ u.tmb.freq = s.tmb.freq ∧ u.tmb.tq = s.tmb.tq ∧ u.tmb.err = s.tmb.err ∧ u.tmb.slew = none ∧
      u.tmb.message = none ∧ u.tmb.gnss = .off ∧ u.tmb.restartAge = 0 ∧
      u.sif = Cold.sif s.tables.station.sampleRate ∧
      (∀ c, u.det.get c = Cold.detector (s.tables.channel.get c).enable) ∧
      u.evu.phase = .idle ∧ u.evu.current = none ∧ u.evu.tail = none ∧ u.evu.voteSum = 0 ∧
      (∀ c, u.evu.contrib.get c = none ∧ u.evu.triggered.get c = false) ∧
      u.wfs.holds = s.wfs.holds ∧ u.wfs.job = none ∧ u.wfs.claim = none ∧
      u.lnk.tx = none ∧ u.lnk.replies = [] ∧ u.lnk.dataQueue = [] ∧ u.lnk.openData = none ∧
      u.lnk.gapPending = true ∧ u.lnk.radio = .off ∧
      u.lnk.notices.map (·.body) = [.start .warm s.cmd.source] ∧
      (∀ x ∈ u.alu.queue, x.state ≠ .sent) ∧
      u.lda.record = s.lda.record ∧ u.lda.lastAct = s.lda.lastAct ∧
      (∀ l, (u.lda.loads.get l).state ≠ .on ∧ (l ≠ 1 → (u.lda.loads.get l).request = none)) ∧
      (∀ k : Fin 40, k.val ∉ [15, 16, 17, 21, 22] → u.cnt[k] = s.cnt[k]) ∧ u.cnt[22] = s.cnt[22] + 1

/-! ### The sample interface (chapter 1) -/

/-- STROBE with room in the list: one entry is appended with the current sequence, the time and quality of the instant
and TMB's flags, leap in a repeated second, the next sequence advances, and nothing else of the sample path moves.
STROBE with a full list of frameless entries: the front one is declared missing (K4, the run lengthened to 255 at
most, its step flag carried), the rest move up and the new entry takes the back; no detector's averages move. Where the run
so reaches the gap reset, the first time in it, A6 is true with cause GAP and every detector that is not OFF is WARMING from
the start, a TRIGGERED one told to EVU; the trigger timer that so stops is left at 0: THE MODEL'S CHOICE (log entry 35).
Followers of the pushed-out entry that hold their frames are delivered at once.
THE MODEL'S CHOICE (log entry 3): no strobe instant of the running second is left at its end, and STROBE then finds nothing
to do; the instant at the boundary belongs to the second that SECOND_TICK enters. -/
def Obligations.StrobeAppendsEntryAndPushesFrontOut : Prop :=
   (∀ s : State, s.supply = .on → s.tmb.strobeNext < Config.second → s.sif.strobes.length < 4 →
      ∃ t, exec .strobe s = .next t ∧
        t.sif = { s.sif with
          strobes := s.sif.strobes ++
            [⟨s.sif.nextSeq, ⟨s.tmb.label, s.tmb.strobeNext / 100⟩, s.tmb.tq, s.tmb.stepMark,
              s.tmb.repeating, none⟩]
          nextSeq := s.sif.nextSeq + 1 } ∧
        t.tmb.strobeNext = s.tmb.strobeNext + Config.second / s.sif.rate ∧ t.tmb.stepMark = false ∧
        t.wfs = s.wfs ∧ t.alu = s.alu ∧ t.lnk.dataQueue = s.lnk.dataQueue ∧ t.evu.contrib = s.evu.contrib ∧
        (∀ c, (t.det.get c).state = (s.det.get c).state ∧ (t.det.get c).baseline = (s.det.get c).baseline ∧
          (t.det.get c).sta = (s.det.get c).sta ∧ (t.det.get c).lta = (s.det.get c).lta)) ∧
   (∀ (s : State) (e : Strobe) (rest : List Strobe), s.supply = .on → s.tmb.strobeNext < Config.second →
      s.sif.strobes = e :: rest → rest.length = 3 → (∀ x ∈ e :: rest, x.frame = none) →
      let run := min 255 (s.sif.missingRun + 1)
      ∃ t new, exec .strobe s = .next t ∧
        t.sif.strobes = rest ++ [new] ∧ new.seq = s.sif.nextSeq ∧ new.frame = none ∧
        t.sif.nextSeq = s.sif.nextSeq + 1 ∧ t.sif.missingRun = run ∧
        t.sif.stepCarry = (s.sif.stepCarry || e.stepFlag) ∧ t.sif.lastAccepted = s.sif.lastAccepted ∧
        t.cnt[4] = s.cnt[4] + 1 ∧ t.cnt[0] = s.cnt[0] ∧
        (∀ c, (t.det.get c).baseline = (s.det.get c).baseline ∧ (t.det.get c).sta = (s.det.get c).sta ∧
          (t.det.get c).lta = (s.det.get c).lta ∧ (t.det.get c).awaiting = (s.det.get c).awaiting) ∧
        (run < s.tables.station.gapReset → t.sif.gapSignalled = s.sif.gapSignalled ∧ t.sif.a6 = s.sif.a6) ∧
        (s.tables.station.gapReset ≤ run → t.sif.gapSignalled = true ∧
          (s.sif.gapSignalled = false → t.sif.a6 = true ∧ t.alu.conds.get 6 = ⟨true, some (.digitizer .gap run)⟩ ∧
            ∀ c,
              ((s.det.get c).state = .off → (t.det.get c).state = .off) ∧
                ((s.det.get c).state ≠ .off →
                  (t.det.get c).state = .warming ∧ (t.det.get c).warm = 0 ∧ (t.det.get c).rearm = false ∧
                    (t.det.get c).timer = 0) ∧
                ((s.det.get c).state = .triggered → t.evu.triggered.get c = false)))) ∧
   (∀ (s : State) (e : Strobe) (rest : List Strobe), FrontPushedOut e rest s →
      let ready := rest.takeWhile fun x => x.frame.isSome
      let faulty := ready.filter fun x => (x.frame.map (·.fault)).getD false
      ∃ t new, exec .strobe s = .next t ∧
        t.sif.strobes = rest.dropWhile (fun x => x.frame.isSome) ++ [new] ∧ new.seq = s.sif.nextSeq ∧ new.frame = none ∧
        t.sif.nextSeq = s.sif.nextSeq + 1 ∧
        t.sif.lastAccepted = (match ready.getLast? with | some x => some x.seq | none => s.sif.lastAccepted) ∧
        t.cnt[0] = s.cnt[0] + BitVec.ofNat 32 ready.length ∧
        t.cnt[4] = s.cnt[4] + 1 + BitVec.ofNat 32 faulty.length ∧ t.cnt[5] = s.cnt[5] + BitVec.ofNat 32 faulty.length) ∧
   (∀ s : State, Config.second ≤ s.tmb.strobeNext → exec .strobe s = .next s)

/-- DIGITIZER_FRAME, where no frame is delivered: a bad form counts in K1; a well-formed frame is matched by its sequence
alone, and counts in K3 for an entry that holds its frame or for the last accepted sequence, in K2 for any other that has
no entry; a frame for a frameless entry behind a frameless front is stored in it.
DIGITIZER_FRAME for the front strobe, fault flag clear: it is delivered at once; K0 counts it and K6 its set clip
flags, the run length, the gap mark and A6 are cleared, and the writer takes it whole. Entries behind it that hold their
frames follow at once.
DIGITIZER_FRAME for the front strobe, fault flag set (R6): K0, K4 and K5 count it and K6 does not, the run lengthens, A6 is
true, the detectors' averages stand, and the writer takes it whole. A6 is left with cause GAP where the run so reaches the gap
reset the first time in it, and FAULT otherwise: THE MODEL'S CHOICE of their order (log entry 8). -/
def Obligations.DigitizerFrameIsMatchedAndDelivered : Prop :=
   (∀ (after : Nat) (bytes : List Byte) (s : State), s.supply = .on →
      ∃ t, exec (.digitizerFrame after bytes) s = .next t ∧
        match decodeDigFrame bytes with
        | none => t.sif = s.sif ∧ t.cnt[1] = s.cnt[1] + 1 ∧ t.wfs = s.wfs
        | some f =>
          match s.sif.strobes.find? (·.seq == f.seq) with
          | none =>
            t.sif = s.sif ∧ t.wfs = s.wfs ∧
              if s.sif.lastAccepted = some f.seq then t.cnt[3] = s.cnt[3] + 1 ∧ t.cnt[2] = s.cnt[2]
              else t.cnt[2] = s.cnt[2] + 1 ∧ t.cnt[3] = s.cnt[3]
          | some e =>
            if e.frame.isSome then t.sif = s.sif ∧ t.cnt[3] = s.cnt[3] + 1 ∧ t.wfs = s.wfs
            else
              ∀ front ∈ s.sif.strobes.head?, front.frame = none → front.seq ≠ f.seq →
                t.wfs = s.wfs ∧ t.cnt[0] = s.cnt[0] ∧
                  t.sif = { s.sif with
                    strobes := s.sif.strobes.map fun x => if x.seq = f.seq then { x with frame := some f } else x }) ∧
   (∀ (after : Nat) (bytes : List Byte) (f : DigFrame) (e : Strobe) (rest : List Strobe) (s : State),
      FrontArrives bytes f e rest s →
      ∃ t, exec (.digitizerFrame after bytes) s = .next t ∧
        t.sif = { s.sif with
          strobes := rest, lastAccepted := some e.seq, stepCarry := false, missingRun := 0, gapSignalled := false
          a6 := false } ∧
        t.cnt[0] = s.cnt[0] + 1 ∧ t.cnt[6] = s.cnt[6] + BitVec.ofNat 32 (clipCount f.clips) ∧
        t.cnt[4] = s.cnt[4] ∧ t.cnt[5] = s.cnt[5] ∧
        ∀ i, s.wfs.writer = some i → i < s.wfs.segments.length → (segmentAt s i).count + 1 < 2048 →
          NoDeclaration (some (f.samples, f.clips)) s →
          segmentAt t i =
            Segment.store
              ⟨e.seq, e.time, e.tq, e.stepFlag || s.sif.stepCarry, e.leapFlag, f.samples, f.clips, false⟩
              (segmentAt s i)) ∧
   (∀ (after : Nat) (bytes : List Byte) (f : DigFrame) (e : Strobe) (rest : List Strobe) (s : State), s.supply = .on →
      decodeDigFrame bytes = some f → s.sif.strobes = e :: rest → e.frame = none → e.seq = f.seq → rest.length ≤ 3 →
      (∀ x ∈ rest, x.seq ≠ f.seq) →
      let ready := rest.takeWhile fun x => x.frame.isSome
      ∃ t, exec (.digitizerFrame after bytes) s = .next t ∧
        t.sif.strobes = rest.dropWhile (fun x => x.frame.isSome) ∧
        t.sif.lastAccepted = (e :: ready).getLast?.map (·.seq) ∧
        t.cnt[0] = s.cnt[0] + BitVec.ofNat 32 (ready.length + 1)) ∧
   (∀ (after : Nat) (bytes : List Byte) (f : DigFrame) (e : Strobe) (rest : List Strobe) (s : State),
      FrontFrame bytes f e rest s → f.fault = true →
      let run := min 255 (s.sif.missingRun + 1)
      let gap := decide (s.tables.station.gapReset ≤ run)
      ∃ t, exec (.digitizerFrame after bytes) s = .next t ∧
        t.sif = { s.sif with
          strobes := rest, lastAccepted := some e.seq, stepCarry := false, missingRun := run
          gapSignalled := s.sif.gapSignalled || gap, a6 := true } ∧
        t.cnt[0] = s.cnt[0] + 1 ∧ t.cnt[4] = s.cnt[4] + 1 ∧ t.cnt[5] = s.cnt[5] + 1 ∧ t.cnt[6] = s.cnt[6] ∧
        t.alu.conds.get 6 =
          ⟨true, some (.digitizer (if gap = true ∧ s.sif.gapSignalled = false then .gap else .fault) run)⟩ ∧
        (∀ c, (t.det.get c).baseline = (s.det.get c).baseline ∧ (t.det.get c).sta = (s.det.get c).sta ∧
          (t.det.get c).lta = (s.det.get c).lta) ∧
        ∀ i, s.wfs.writer = some i → i < s.wfs.segments.length → (segmentAt s i).count + 1 < 2048 →
          NoDeclaration none s →
          segmentAt t i =
            Segment.store
              ⟨e.seq, e.time, e.tq, e.stepFlag || s.sif.stepCarry, e.leapFlag, f.samples, f.clips, true⟩
              (segmentAt s i))

/-! ### The detectors (chapter 3) -/

/-- One detector at a usable sample (R42 to R45, R48, R49, R53): stage 1 always; stages 2 to 4 unless blanked; L stands
still in TRIGGERED; the trigger-on test in ARMED without re-arm pending and the trigger-off test in TRIGGERED decide the
change that is reported. The timer's limit is not met here.
Re-arm pending (R50): in ARMED a usable unblanked sample clears it exactly where the trigger-off test is met, without a trigger-on
test; no other sample here changes it.
The first sample (R46): an awaiting detector takes its baseline from the first usable sample, blanked or not, and nothing else of
it changes; a missing instant leaves it awaiting.
R48's law at every instant, usable or missing: a detector that is OFF or WARMING does not enter TRIGGERED, and a
blanked one makes no trigger-on, and no trigger-off but the forced one of R50. -/
def Obligations.DetectorStagesAndTests : Prop :=
  (∀ (e : ChannelEntry) (rate : Nat) (x : Int) (clip : Bool) (d : Detector),
    d.awaiting = false → d.state ≠ .off → (d.state = .triggered → d.timer + 1 < e.maxTrigger * rate) →
    let r := detectorInstant e rate (some (x, clip)) d
    let b := d.baseline + (x * 256 - d.baseline) / 2 ^ e.h
    let dep := x - b / 256
    let cf : Int := if clip then 16777215 else min 16777215 dep.natAbs
    let sta := d.sta + (cf * 256 - d.sta) / 2 ^ e.a
    let lta := if d.state = .triggered then d.lta else d.lta + (cf * 256 - d.lta) / 2 ^ e.b
    let long := max lta (e.lmin * 256)
    r.det.baseline = b ∧ r.det.blank = d.blank ∧
      (0 < d.blank →
        r.det.sta = d.sta ∧ r.det.lta = d.lta ∧ r.det.state = d.state ∧ r.det.warm = d.warm ∧ r.change = none ∧
          r.report = none) ∧
      (d.blank = 0 →
        r.det.sta = sta ∧ r.det.lta = lta ∧ (r.report.map (·.1) = some (min 16777215 dep.natAbs)) ∧
          (r.change = some true ↔ d.state = .armed ∧ d.rearm = false ∧ long * e.ron ≤ sta * 16) ∧
          (r.change = some false ↔ d.state = .triggered ∧ sta * 16 < long * e.roff) ∧
          (r.det.state = .triggered ↔ r.change = some true ∨ (d.state = .triggered ∧ r.change = none)) ∧
          (d.state = .armed → d.rearm = true →
            r.det.state = .armed ∧ r.change = none ∧ (r.det.rearm = false ↔ sta * 16 < long * e.roff))) ∧
      (d.state ≠ .armed ∨ d.rearm = false ∨ 0 < d.blank → r.det.rearm = d.rearm)) ∧
  (∀ (e : ChannelEntry) (rate : Nat) (x : Int) (clip : Bool) (d : Detector), d.awaiting = true → d.state = .warming →
    detectorInstant e rate (some (x, clip)) d = ⟨{ d with baseline := x * 256, awaiting := false }, none, none⟩ ∧
      detectorInstant e rate none d = ⟨d, none, none⟩) ∧
  (∀ (e : ChannelEntry) (rate : Nat) (item : Option (Int × Bool)) (d : Detector),
    let r := detectorInstant e rate item d
    ((d.state = .off ∨ d.state = .warming) → r.det.state ≠ .triggered ∧ r.change = none) ∧
      (0 < d.blank → r.change ≠ some true ∧
        (r.change = some false → d.state = .triggered ∧ e.maxTrigger * rate ≤ d.timer + 1 ∧ r.det.rearm = true)) ∧
      (r.change = some true → d.state = .armed ∧ r.det.state = .triggered ∧ r.det.timer = 0))

/-- WARM_UP_COMPLETE: the sample on which the warm count reaches 2^b ARMs the detector and tests nothing.
FORCED_TRIGGER_OFF: at the instant at which the trigger timer reaches the limit the detector is ARMED with re-arm
pending, the timer stops, and EVU is told of the trigger-off; the ratio test of that instant is not made (log entry 9:
DEDUCED), and the timer that stops is left at 0: THE MODEL'S CHOICE (log entry 35).
BLANKING_END: blank remaining falls to 0 at the end of the instant on which it is at or below the sample period; `u` is
the state before a switch that may follow at once.
The instant may be that of a strobe that pushes out the front entry: the timer and blank remaining count the missing instant,
a gap reset at it re-warms the detector, and a warm-up can end at the frame of the entry that follows. -/
def Obligations.DetectorCountsReachTheirEnds : Prop :=
   (∀ (c : Fin 6) (after : Nat) (bytes : List Byte) (f : DigFrame) (e : Strobe) (rest : List Strobe) (s : State),
      FrontArrives bytes f e rest s →
      (s.det.get c).state = .warming → (s.det.get c).awaiting = false → (s.det.get c).blank = 0 →
      2 ^ (s.tables.channel.get c).b ≤ (s.det.get c).warm + 1 →
      ∃ t, exec (.warmUpComplete c (.frame after bytes)) s = .next t ∧ (t.det.get c).state = .armed ∧
        (t.det.get c).warm = (s.det.get c).warm + 1 ∧ t.evu.triggered.get c = s.evu.triggered.get c) ∧
   (∀ (c : Fin 6) (after : Nat) (bytes : List Byte) (f : DigFrame) (e : Strobe) (rest : List Strobe) (s : State),
      FrontArrives bytes f e rest s →
      (s.det.get c).state = .triggered →
      (s.tables.channel.get c).maxTrigger * s.sif.rate ≤ (s.det.get c).timer + 1 →
      ∃ t, exec (.forcedTriggerOff c (.frame after bytes)) s = .next t ∧ (t.det.get c).state = .armed ∧
        (t.det.get c).rearm = true ∧ (t.det.get c).timer = 0 ∧ t.evu.triggered.get c = false) ∧
   (∀ (c : Fin 6) (after : Nat) (bytes : List Byte) (f : DigFrame) (e : Strobe) (rest : List Strobe) (s : State),
      FrontArrives bytes f e rest s →
      0 < (s.det.get c).blank → (s.det.get c).blank ≤ 1000 / s.sif.rate →
      ∃ u, exec (.blankingEnd c (.frame after bytes)) s = .next (settle u) ∧ (u.det.get c).blank = 0 ∧
        (∀ c', (u.det.get c').blank = (s.det.get c').blank - 1000 / s.sif.rate)) ∧
   (∀ (c : Fin 6) (f : DigFrame) (e x : Strobe) (rest : List Strobe) (s : State),
      FrontPushedOut e (x :: rest) s → x.frame = some f → f.fault = false → (∀ y ∈ rest, y.frame = none) →
      (s.sif.gapSignalled = true ∨ min 255 (s.sif.missingRun + 1) < s.tables.station.gapReset) →
      (s.det.get c).state = .warming → (s.det.get c).awaiting = false → (s.det.get c).blank = 0 →
      2 ^ (s.tables.channel.get c).b ≤ (s.det.get c).warm + 1 →
      ∃ t, exec (.warmUpComplete c .strobe) s = .next t ∧ (t.det.get c).state = .armed ∧
        (t.det.get c).warm = (s.det.get c).warm + 1 ∧ t.evu.triggered.get c = s.evu.triggered.get c) ∧
   (∀ (c : Fin 6) (e : Strobe) (rest : List Strobe) (s : State),
      FrontPushedOut e rest s → (∀ x ∈ rest, x.frame = none) →
      let gap := s.sif.gapSignalled = false ∧ s.tables.station.gapReset ≤ min 255 (s.sif.missingRun + 1)
      ((s.det.get c).state = .triggered →
        (s.tables.channel.get c).maxTrigger * s.sif.rate ≤ (s.det.get c).timer + 1 →
        ∃ t, exec (.forcedTriggerOff c .strobe) s = .next t ∧ t.evu.triggered.get c = false ∧
          (t.det.get c).timer = 0 ∧
          (gap → (t.det.get c).state = .warming ∧ (t.det.get c).rearm = false) ∧
          (¬gap → (t.det.get c).state = .armed ∧ (t.det.get c).rearm = true)) ∧
        (0 < (s.det.get c).blank → (s.det.get c).blank ≤ 1000 / s.sif.rate →
          ∃ u, exec (.blankingEnd c .strobe) s = .next (settle u) ∧ (u.det.get c).blank = 0 ∧
            (∀ c', (u.det.get c').blank = (s.det.get c').blank - 1000 / s.sif.rate)))

/-! ### Events (chapter 4) -/

/-- CONTRIBUTION_END: a contribution whose channel is not triggered, and does not trigger on at this instant, ends when its
window count meets the coincidence window, and the vote sum is the weight of what is left; so too at an instant at which an event
closes.
FORCED_CLOSING: the instant at which the age of an OPEN event reaches the maximum begins CLOSING, forced, with the
record's end reason MAX_LENGTH, and K14 counts one.
EVENT_CLOSE: the instant at which the post-event time is out closes the record with its time and reason, ends every
contribution, and starts the quiet tail if there is one: of a forced CLOSING event whatever triggers on, and of one that is not
forced where no channel triggers on (a trigger-on may reopen it) and no forced closing comes at that instant.
QUIET_TAIL_END: in IDLE with no declaration at the instant, the tail runs out at its length, and the quiet hold with it.
The instant is that of the front entry, at its frame's arrival, with or without the fault flag, or at a strobe that pushes it
out; a gap reset at it changes none of this. -/
def Obligations.EventCountsReachTheirEnds : Prop :=
   (∀ (c : Fin 6) (k : Contribution) (via : InstantStep) (e : Strobe) (item : SampleItem) (s : State),
      OneInstant via e item s →
      s.evu.contrib.get c = some k → s.evu.triggered.get c = false → QuietAt item s c →
      s.tables.event.window * s.sif.rate / 10 ≤ k.window + 1 →
      ∃ t, exec (.contributionEnd c via) s = .next t ∧ t.evu.contrib.get c = none ∧
        t.evu.voteSum = weightSum t.evu.contrib) ∧
   (∀ (n : Nat) (via : InstantStep) (e : Strobe) (item : SampleItem) (s : State),
      OneInstant via e item s →
      s.evu.phase = .opened → s.evu.forced = false → s.evu.current = some n → (findRecord s n).isSome = true →
      s.tables.event.maxLength * s.sif.rate ≤ s.evu.age + 1 →
      ∃ t r, exec (.forcedClosing via) s = .next t ∧ t.evu.phase = .closing ∧ t.evu.forced = true ∧
        t.evu.current = some n ∧ findRecord t n = some r ∧ r.state = .closing ∧ r.reason = some .maxLength ∧
        t.cnt[14] = s.cnt[14] + 1) ∧
   (∀ (n : Nat) (r : EventRecord) (via : InstantStep) (e : Strobe) (item : SampleItem) (s : State),
      OneInstant via e item s →
      s.evu.phase = .closing → s.evu.current = some n → findRecord s n = some r →
      (s.evu.forced = true ∨
        (NoTriggerOn item s ∧ s.evu.age + 1 < s.tables.event.maxLength * s.sif.rate)) →
      s.tables.event.postEvent * s.sif.rate ≤ s.evu.post + 1 →
      ∃ t r', exec (.eventClose via) s = .next t ∧ t.evu.phase = .idle ∧ t.evu.current = none ∧
        (∀ c, t.evu.contrib.get c = none) ∧ t.evu.voteSum = 0 ∧
        t.evu.tail = (if 0 < s.tables.event.quietTail then some 0 else none) ∧
        findRecord t n = some r' ∧ r'.state = .closed ∧ r'.closed = some ⟨e.time, e.tq⟩ ∧
        r'.reason = some (r.reason.getD .normal) ∧ r'.declared = r.declared) ∧
   (∀ (n : Nat) (via : InstantStep) (e : Strobe) (item : SampleItem) (s : State),
      OneInstant via e item s →
      s.evu.phase = .idle → s.evu.tail = some n → NoDeclaration item s →
      s.tables.event.quietTail * s.sif.rate ≤ n + 1 →
      ∃ t, exec (.quietTailEnd via) s = .next t ∧ t.evu.tail = none ∧ quietHold t = false)

/-- In IDLE at step 4 of a batch (R67, R68, R69): with a vote sum below V nothing happens; at V an event is declared with the
next number. A full table first loses its oldest record that is neither held nor in progress. The record is OPEN with the
instant as declare time, its contributors are the channels with a contribution in order of their first trigger-ons, K13
counts, and A0, if enabled, is raised with the vote sum and the channels that vote.
A trigger-on in CLOSING (R71): a channel of weight 1 or more reopens an event that is not forced to close, with its number and
age, the post-event count stopped (0: log entry 35); no other does; the channel is among the contributors either way.
The pre-event span (R84): unless the WRITING segment reaches back over it, the newest completed segments become KEPT for the
event, as many as stand FREE, up to the first that reaches back to the span's start, and to the bound; the record counts
them from the oldest, and the event claims the WRITING segment. The kept budget has room. -/
def Obligations.DeclarationsReopeningsAndPreEventSpan : Prop :=
  (∀ (stamp : Stamp) (s : State), EventInv s → s.evu.phase = .idle →
    let n := s.evu.nextNumber
    let t := evaluatePhase stamp s
    (s.evu.voteSum < s.tables.event.threshold → t = s) ∧
    (s.tables.event.threshold ≤ s.evu.voteSum →
      t.evu.phase = .opened ∧ t.evu.current = some n ∧ t.evu.lastNumber = n ∧ t.evu.forced = false ∧ t.evu.age = 0 ∧
        t.evu.tail = none ∧ t.evu.contrib = s.evu.contrib ∧ t.cnt[13] = s.cnt[13] + 1 ∧
        1 ≤ t.evu.nextNumber ∧ t.evu.nextNumber ≤ 65535 ∧ (∀ r ∈ t.evu.table, r.number ≠ t.evu.nextNumber) ∧
        (s.evu.table.length < 12 → t.evu.table.map (·.number) = s.evu.table.map (·.number) ++ [n]) ∧
        (s.evu.table.length = 12 →
          ∃ l x l', s.evu.table = l ++ x :: l' ∧ x.state = .closed ∧ holdOf s x.number = none ∧
            (∀ y ∈ l, (holdOf s y.number).isSome = true) ∧
            t.evu.table.map (·.number) = (l ++ l').map (·.number) ++ [n]) ∧
        (∃ r, findRecord t n = some r ∧ r.state = .opened ∧ r.declared = stamp ∧ r.closed = none ∧ r.reason = none ∧
          r.strongMotion = false ∧ r.timeDegraded = (stamp.tq != .locked) ∧
          (r.blankedDuring = true ↔ ∃ c, 0 < (s.det.get c).blank) ∧
          (∀ c, (∃ x ∈ r.contributors, x.channel = c) ↔ (s.evu.contrib.get c).isSome = true) ∧
          (∀ x ∈ r.contributors, ∃ k, s.evu.contrib.get x.channel = some k ∧ x.firstOn = k.firstOn ∧ x.peak = k.peak ∧
            (s.evu.triggered.get x.channel = true → x.lastOff = none)) ∧
          r.contributors.Pairwise fun a b =>
            a.firstOn.time.units < b.firstOn.time.units ∨
              (a.firstOn.time.units = b.firstOn.time.units ∧ a.channel < b.channel)) ∧
        ((s.tables.alert.get 0).enable = true → t.cnt[17] = s.cnt[17] + 1 ∧
          (s.alu.queue.length < 12 →
            ∃ x ∈ t.alu.queue, ∃ voting, x.cls = 0 ∧ x.payload = some (.declared n stamp s.evu.voteSum voting) ∧
              ∀ c, voting.get c = true ↔ ∃ k, s.evu.contrib.get c = some k ∧ 1 ≤ k.weight)) ∧
        ((s.tables.alert.get 0).enable = false → t.alu = s.alu))) ∧
  (∀ (c : Fin 6) (stamp : Stamp) (n : Nat) (r : EventRecord) (s : State), s.evu.phase = .closing →
    s.evu.current = some n → findRecord s n = some r →
    let t := takeTriggerOn c stamp s
    let weight := (s.tables.channel.get c).weight
    t.evu.current = some n ∧ t.evu.age = s.evu.age ∧ t.evu.forced = s.evu.forced ∧ t.cnt = s.cnt ∧ t.alu = s.alu ∧
      t.evu.triggered.get c = true ∧
      (∃ k, t.evu.contrib.get c = some k ∧ k.weight = weight ∧ k.window = 0 ∧ k.lastOff = none) ∧
      (∃ r', findRecord t n = some r' ∧ (∃ x ∈ r'.contributors, x.channel = c ∧ x.lastOff = none) ∧
        r'.declared = r.declared ∧
        (s.evu.forced = false → 1 ≤ weight → t.evu.phase = .opened ∧ t.evu.post = 0 ∧ r'.state = .opened) ∧
        (s.evu.forced = true ∨ weight = 0 →
          t.evu.phase = .closing ∧ t.evu.post = s.evu.post ∧ r'.state = r.state))) ∧
  (∀ (n : Nat) (r : EventRecord) (declared : Time) (s : State), findRecord s n = some r →
    (∀ x ∈ s.wfs.segments, x.state = .kept → x.owner ≠ some n) →
    let pre := s.tables.event.preEvent
    let start : Int := (declared.label * 10000000 + declared.frac : Nat) - (pre * 10000000 : Nat)
    let bound := pre * s.sif.rate / 2048 + 1
    let completed := (segmentsWhere s fun x => x.order.isSome && x.state != .writing).reverse
    let covered := ∃ i ts, s.wfs.writer = some i ∧ (segmentAt s i).first = some ts ∧ (ts.units : Int) ≤ start
    keptCount s + bound ≤ 112 →
    let t := keepPreEvent n declared s
    t.wfs.claim = some n ∧
      ∃ k r', findRecord t n = some r' ∧ k ≤ bound ∧ k ≤ completed.length ∧ (covered → k = 0) ∧
        r'.wave = ⟨(completed.take k).getLast?.map (·.1), k, .kept⟩ ∧
        (∀ i, i < s.wfs.segments.length →
          (((segmentAt t i).state = .kept ∧ (segmentAt t i).owner = some n) ↔
            i ∈ (completed.take k).map (·.1))) ∧
        (∀ x ∈ completed.take k, x.2.state = .free) ∧
        (∀ x ∈ completed.take (k - 1), ∀ ts, x.2.first = some ts → start < ts.units) ∧
        (¬covered → k < bound → k < completed.length →
          (∃ x, completed[k]? = some x ∧ x.2.state ≠ .free) ∨
            (1 ≤ k ∧ ∃ x ts, completed[k - 1]? = some x ∧ x.2.first = some ts ∧ (ts.units : Int) ≤ start)))

/-! ### The waveform store (chapter 5) -/

/-- SEGMENT_COMPLETE: the frame that fills the WRITING segment completes it (R86). Without a claim it is FREE; with a claim
of an event whose waveform is KEPT and room in the budget it is KEPT for it, and the record counts it. At 112 KEPT segments
(R87) the oldest record that may be released loses its waveform, K16 counting, and the segment is KEPT; with none to release
the segment is FREE, the waveform is PARTIAL and truncated, K15 counts, and the claim ends. Each time, with a FREE segment to
take, the writer goes on to a new segment with the next start order (R83). -/
def Obligations.FullSegmentCompletes : Prop :=
  ∀ (i : Nat) (x : Segment) (after : Nat) (bytes : List Byte) (f : DigFrame) (e : Strobe) (rest : List Strobe) (s : State),
    FrontArrives bytes f e rest s →
    s.wfs.writer = some i → s.wfs.segments[i]? = some x → x.count = 2047 → x.state = .writing →
    x.order.isSome = true → s.wfs.nextOrder < 4294967295 → NoDeclaration (some (f.samples, f.clips)) s →
    (∃ y ∈ s.wfs.segments, y.state = .free) →
    ∃ t j, exec (.segmentComplete (.frame after bytes)) s = .next t ∧
      t.wfs.writer = some j ∧ (segmentAt t j).state = .writing ∧ (segmentAt t j).count = 0 ∧
      (segmentAt t j).order = some s.wfs.nextOrder ∧ t.wfs.nextOrder = s.wfs.nextOrder + 1 ∧
      (s.wfs.claim = none → j ≠ i → (segmentAt t i).state = .free ∧ (segmentAt t i).count = 2048) ∧
      (∀ n r, s.wfs.claim = some n → findRecord s n = some r → r.wave.state = .kept →
        (keptCount s < 112 →
          (segmentAt t i).state = .kept ∧ (segmentAt t i).owner = some n ∧ (segmentAt t i).count = 2048 ∧
            ∃ r', findRecord t n = some r' ∧ r'.wave.count = r.wave.count + 1 ∧ r'.wave.first.isSome = true) ∧
        (∀ q, 112 ≤ keptCount s → releasable n s = some q → (∀ m ∈ s.evu.current, m = n) →
          (segmentAt t i).state = .kept ∧ (segmentAt t i).owner = some n ∧ t.cnt[16] = s.cnt[16] + 1 ∧
            (∀ y ∈ t.wfs.segments, y.state = .kept → y.owner ≠ some q.number) ∧
            (∀ w ∈ t.wfs.job, w.event ≠ q.number) ∧
            ∃ q', findRecord t q.number = some q' ∧ q'.wave = ⟨none, 0, .lost⟩) ∧
        (112 ≤ keptCount s → releasable n s = none → (∀ m ∈ s.evu.current, m = n) →
          (segmentAt t i).state ≠ .kept ∧ t.cnt[15] = s.cnt[15] + 1 ∧ t.cnt[16] = s.cnt[16] ∧ t.wfs.claim ≠ some n ∧
            ∃ r', findRecord t n = some r' ∧ r'.truncated = true ∧ r'.wave = { r.wave with state := .partly }))

/-! ### Second ticks (chapters 2, 5, 6 and 7) -/

/-- SECOND_TICK: the label advances by one and every count of seconds with it: in TMB the edge age, the restart age, E in
HOLDOVER and DRIFTING, the refix counter, L1's on-time while it is ON and the locked time while TMB is LOCKED too; the holds in
WFS; in ALU the waits of SENT instances and the re-checks; the listen count in LNK; each held at its limit. In duty operation a
release at the tick sets on-time and locked time to 0 and reloads the refix counter, and LOCKED left for HOLDOVER sets the locked
time to 0. SIF, BMN, HZC, the tables and the detectors' averages stand.
A wait and a re-check that do not end at the tick lose one second: the re-check of a class without a pending instance, and the wait
of an instance in a queue with room for what the tick may raise.
HOLD_EXPIRY: the tick that takes a hold's last second ends it; the other holds run on, the record stays, and a
retrieval job on the event is cancelled.
LISTEN_PERIOD and LISTEN_WINDOW_END: at the tick at which the listen count reaches the period it returns to 0, with
LNK listening at every level; at the tick at which it reaches the window, at ESSENTIAL and SURVIVAL with the radio neither
WARMING nor READY, LNK stops listening. `u` is the state before what follows at once. -/
def Obligations.SecondTickAdvancesCountsAndEndsHolds : Prop :=
   (∀ s : State, PlainTick s →
      let on := (s.lda.loads.get 1).state = .on
      let onTime := if on then countedSecond s.tmb.onTime else s.tmb.onTime
      let lockedTime := if on ∧ s.tmb.tq = .locked then countedSecond s.tmb.lockedTime else s.tmb.lockedTime
      let released := s.tmb.way = some .duty ∧ on ∧
        (s.tables.time.minLockTime ≤ lockedTime ∨ s.tables.time.maxOnTime ≤ onTime)
      let unlocks := s.tmb.tq = .locked ∧ s.tables.time.holdoverTimeout ≤ min 65535 (s.tmb.edgeAge + 1)
      ∃ u t, exec .secondTick s = .next t ∧ t = settle u ∧
        (¬released → u.tmb.onTime = onTime ∧ u.tmb.lockedTime = (if unlocks then 0 else lockedTime) ∧
          t.tmb.refixCounter = s.tmb.refixCounter - 1) ∧
        (released → u.tmb.onTime = 0 ∧ u.tmb.lockedTime = 0 ∧ t.tmb.refixCounter = refixReload s) ∧
        (∀ cls n, 3 ≤ cls.val → s.alu.recheck.get cls = some n → 1 < n → classPending cls s = false →
          u.alu.recheck.get cls = some (n - 1)) ∧
        (let raises := 1 + (s.alu.recheck.toList.filter fun r => r.any fun n => decide (n ≤ 1)).length
         s.alu.queue.length + raises ≤ 12 →
          ∀ x ∈ s.alu.queue, x.state = .sent → 1 < x.wait →
            ∃ y ∈ u.alu.queue, y.id = x.id ∧ y.cls = x.cls ∧ y.order = x.order ∧ y.state = .sent ∧
              y.wait = x.wait - 1 ∧ y.sends = x.sends) ∧
        t.tmb.label = s.tmb.label + 1 ∧ t.tmb.edgeAge = min 65535 (s.tmb.edgeAge + 1) ∧
        t.tmb.restartAge = min 601 (s.tmb.restartAge + 1) ∧
        t.tmb.freq = s.tmb.freq ∧ t.tmb.message = s.tmb.message ∧
        ((s.tmb.tq = .holdover ∨ s.tmb.tq = .drifting) → t.tmb.err = grownError s) ∧
        ((s.tmb.tq = .unset ∨ s.tmb.tq = .coarse ∨ s.tmb.tq = .acquiring) → t.tmb.err = s.tmb.err ∧ t.tmb.tq = s.tmb.tq) ∧
        t.lnk.listenCount =
          (if s.tables.station.listenPeriod ≤ s.lnk.listenCount + 1 then 0 else s.lnk.listenCount + 1) ∧
        t.wfs.holds =
          ((s.wfs.holds.filter fun h => decide (1 < h.seconds)).map fun h => { h with seconds := h.seconds - 1 }) ∧
        t.wfs.segments = s.wfs.segments ∧ t.sif = s.sif ∧ t.bmn = s.bmn ∧ t.hzc = s.hzc ∧ t.cmd = s.cmd ∧
        t.tables = s.tables ∧ t.evu.phase = s.evu.phase ∧ t.evu.contrib = s.evu.contrib ∧
        (∀ c, (t.det.get c).sta = (s.det.get c).sta ∧ (t.det.get c).lta = (s.det.get c).lta ∧
          (t.det.get c).state = (s.det.get c).state)) ∧
   (∀ (n : BitVec 16) (s : State), PlainTick s → (holdOf s n.toNat).isSome = true →
      (∀ h ∈ s.wfs.holds, h.event = n.toNat → h.seconds ≤ 1) →
      ∃ t, exec (.holdExpiry n) s = .next t ∧ holdOf t n.toNat = none ∧
        t.wfs.holds =
          ((s.wfs.holds.filter fun h => decide (1 < h.seconds)).map fun h => { h with seconds := h.seconds - 1 }) ∧
        (findRecord t n.toNat).isSome = (findRecord s n.toNat).isSome ∧
        (∀ j ∈ t.wfs.job, j.event ≠ n.toNat)) ∧
   (∀ s : State, PlainTick s →
    (s.tables.station.listenPeriod ≤ s.lnk.listenCount + 1 → 1 ≤ s.tables.station.listenWindow →
      ∃ u, exec .listenPeriod s = .next (settle u) ∧ u.lnk.listenCount = 0 ∧ u.lnk.listening = true) ∧
      (s.lnk.listenCount + 1 = s.tables.station.listenWindow →
        s.tables.station.listenWindow < s.tables.station.listenPeriod →
        s.lnk.radio ≠ .warming → s.lnk.radio ≠ .ready →
        ∃ u, exec .listenWindowEnd s = .next (settle u) ∧ u.lnk.listenCount = s.tables.station.listenWindow ∧
          u.lnk.listening = !(s.atLevel .essential || s.atLevel .survival)))

/-- HOLDOVER_ENTRY, DRIFTING_ENTRY and RESTART_AGE_EXPIRY: LOCKED becomes HOLDOVER at the tick after which the edge age
meets the timeout, with E at the lock threshold; HOLDOVER becomes DRIFTING, with A3 true, at the tick after which E is above
the degrade bound; and the restart age above 600 makes A3 true in UNSET and COARSE.
HOLDOVER that begins at a tick is not judged against the degrade bound at that tick: THE MODEL'S CHOICE (log entry 11).
GNSS_SETTLED and DUTY_RELEASE: SETTLING ends at the tick at which the on-time meets the GNSS settle; in duty operation
the tick at which the locked time or the on-time meets its bound releases L1, which rests, reloads the refix counter, and
takes LOCKED to HOLDOVER. `u` is the state before what follows at once.
REFIX_REQUEST and REFIX_BOUND_CROSSED: in duty operation with L1 off, TMB requests it at the tick at which the refix
counter stands at 0, and at the tick at which E is above the bound with the trigger armed; the request waits for the arbiter
or is granted at once. -/
def Obligations.TickMovesTimeQualityAndReceiver : Prop :=
   (∀ s : State, PlainTick s →
      (s.tmb.tq = .locked → s.tables.time.holdoverTimeout ≤ s.tmb.edgeAge + 1 → s.tmb.edgeAge < 65535 →
        ∃ t, exec .holdoverEntry s = .next t ∧ t.tmb.tq = .holdover ∧ t.tmb.err = s.tables.time.lockThreshold ∧
          t.tmb.lockedTime = 0 ∧ t.tmb.freq = s.tmb.freq) ∧
        (s.tmb.tq = .holdover → s.tables.time.degradeBound < grownError s →
          ∃ t, exec .driftingEntry s = .next t ∧ t.tmb.tq = .drifting ∧ t.tmb.err = grownError s ∧ t.tmb.a3 = true) ∧
        ((s.tmb.tq = .unset ∨ s.tmb.tq = .coarse) → s.tmb.restartAge = 600 →
          ∃ t, exec .restartAgeExpiry s = .next t ∧ t.tmb.restartAge = 601 ∧ t.tmb.a3 = true ∧ t.tmb.tq = s.tmb.tq)) ∧
   (∀ s : State, PlainTick s → (s.lda.loads.get 1).state = .on →
      (s.tmb.gnss = .settling → s.tables.time.gnssSettle ≤ countedSecond s.tmb.onTime →
          (s.tmb.way = some .duty →
            countedSecond s.tmb.onTime < s.tables.time.maxOnTime ∧
              (if s.tmb.tq = .locked then countedSecond s.tmb.lockedTime else s.tmb.lockedTime) <
                s.tables.time.minLockTime) →
        ∃ u, exec .gnssSettled s = .next (settle u) ∧ u.tmb.gnss = .active ∧ u.tmb.onTime = countedSecond s.tmb.onTime) ∧
        (s.tmb.way = some .duty → 1 ≤ (s.tables.load.get 1).minRest →
          (s.tables.time.maxOnTime ≤ countedSecond s.tmb.onTime ∨
            (s.tmb.tq = .locked ∧ s.tables.time.minLockTime ≤ countedSecond s.tmb.lockedTime)) →
          ∃ t, exec .dutyRelease s = .next t ∧ (t.lda.loads.get 1).state = .resting ∧
            (t.lda.loads.get 1).rest = (s.tables.load.get 1).minRest * Config.second ∧ t.tmb.gnss = .off ∧
            t.tmb.onTime = 0 ∧ t.tmb.refixCounter = refixReload s ∧ (s.tmb.tq = .locked → t.tmb.tq = .holdover))) ∧
   (∀ s : State, PlainTick s → s.tmb.way = some .duty → (s.lda.loads.get 1).state = .off →
      (s.lda.loads.get 1).request = none →
      (s.tmb.refixCounter ≤ 1 →
        ∃ t, exec .refixRequest s = .next t ∧ t.tmb.refixCounter = 0 ∧
          ((t.lda.loads.get 1).state = .requested ∨ (t.lda.loads.get 1).state = .on)) ∧
        (s.tmb.refixArmed = true → (s.tmb.tq = .holdover ∨ s.tmb.tq = .drifting) →
          s.tables.time.refixBound < grownError s →
          ∃ t, exec .refixBoundCrossed s = .next t ∧ t.tmb.err = grownError s ∧
            ((t.lda.loads.get 1).state = .requested ∨ (t.lda.loads.get 1).state = .on)))

/-- RE_CHECK_END: at the tick at which a class's re-check runs out it stops, and ALU raises the class again if its recorded
condition is true and it is enabled, and raises nothing otherwise.
REPEAT_DUE: at the tick at which a SENT instance's wait reaches 0 it is due again, or, with its class's repeat limit met,
it leaves the queue, and a LEVEL one starts its class's re-check, which loses no second at that tick: THE MODEL'S CHOICE, since
ALU takes its re-checks before its waits (log entry 11). -/
def Obligations.TickRaisesAndRepeatsAlerts : Prop :=
   (∀ (cls : Fin 8) (n : Nat) (s : State), SteadyTick s → 3 ≤ cls.val → s.alu.recheck.get cls = some n → n ≤ 1 →
      s.alu.queue.length ≤ 7 → classPending cls s = false →
      ∃ t, exec (.reCheckEnd cls) s = .next t ∧ t.alu.recheck.get cls = none ∧
        classPending cls t = ((s.alu.conds.get cls).value && (s.tables.alert.get cls).enable)) ∧
   (∀ (x : AlertInstance) (id : Byte) (s : State), SteadyTick s → (∀ cls, s.alu.recheck.get cls = none) →
      s.alu.queue.Pairwise (fun a b => a.id ≠ b.id) → x ∈ s.alu.queue → x.id = id.toNat → x.state = .sent → x.wait = 1 →
      ∃ t, exec (.repeatDue id) s = .next t ∧
        ((s.tables.alert.get x.cls).limit = 0 ∨ x.sends < (s.tables.alert.get x.cls).limit →
          { x with wait := 0 } ∈ t.alu.queue ∧ AlertInstance.due { x with wait := 0 } = true) ∧
        (1 ≤ (s.tables.alert.get x.cls).limit → (s.tables.alert.get x.cls).limit ≤ x.sends →
          (∀ y ∈ t.alu.queue, y.id ≠ x.id) ∧
            ((s.tables.alert.get x.cls).mode = .level →
              t.alu.recheck.get x.cls = some (s.tables.alert.get x.cls).interval)))

/-- SECOND_TICK at the boundary into the target of one ARMED entry (R29, R31): the entry is FIRED and counts in K39 once. An
INSERT marks the second entered and suspends the label check; a DELETE enters the next label, a step that drops the slew and
marks the next strobe; a STEP moves station time by its amount from the boundary, 0 ms moving nothing, and one of a whole
second lands on a boundary with a tick of its own. An entry at the label that a DELETE enters fires at the same boundary.
After a STEP of +1,000 ms at the same target, an INSERT marks the second that the STEP left being entered, and a DELETE enters
the next. A DELETE has one tick in all, a STEP of 0 ms none of its own, and the label being entered is read as log entry 13
says (DEDUCED). That several seconds may stand marked at once, each run twice in its turn, that a backward STEP keeps a mark and
that a mark left behind is dropped is THE MODEL'S CHOICE (log entry 14): it is what the clauses on the marks of an INSERT, of
INSERT, STEP of -1,000 ms and INSERT at one boundary, and of a first run and a repeat rest on.
SECOND_TICK at the end of an inserted second's first run (R30): a tick, after which the same label runs again; at the end of
the repeat the label advances.
A step (R32): an ARMED entry whose target boundary lies strictly between the two times is MISSED, and neither counts nor
acts; every other entry stands. A firing and a miss queue the CORRECTION notice. -/
def Obligations.CorrectionEntriesFireOrAreMissed : Prop :=
  (∀ (i : Fin 3) (s : State), FiringTick i s →
    let e := s.tables.correction.get i
    let past := (runToStation Config.second s).tmb.ns - Config.second
    ∃ t, exec .secondTick s = .next t ∧
      t.tables.correction.get i = { e with status := .fired } ∧
      (∀ j, j ≠ i → t.tables.correction.get j = s.tables.correction.get j) ∧ t.cnt[39] = s.cnt[39] + 1 ∧
      (e.kind = .insert →
        t.tmb.label = s.tmb.label + 1 ∧ t.tmb.repeating = false ∧ t.tmb.suspension = some 3 ∧
          (∀ l, l ∈ t.tmb.marks ↔ l = s.tmb.label + 1 ∨ (l ∈ s.tmb.marks ∧ s.tmb.label + 1 ≤ l)) ∧
          t.tmb.stepMark = s.tmb.stepMark ∧ t.tmb.restartAge = min 601 (s.tmb.restartAge + 1)) ∧
      (e.kind = .delete →
        t.tmb.label = s.tmb.label + 2 ∧ t.tmb.ns = past ∧ t.tmb.slew = none ∧ t.tmb.stepMark = true ∧
          t.tmb.restartAge = min 601 (s.tmb.restartAge + 1)) ∧
      (e.kind = .step → -1000 ≤ e.amount → e.amount ≤ 1000 →
        t.tmb.slew = none ∧ t.tmb.stepMark = true ∧
          (t.tmb.label, t.tmb.ns) =
            (if e.amount = 1000 then (s.tmb.label + 2, past)
             else if 0 ≤ e.amount then (s.tmb.label + 1, e.amount.toNat * 1000000 + past)
             else (s.tmb.label, (1000 + e.amount).toNat * 1000000 + past)) ∧
          t.tmb.restartAge = min 601 (s.tmb.restartAge + if e.amount = 1000 ∨ e.amount = -1000 then 2 else 1))) ∧
  (∀ (i j : Fin 3) (s : State), s.supply = .on → NoInserted s.tmb → s.tmb.label + 2 ≤ Config.maxLabel → i ≠ j →
    (∀ k, (s.tables.correction.get k).status = .armed ↔ k = i ∨ k = j) →
    (s.tables.correction.get i).kind = .delete → (s.tables.correction.get i).target = s.tmb.label + 1 →
    (s.tables.correction.get j).kind = .insert → (s.tables.correction.get j).target = s.tmb.label + 2 →
    ∃ t, exec .secondTick s = .next t ∧ t.tmb.label = s.tmb.label + 2 ∧ t.tmb.marks = [s.tmb.label + 2] ∧ t.tmb.repeating = false ∧
      (t.tables.correction.get i).status = .fired ∧ (t.tables.correction.get j).status = .fired ∧
      t.cnt[39] = s.cnt[39] + 2 ∧ t.tmb.restartAge = min 601 (s.tmb.restartAge + 1)) ∧
  (∀ (i j : Fin 3) (s : State), s.supply = .on → NoInserted s.tmb → s.tmb.label + 3 ≤ Config.maxLabel → i < j →
    (∀ k, (s.tables.correction.get k).status = .armed ↔ k = i ∨ k = j) →
    (∀ k, k = i ∨ k = j → (s.tables.correction.get k).target = s.tmb.label + 1) →
    (s.tables.correction.get i).kind = .step → (s.tables.correction.get i).amount = 1000 →
    ∃ t, exec .secondTick s = .next t ∧ (t.tables.correction.get i).status = .fired ∧
      (t.tables.correction.get j).status = .fired ∧ t.cnt[39] = s.cnt[39] + 2 ∧
      ((s.tables.correction.get j).kind = .insert →
        t.tmb.label = s.tmb.label + 2 ∧ t.tmb.marks = [s.tmb.label + 2] ∧ t.tmb.repeating = false) ∧
      ((s.tables.correction.get j).kind = .delete → t.tmb.label = s.tmb.label + 3 ∧ NoInserted t.tmb)) ∧
  (∀ s : State, s.supply = .on → NoInserted s.tmb → s.tmb.label + 1 ≤ Config.maxLabel →
    (∀ i, (s.tables.correction.get i).status = .armed ∧ (s.tables.correction.get i).target = s.tmb.label + 1) →
    (s.tables.correction.get 0).kind = .insert → (s.tables.correction.get 1).kind = .step →
    (s.tables.correction.get 1).amount = -1000 → (s.tables.correction.get 2).kind = .insert →
    ∃ t, exec .secondTick s = .next t ∧ t.tmb.label = s.tmb.label ∧ t.tmb.marks = [s.tmb.label + 1, s.tmb.label] ∧
      t.tmb.repeating = false ∧ (∀ i, (t.tables.correction.get i).status = .fired) ∧ t.cnt[39] = s.cnt[39] + 3) ∧
  (∀ s : State, s.supply = .on → s.tmb.repeating = false → s.tmb.label ∈ s.tmb.marks →
    ∃ t, exec .secondTick s = .next t ∧ t.tmb.label = s.tmb.label ∧ t.tmb.repeating = true ∧
      (∀ l, l ∈ t.tmb.marks ↔ l ∈ s.tmb.marks ∧ l ≠ s.tmb.label) ∧
      t.tmb.edgeAge = min 65535 (s.tmb.edgeAge + 1) ∧ t.tmb.restartAge = min 601 (s.tmb.restartAge + 1) ∧
      t.tmb.suspension = s.tmb.suspension ∧ t.tables = s.tables ∧ t.cnt[39] = s.cnt[39]) ∧
  (∀ s : State, s.supply = .on → s.tmb.repeating = true → s.tmb.label < Config.maxLabel →
    (∀ i, (s.tables.correction.get i).status = .armed → (s.tables.correction.get i).target ≠ s.tmb.label + 1) →
    ∃ t, exec .secondTick s = .next t ∧ t.tmb.label = s.tmb.label + 1 ∧ t.tmb.repeating = false ∧
      ∀ l, l ∈ t.tmb.marks ↔ l ∈ s.tmb.marks ∧ s.tmb.label + 1 ≤ l) ∧
  (∀ (label ns : Nat) (i : Fin 3) (s : State), s.tmb.ns < Config.second → ns < Config.second →
    let e := s.tables.correction.get i
    let passed := e.status = .armed ∧ s.tmb.label * 1000000000 + s.tmb.ns < e.target * 1000000000 ∧
      e.target * 1000000000 < label * 1000000000 + ns
    let t := stepOver label ns s
    t.tmb.label = label ∧ t.tmb.ns = ns ∧ t.tmb.slew = none ∧ t.tmb.stepMark = true ∧ t.tmb.freq = s.tmb.freq ∧
      t.tmb.tq = s.tmb.tq ∧ t.cnt = s.cnt ∧
      (passed → t.tables.correction.get i = { e with status := .missed }) ∧
      (¬passed → t.tables.correction.get i = e)) ∧
  (∀ (i : Fin 3) (status : CorrectionStatus) (s : State),
    let e := s.tables.correction.get i
    (endEntry i status s).lnk.notices.getLast? =
      some ⟨.correction i e.kind e.target (status == .fired), 0, s.stampNow⟩)

/-! ### Time messages and PPS edges (chapter 2) -/

/-- TIME_MESSAGE: a message whose length and check are good becomes the pending one, whatever stood there, and its
satellite count is kept; any other leaves the pending message as it was.
PPS_EDGE turned away (R16): with L1 not ACTIVE, with no good message with fix valid pending, or outside the window in
LOCKED and HOLDOVER, the edge counts in K38, clears the pending message, and changes nothing else of TMB. -/
def Obligations.MessagesPendAndBadEdgesOnlyCount : Prop :=
   (∀ (after : Nat) (bytes : List Byte) (s : State), s.supply = .on →
      ∃ t, exec (.timeMessage after bytes) s = .next t ∧ t.tmb.tq = s.tmb.tq ∧ t.tmb.label = s.tmb.label ∧
        t.tmb.freq = s.tmb.freq ∧ t.sif = s.sif ∧ t.wfs = s.wfs ∧ t.alu = s.alu ∧ t.tables = s.tables ∧
        match decodeTimeMessage bytes with
        | some m => t.tmb.message = some m ∧ t.tmb.satellites = m.satellites
        | none => t.tmb.message = s.tmb.message ∧ t.tmb.satellites = s.tmb.satellites) ∧
   (∀ (after : Nat) (s : State), s.supply = .on →
      let v := passTime after s
      let e := phaseError (v.tmb.ns % Config.second)
      (s.tmb.gnss ≠ .active ∨ (∀ m ∈ s.tmb.message, m.fixValid = false) ∨
        ((s.tmb.tq = .locked ∨ s.tmb.tq = .holdover) ∧ s.tables.time.acceptWindow * 1000 < e.natAbs)) →
      exec (.ppsEdge after) s = .next (settle (count 38 (v.withTmb fun t => { t with message := none }))))

/-- The phase error (R15): for a time `ns` past a boundary, within −500,000,000…+499,999,999, the distance to the nearer
boundary, positive when station time is ahead; the edge label is that boundary's, away from the end of an inserted second's first run. -/
def Obligations.PhaseErrorIsToNearerBoundary : Prop :=
  ∀ (t : Tmb) (ns : Nat), ns < 1000000000 → t.label < Config.maxLabel → t.inFirstRun = false →
    -500000000 ≤ phaseError ns ∧ phaseError ns ≤ 499999999 ∧
      ((t.label : Int) * 1000000000 + ns) - (t.edgeLabel ns : Int) * 1000000000 = phaseError ns ∧
      (ns < 500000000 ↔ t.edgeLabel ns = t.label)

/-- PPS_EDGE accepted in LOCKED with the labels agreeing (R16, R17, R22, R27): F loses trunc(e × 100 / 2^ki) within its
clamp, a new slew of trunc(e / 2^kp) takes the place of any old one, the edge age is 0, the message is used up, K37 counts
one, and the state stays LOCKED up to the unlock threshold and is ACQUIRING above it.
An edge in ACQUIRING that is disciplined, with the labels agreeing (R21): the lock count rises by one within the lock
threshold and returns to 0 otherwise, and at the TIME lock count the state is LOCKED with the refix trigger armed.
An edge in HOLDOVER within the unlock threshold is disciplined and LOCKED again; one above it within the window, and any edge
in DRIFTING, is taken as in ACQUIRING from lock count 0 (R25); these are disciplined up to the step threshold. -/
def Obligations.DisciplinedEdgeMovesFrequencyAndLock : Prop :=
   (∀ (after : Nat) (m : TimeMessage) (s : State), s.supply = .on → s.tmb.gnss = .active → s.tmb.tq = .locked →
      let v := passTime after s
      let ns := v.tmb.ns % Config.second
      let e := phaseError ns
      s.tmb.message = some m → m.fixValid = true → e.natAbs ≤ s.tables.time.acceptWindow * 1000 →
      m.label = v.tmb.edgeLabel v.tmb.ns →
      ∃ t, exec (.ppsEdge after) s = .next t ∧
        t.tmb.freq = max (-500000) (min 500000 (s.tmb.freq - (e * 100).tdiv (2 ^ s.tables.time.ki))) ∧
        t.tmb.slew =
          (if e.tdiv (2 ^ s.tables.time.kp) = 0 then none else some ⟨e.tdiv (2 ^ s.tables.time.kp), 0⟩) ∧
        t.tmb.edgeAge = 0 ∧ t.tmb.message = none ∧ t.tmb.disCount = 0 ∧ t.cnt[37] = s.cnt[37] + 1 ∧
        t.cnt[39] = s.cnt[39] ∧ t.tmb.label = s.tmb.label ∧ t.tmb.ns = v.tmb.ns ∧
        (e.natAbs ≤ 4 * s.tables.time.lockThreshold → t.tmb.tq = .locked ∧ t.tmb.lockCount = s.tmb.lockCount) ∧
        (4 * s.tables.time.lockThreshold < e.natAbs → t.tmb.tq = .acquiring ∧ t.tmb.lockCount = 0)) ∧
   (∀ (after : Nat) (m : TimeMessage) (s : State), s.supply = .on → s.tmb.gnss = .active → s.tmb.tq = .acquiring →
      let v := passTime after s
      let ns := v.tmb.ns % Config.second
      let e := phaseError ns
      s.tmb.message = some m → m.fixValid = true → e.natAbs ≤ s.tables.time.stepThreshold →
      m.label = v.tmb.edgeLabel v.tmb.ns → 1 ≤ s.tables.time.lockCount →
      ∃ t, exec (.ppsEdge after) s = .next t ∧ t.tmb.err = 0 ∧ t.tmb.label = s.tmb.label ∧
        (s.tables.time.lockThreshold < e.natAbs → t.tmb.tq = .acquiring ∧ t.tmb.lockCount = 0) ∧
        (e.natAbs ≤ s.tables.time.lockThreshold →
          (s.tmb.lockCount + 1 < s.tables.time.lockCount →
            t.tmb.tq = .acquiring ∧ t.tmb.lockCount = s.tmb.lockCount + 1) ∧
          (s.tables.time.lockCount ≤ s.tmb.lockCount + 1 →
            t.tmb.tq = .locked ∧ t.tmb.lockCount = 0 ∧ t.tmb.lockedTime = 0 ∧ t.tmb.refixArmed = true))) ∧
   (∀ (after : Nat) (m : TimeMessage) (s : State), s.supply = .on → s.tmb.gnss = .active →
      let v := passTime after s
      let e := phaseError (v.tmb.ns % Config.second)
      let c := s.tables.time
      s.tmb.message = some m → m.fixValid = true →
      ∃ t, exec (.ppsEdge after) s = .next t ∧
        let disciplined :=
          t.tmb.freq = max (-500000) (min 500000 (s.tmb.freq - (e * 100).tdiv (2 ^ c.ki))) ∧
            t.tmb.slew = (if e.tdiv (2 ^ c.kp) = 0 then none else some ⟨e.tdiv (2 ^ c.kp), 0⟩) ∧
            t.tmb.err = 0 ∧ t.tmb.edgeAge = 0 ∧ t.tmb.disCount = 0 ∧ t.tmb.label = s.tmb.label ∧ t.tmb.ns = v.tmb.ns ∧
            t.cnt[37] = s.cnt[37] + 1 ∧ t.cnt[39] = s.cnt[39]
        (s.tmb.tq = .holdover → e.natAbs ≤ c.acceptWindow * 1000 → e.natAbs ≤ 4 * c.lockThreshold →
          disciplined ∧ t.tmb.tq = .locked ∧ t.tmb.lockCount = 0 ∧ t.tmb.lockedTime = 0 ∧ t.tmb.refixArmed = true) ∧
        ((s.tmb.tq = .drifting ∨
            (s.tmb.tq = .holdover ∧ e.natAbs ≤ c.acceptWindow * 1000 ∧ 4 * c.lockThreshold < e.natAbs)) →
          e.natAbs ≤ c.stepThreshold →
          disciplined ∧ t.tmb.tq = .acquiring ∧ t.tmb.lockCount = (if e.natAbs ≤ c.lockThreshold then 1 else 0)))

/-- PPS_EDGE accepted in UNSET or COARSE (R19, R18): station time is stepped to the message's label with fraction 0, the
state is ACQUIRING with lock count 0 and E 0, F stands, the step counts in K39, and the next strobe carries the step flag.
PPS_EDGE above the step threshold, in ACQUIRING with the labels agreeing, in DRIFTING, or in HOLDOVER within the window and
above the unlock threshold (R21, R25): station time is stepped to the edge label with fraction 0, with the same effects.
The label check (R27): at the third edge in turn with the same difference, in ACQUIRING or LOCKED, station time is stepped by
it in whole seconds, the fraction unchanged, and the count returns to 0. The step comes after the edge's discipline, whose slew
it abandons: log entry 13 (DEDUCED).
No ARMED correction entry stands in the way, and no second in its first run that is to run twice. -/
def Obligations.EdgesStepStationTime : Prop :=
  ∀ (after : Nat) (m : TimeMessage) (s : State), s.supply = .on → s.tmb.gnss = .active →
    s.tmb.message = some m → m.fixValid = true → s.tmb.inFirstRun = false →
    (∀ i, (s.tables.correction.get i).status ≠ .armed) →
    let v := passTime after s
    let e := phaseError (v.tmb.ns % Config.second)
    let c := s.tables.time
    let difference : Int := (m.label : Int) - v.tmb.edgeLabel v.tmb.ns
    ∃ t, exec (.ppsEdge after) s = .next t ∧
      let stepped (label ns : Nat) : Prop :=
        t.tmb.label = label ∧ t.tmb.ns = ns ∧ t.tmb.slew = none ∧ t.tmb.stepMark = true ∧
          t.tmb.strobeNext = alignUp (Config.second / s.sif.rate) ns ∧ t.tmb.disCount = 0 ∧
          t.cnt[37] = s.cnt[37] + 1 ∧ t.cnt[39] = s.cnt[39] + 1
      let begun : Prop := t.tmb.tq = .acquiring ∧ t.tmb.lockCount = 0 ∧ t.tmb.err = 0 ∧ t.tmb.freq = s.tmb.freq
      ((s.tmb.tq = .unset ∨ s.tmb.tq = .coarse) → stepped m.label 0 ∧ begun) ∧
        (c.stepThreshold < e.natAbs →
          (s.tmb.tq = .drifting ∨ (s.tmb.tq = .acquiring ∧ difference = 0) ∨
            (s.tmb.tq = .holdover ∧ e.natAbs ≤ c.acceptWindow * 1000 ∧ 4 * c.lockThreshold < e.natAbs)) →
          stepped (v.tmb.edgeLabel v.tmb.ns) 0 ∧ begun) ∧
        (difference ≠ 0 → s.tmb.disOffset = difference → s.tmb.disCount = 2 → s.tmb.suspension = none →
          ((s.tmb.tq = .acquiring ∧ e.natAbs ≤ c.stepThreshold) ∨
            (s.tmb.tq = .locked ∧ e.natAbs ≤ c.acceptWindow * 1000)) →
          ∀ label : Nat, (label : Int) = s.tmb.label + difference → label ≤ Config.maxLabel →
            stepped label v.tmb.ns)

/-! ### The link (chapter 7) -/

/-- The stream packer (R121 to R125). A delivered frame of good form, with the stream on: it opens a DATA frame with its own
time, quality, flags and the channels that stream, the gap flag from gap pending; or joins the open one; or, at a change of
quality or leap flag or with the step flag, closes it and opens the next. K frames close a DATA frame. With the stream off
nothing moves. A fault-flagged frame closes the open frame and sets gap pending.
The DATA queue: at 24 the oldest goes, K27 counts and the then oldest takes the gap flag. A write of the packing closes a
frame that already holds K; a write of a stream enable closes the open frame, and sets gap pending where none streamed before;
a rise from FULL drops the open frame and the queue without a count. -/
def Obligations.StreamPacksConsecutiveFrames : Prop :=
  (∀ (after : Nat) (bytes : List Byte) (f : DigFrame) (e : Strobe) (rest : List Strobe) (s : State),
    FrontArrives bytes f e rest s → s.lnk.dataQueue.length < 24 →
    let d : Delivered := ⟨e.seq, e.time, e.tq, e.stepFlag || s.sif.stepCarry, e.leapFlag, f.samples, f.clips, false⟩
    let on := s.bmn.formed = true ∧ s.bmn.shed = .full ∧ ∃ c, (s.tables.channel.get c).stream = true
    let k := s.tables.station.dataPacking
    let sample (mask : Six Bool) : StreamFrame :=
      ⟨(channels.filter mask.get).map d.samples.get, (channels.filter mask.get).map d.clips.get⟩
    let mask := s.tables.channel.map (·.stream)
    let fresh : DataFrame := ⟨d.time, d.tq, mask, [sample mask], s.lnk.gapPending, d.stepFlag, d.leapFlag⟩
    ∃ t, exec (.digitizerFrame after bytes) s = .next t ∧
      (¬on → t.lnk.openData = s.lnk.openData ∧ t.lnk.dataQueue = s.lnk.dataQueue ∧
        t.lnk.gapPending = s.lnk.gapPending) ∧
      (on → s.lnk.openData = none →
        t.lnk.gapPending = false ∧
          (2 ≤ k → t.lnk.openData = some fresh ∧ t.lnk.dataQueue = s.lnk.dataQueue) ∧
          (k ≤ 1 → t.lnk.openData = none ∧ t.lnk.dataQueue = s.lnk.dataQueue ++ [fresh])) ∧
      (∀ o, on → s.lnk.openData = some o →
        let more : DataFrame := { o with frames := o.frames ++ [sample o.mask] }
        let joins := d.tq = o.tq ∧ d.stepFlag = false ∧ d.leapFlag = o.leap
        (joins → t.lnk.gapPending = s.lnk.gapPending ∧
          (more.frames.length < k → t.lnk.openData = some more ∧ t.lnk.dataQueue = s.lnk.dataQueue) ∧
          (k ≤ more.frames.length → t.lnk.openData = none ∧ t.lnk.dataQueue = s.lnk.dataQueue ++ [more])) ∧
        (¬joins → 2 ≤ k → t.lnk.openData = some fresh ∧ t.lnk.gapPending = false ∧
          t.lnk.dataQueue = s.lnk.dataQueue ++ [o]))) ∧
  (∀ (after : Nat) (bytes : List Byte) (f : DigFrame) (e : Strobe) (rest : List Strobe) (s : State),
    FrontFrame bytes f e rest s → f.fault = true → streamOn s = true → s.lnk.dataQueue.length < 24 →
    ∃ t, exec (.digitizerFrame after bytes) s = .next t ∧ t.lnk.openData = none ∧ t.lnk.gapPending = true ∧
      t.lnk.dataQueue = s.lnk.dataQueue ++ s.lnk.openData.toList) ∧
  (∀ (f o next : DataFrame) (rest : List DataFrame) (s : State), s.lnk.dataQueue = o :: next :: rest → rest.length = 22 →
    (queueData f s).lnk.dataQueue = { next with gap := true } :: rest ++ [f] ∧
      (queueData f s).cnt[27] = s.cnt[27] + 1) ∧
  (∀ s : State, s.lnk.dataQueue.length < 24 →
    (∀ o, s.lnk.openData = some o →
      (s.tables.station.dataPacking ≤ o.frames.length →
        (closeFull s).lnk.openData = none ∧ (closeFull s).lnk.dataQueue = s.lnk.dataQueue ++ [o]) ∧
      (o.frames.length < s.tables.station.dataPacking → closeFull s = s)) ∧
    ∀ old : Six ChannelEntry,
      (old.map (·.stream) = s.tables.channel.map (·.stream) → streamWrite old s = s) ∧
        (old.map (·.stream) ≠ s.tables.channel.map (·.stream) →
          (streamWrite old s).lnk.openData = none ∧
            (streamWrite old s).lnk.dataQueue = s.lnk.dataQueue ++ s.lnk.openData.toList ∧
            ((∀ c, (old.get c).stream = false) → (streamWrite old s).lnk.gapPending = true) ∧
            ((∃ c, (old.get c).stream = true) → (streamWrite old s).lnk.gapPending = s.lnk.gapPending))) ∧
  (∀ s : State, s.atLevel .full = false →
    (lnkShed true s).lnk.openData = none ∧ (lnkShed true s).lnk.dataQueue = [] ∧
      (lnkShed true s).lnk.gapPending = true ∧ (lnkShed true s).cnt = s.cnt)

/-- FRAME_BEGIN: with the transmitter FREE and the radio READY, the first kind that has a ready frame supplies it, in the
order ALERT, REPLY, NOTICE, WAVE, DATA; the frame leaves its queue, the job advances past a WAVE frame it supplies (R94), and
the frame takes its line time, rounded up to whole ns: THE MODEL'S CHOICE (log entry 29). A job that a priority-1 alert
suspends is passed over, and a DATA frame goes. `u` is the state before what follows at once. -/
def Obligations.FrameBeginFollowsOrderOfKinds : Prop :=
  ∀ s : State, s.supply = .on → s.lnk.tx = none → s.lnk.radio = .ready → somethingReady s = true →
    ∃ u x, exec .frameBegin s = .next (settle u) ∧ u.lnk.tx = some x ∧ (settle u).lnk.tx = some x ∧
      x.left = ((x.frame.body.payload + 12) * 10 * 1000000000 + 115199) / 115200 ∧
      x.frame.address = s.lnk.address ∧ x.frame.broadcast = (x.frame.centre == 0) ∧
      match alertOffer s with
      | some a =>
        x.frame.kind = 3 ∧ x.frame.centre = (match a.pending with | [c] => c | _ => 0) ∧
          (∃ y ∈ u.alu.queue, y.id = a.id ∧ y.state = .sent ∧ y.sends = min 255 (a.sends + 1) ∧
            y.wait = (s.tables.alert.get a.cls).interval) ∧
          u.cnt[18] = s.cnt[18] + 1 ∧ u.lnk.replies = s.lnk.replies ∧ u.wfs = s.wfs ∧ u.lnk.dataQueue = s.lnk.dataQueue
      | none =>
        u.alu = s.alu ∧ u.cnt = s.cnt ∧
          match s.lnk.replies.head?.bind (fun p => p.reply.map fun r => (p, r)) with
          | some (p, r) =>
            x.frame.kind = 4 ∧ x.frame.centre = p.centre ∧ x.frame.tag = p.tag ∧ x.frame.body = .reply r ∧
              u.lnk.replies = s.lnk.replies.drop 1 ∧ u.lnk.notices = s.lnk.notices ∧ u.wfs = s.wfs ∧
              u.lnk.dataQueue = s.lnk.dataQueue
          | none =>
            u.lnk.replies = s.lnk.replies ∧
              match s.lnk.notices with
              | n :: rest =>
                x.frame.kind = 5 ∧ x.frame.centre = n.dest ∧ x.frame.body = .notice n ∧ u.lnk.notices = rest ∧
                  u.wfs = s.wfs ∧ u.lnk.dataQueue = s.lnk.dataQueue
              | [] =>
                match readyWave s, s.wfs.job with
                | some w, some j =>
                  let n := w.frames.length
                  let slots := ((keptOf s j.event)[j.nextSegment]?.map (·.2.count)).getD 0
                  x.frame.kind = 2 ∧ x.frame.centre = w.centre ∧ x.frame.tag = w.tag ∧ x.frame.body = .wave w ∧
                    x.frame.last = w.last ∧ x.frame.gap = w.gap ∧ x.frame.step = w.step ∧ x.frame.leap = w.leap ∧
                    u.lnk.dataQueue = s.lnk.dataQueue ∧ u.wfs.segments = s.wfs.segments ∧ u.wfs.holds = s.wfs.holds ∧
                    (j.left ≤ n → u.wfs.job = none) ∧
                    (n < j.left →
                      ∃ k, u.wfs.job = some k ∧ k.event = j.event ∧ k.centre = j.centre ∧ k.tag = j.tag ∧
                        k.sent = j.sent + n ∧ k.left = j.left - n ∧
                        (k.nextSegment, k.nextFrame) =
                          (if slots ≤ j.nextFrame + n then (j.nextSegment + 1, 0)
                           else (j.nextSegment, j.nextFrame + n)) ∧
                        k.ready.offset = k.nextSegment ∧ k.ready.index = k.nextFrame)
                | _, _ =>
                  x.frame.kind = 1 ∧ x.frame.centre = 0 ∧ x.frame.tag = 0 ∧
                    x.frame.body ∈ (s.lnk.dataQueue.head?.map UpBody.data) ∧
                    u.lnk.dataQueue = s.lnk.dataQueue.drop 1 ∧ u.wfs = s.wfs

/-- R120's law: whatever the command, no WAVE frame is begun while a priority-1 instance is in the Alert Queue. -/
def Obligations.NoWaveFrameBesidePriorityOne : Prop :=
  ∀ (c : Instr) (s t : State) (x : Sending),
    exec c s = .next t → s.lnk.tx = none → t.lnk.tx = some x → priorityOne s = true → x.frame.kind ≠ 2

/-- TRANSMISSION_COMPLETE, WARM_UP_EXPIRY and LINGER_EXPIRY: the frame's line time passes and K26 counts it, with the
transmitter FREE; the warm-up passes and the radio is READY; the linger passes and L0 is released, so that the radio is OFF.
`u` is the state before what follows at once. -/
def Obligations.TransmitterAndRadioTimersRunOut : Prop :=
  ∀ s : State, s.supply = .on →
    (∀ x, s.lnk.tx = some x →
      ∃ t, exec .transmissionComplete s = .next t ∧ t.lnk.tx = none ∧ t.cnt[26] = s.cnt[26] + 1 ∧
        t.osc = s.osc + x.left ∧ t.lnk.replies = s.lnk.replies ∧ t.alu = s.alu ∧ t.wfs = s.wfs) ∧
      (∀ n, s.lnk.radio = .warming → s.lnk.warmLeft = some n →
        ∃ u, exec .warmUpExpiry s = .next (settle u) ∧ u.lnk.radio = .ready ∧ u.lnk.warmLeft = none ∧
          u.osc = s.osc + n ∧ u.lnk.listening = true ∧ u.alu = s.alu) ∧
      (∀ n, s.lnk.lingerLeft = some n → (s.lda.loads.get 0).state = .on →
        ∃ u, exec .lingerExpiry s = .next (settle u) ∧ u.lnk.radio = .off ∧ u.lnk.lingerLeft = none ∧
          u.osc = s.osc + n ∧ (u.lda.loads.get 0).request = none ∧
          (u.lda.loads.get 0).state = (if (s.tables.load.get 0).minRest = 0 then .off else .resting) ∧
          (u.lda.loads.get 0).rest = (s.tables.load.get 0).minRest * Config.second)

/-- DOWNSTREAM_FRAME: the bytes of a whole frame that carries a command of the catalogue, sent to a part that hunts and
listens, bring about what CMD makes of that command (R132 to R136, R172): the line's form is read back to the command. The
bytes come at one moment (log entry 5). A whole frame that begins while LNK is not listening is lost to its last byte and
counts nowhere (R132).
RECEIVE_TIMEOUT and PAYLOAD_LENGTH_ABOVE_96: a frame in reception whose bytes stop for more than 20 ms, and a header
that names more than 96 bytes, are discarded; each counts in K25, and the receiver hunts again. No command is taken. -/
def Obligations.FramesOnTheLineAreTakenLostOrBroken : Prop :=
  (∀ (after : Nat) (straps : Byte) (h : LinkHeader) (c : Command) (s : State), s.supply = .on →
    s.lnk.receiver = .hunting → s.lnk.listening = true → c.fits = true → (encodeCommand c).length ≤ 96 → h.kind = 8 →
    h.length.toNat = (encodeCommand c).length → (h.station.toNat = s.lnk.address ∨ h.station.toNat = 65535) →
    ∃ u, exec (.downstreamFrame ⟨after, straps⟩ (encodeFrame h (encodeCommand c))) s =
        .next (settle (u.withLnk fun l => { l with rxLeft := receiveGap })) ∧
      u = settle (takeCommand straps h.centre h.tag (h.station.toNat == 65535) c (passTime after s)) ∧
      u.lnk.receiver = .hunting) ∧
  (∀ (after : Nat) (straps : Byte) (h : LinkHeader) (payload : List Byte) (s : State), s.supply = .on →
    s.lnk.receiver = .hunting → s.lnk.listening = false → payload.length ≤ 96 → h.length.toNat = payload.length →
    exec (.downstreamFrame ⟨after, straps⟩ (encodeFrame h payload)) s =
      .next (settle ((passTime after s).withLnk fun l => { l with rxLeft := receiveGap }))) ∧
  ∀ s : State, s.supply = .on →
    (inReception s = true →
      ∃ t, exec .receiveTimeout s = .next t ∧ t.lnk.receiver = .hunting ∧ t.cnt[25] = s.cnt[25] + 1 ∧
        t.cnt[22] = s.cnt[22] ∧ t.cnt[23] = s.cnt[23] ∧ t.osc = s.osc + s.lnk.rxLeft ∧ t.tables = s.tables ∧
        t.lnk.replies = s.lnk.replies) ∧
      ∀ (after : Nat) (h : LinkHeader), s.lnk.receiver = .hunting → s.lnk.listening = true → 96 < h.length.toNat →
        ∃ t, exec (.payloadLengthAbove96 after h) s = .next t ∧ t.lnk.receiver = .hunting ∧
          t.cnt[25] = s.cnt[25] + 1 ∧ t.cnt[22] = s.cnt[22] ∧ t.cnt[23] = s.cnt[23] ∧ t.tables = s.tables ∧
          t.lnk.replies = s.lnk.replies

/-! ### The battery (chapter 8) -/

/-- SCAN, away from V_cut, the rest estimate and the full voltage: the net charge of one second goes to Q and R (R141), the
gate follows R148's table, the SoC level R144's rule and the shed level is formed from it and the override (R147); the next
scan is 1,000 ms of oscillator time later.
FULL_RECALIBRATION, VOLTAGE_OVERRIDE and OVERRIDE_RELEASE: the 60th scan in turn at the full condition sets Q to the
capacity and R to 0; the tenth scan in turn below V_surv sets the override, and with it SURVIVAL at least; the 60th in turn
at or above V_surv + 500 mV releases it, and the SoC level alone forms the shed level. A tenth scan below V_surv that is the
fifth below V_cut too sets the override and reaches CUTOFF, which powers the part down (R145, R146).
Bad readings (R140), below the fifth scan of the cut count: a reading that is absent or outside its range leaves the value in
use through 60 bad scans, and the 61st, or the first of an input that has had no good one, makes the input faulty.
The rest estimate (R143): while it is pending, a scan whose V is good sets Q to the estimated part of the capacity and R to
0; one whose V is bad leaves Q and R; the count of charge waits. -/
def Obligations.ScanCountsChargeAndReachesItsEnds : Prop :=
   (∀ (x : MonitorInputs) (v i : Int) (s : State), s.supply = .on → x.v = some v → x.i = some i →
      0 ≤ v → v ≤ 32767 → -32768 ≤ i → i ≤ 32767 → (s.tables.battery.vCut : Int) ≤ v →
      v < s.tables.battery.fullVoltage → s.bmn.estPending = false →
      ∃ t, exec (.scan x) s = .next t ∧
        (t.bmn.q, t.bmn.r) =
          countCharge (s.tables.battery.capacity * 1000) s.bmn.q s.bmn.r
            (if i < 0 then i else i * s.tables.battery.efficiency / 100) ∧
        t.bmn.v = ⟨some v, 0, false⟩ ∧ t.bmn.i = ⟨some i, 0, false⟩ ∧ t.bmn.recal = 0 ∧ t.bmn.cut = 0 ∧
        t.bmn.gate =
          some (gateNext s.tables.battery.chargeMin s.tables.battery.chargeMax s.bmn.gate (t.bmn.temps.get 2).value) ∧
        t.bmn.soc = t.bmn.q * 1000 / (s.tables.battery.capacity * 1000) ∧
        t.bmn.socLevel = socLevelNext s.tables.battery t.bmn.soc s.bmn.socLevel ∧
        t.bmn.shed = formLevel t.bmn.socLevel t.bmn.override ∧ t.bmn.formed = true ∧
        t.bmn.nextScan = s.bmn.nextScan + 1000000000 ∧ t.osc = max s.osc s.bmn.nextScan ∧
        t.hzc.handed = some (t.bmn.temps.map (·.value)) ∧ t.tables = s.tables ∧ t.sif = s.sif ∧ t.wfs.holds = s.wfs.holds) ∧
   (∀ (x : MonitorInputs) (v i : Int) (s : State), s.supply = .on → x.v = some v → x.i = some i →
      0 ≤ v → v ≤ 32767 → -32768 ≤ i → i ≤ 32767 → (s.tables.battery.vCut : Int) ≤ v →
      (59 ≤ s.bmn.recal → (s.tables.battery.fullVoltage : Int) ≤ v → 0 ≤ i → i < s.tables.battery.taper →
        s.bmn.gate = some .opened →
        ∃ t, exec (.fullRecalibration x) s = .next t ∧ t.bmn.q = s.tables.battery.capacity * 1000 ∧ t.bmn.r = 0 ∧
          t.bmn.recal = 0 ∧ t.bmn.estPending = false) ∧
        (s.bmn.override = false → 9 ≤ s.bmn.low → v < s.tables.battery.vSurv →
          ∃ t, exec (.voltageOverride x) s = .next t ∧ t.bmn.override = true ∧ t.bmn.recovery = 0 ∧ t.bmn.low = 0 ∧
            3 ≤ t.bmn.shed.rank) ∧
        (s.bmn.override = true → 59 ≤ s.bmn.recovery → (s.tables.battery.vSurv : Int) + 500 ≤ v →
          ∃ t, exec (.overrideRelease x) s = .next t ∧ t.bmn.override = false ∧ t.bmn.recovery = 0 ∧
            t.bmn.shed = t.bmn.socLevel)) ∧
   (∀ (x : MonitorInputs) (v : Int) (s : State), s.supply = .on → x.v = some v → 0 ≤ v → v ≤ 32767 →
      v < s.tables.battery.vSurv → v < s.tables.battery.vCut → s.bmn.override = false → 9 ≤ s.bmn.low → 4 ≤ s.bmn.cut →
      overrideAtScan x s = true ∧
        ∃ t, exec (.voltageOverride x) s = .next t ∧ exec (.scan x) s = .next t ∧ t.supply = .cut) ∧
   (∀ (x : MonitorInputs) (s : State), s.supply = .on → s.bmn.cut ≤ 3 →
      let after (old : Reading) (lo hi : Int) (input : Option Int) : Reading :=
        match input with
        | some n =>
          if lo ≤ n ∧ n ≤ hi then ⟨some n, 0, false⟩
          else if 60 ≤ old.bad ∨ old.value = none then ⟨none, min 61 (old.bad + 1), true⟩
          else ⟨old.value, old.bad + 1, old.faulty⟩
        | none =>
          if 60 ≤ old.bad ∨ old.value = none then ⟨none, min 61 (old.bad + 1), true⟩
          else ⟨old.value, old.bad + 1, old.faulty⟩
      ∃ t, exec (.scan x) s = .next t ∧
        t.bmn.v = after s.bmn.v 0 32767 x.v ∧ t.bmn.i = after s.bmn.i (-32768) 32767 x.i ∧
        (∀ k, t.bmn.temps.get k = after (s.bmn.temps.get k) (-550) 1250 (x.temps.get k)) ∧
        (s.bmn.estPending = true →
          (∀ v, x.v = some v → 0 ≤ v → v ≤ 32767 → v < s.tables.battery.fullVoltage →
            t.bmn.q = s.tables.battery.capacity * 1000 * restEstimate s.tables.battery v / 1000 ∧ t.bmn.r = 0 ∧
              t.bmn.estPending = false ∧ t.bmn.soc = t.bmn.q * 1000 / (s.tables.battery.capacity * 1000)) ∧
          ((∀ v, x.v = some v → v < 0 ∨ 32767 < v) →
            t.bmn.q = s.bmn.q ∧ t.bmn.r = s.bmn.r ∧ t.bmn.estPending = true)))

/-- The charge count (R141): a net charge moves 3,600·Q + R by itself where no end of the range is met, and the result
stays in 0…full with R in 0…3,599.
The rest estimate (R143), for rest voltages in order: 0 permille at or below the first, 1,000 at or above the fifth, and
between two neighbours the floor of the line between their points.
The charge gate (R148), for limits in their BATTERY ranges: OPEN closes outside the limits, CLOSED opens 1.0 °C inside
them, a faulty sensor closes it, and the cause is the end that T2 lies beyond; the first scan is judged as from OPEN; the gate
does not change the counting of charge, and a closed one fails the full condition. -/
def Obligations.ChargeEstimateAndGateArithmetic : Prop :=
  (∀ (full q r : Nat) (net : Int), q ≤ full → r ≤ 3599 →
    let c := countCharge full q r net
    c.1 ≤ full ∧ c.2 ≤ 3599 ∧
      (0 ≤ (q * 3600 + r : Nat) + net → (q * 3600 + r : Nat) + net < ((full + 1) * 3600 : Nat) →
        (c.1 * 3600 + c.2 : Nat) = ((q * 3600 + r : Nat) : Int) + net) ∧
      ((q * 3600 + r : Nat) + net < 0 → c = (0, 0)) ∧
      (((full + 1) * 3600 : Nat) ≤ (q * 3600 + r : Nat) + net → c = (full, 0))) ∧
  (∀ (t : BatteryTable) (v : Int), t.rest0 < t.rest250 → t.rest250 < t.rest500 → t.rest500 < t.rest750 →
    t.rest750 < t.rest1000 →
    (v ≤ t.rest0 → restEstimate t v = 0) ∧ ((t.rest1000 : Int) ≤ v → restEstimate t v = 1000) ∧
      ∀ (base lo hi : Nat),
        (base, lo, hi) ∈ [(0, t.rest0, t.rest250), (250, t.rest250, t.rest500), (500, t.rest500, t.rest750),
          (750, t.rest750, t.rest1000)] →
        (lo : Int) ≤ v → v < hi →
        (restEstimate t v : Int) = base + 250 * (v - lo) / ((hi : Int) - lo) ∧ restEstimate t v ≤ base + 250) ∧
  (∀ (lo hi t : Int) (g : Option Gate) (cause : GateCause), lo ≤ 100 → 300 ≤ hi →
    gateNext lo hi g none = .closed .fault ∧
      (gateNext lo hi (some .opened) (some t) = .opened ↔ lo ≤ t ∧ t ≤ hi) ∧
      (gateNext lo hi (some .opened) (some t) = .closed .low ↔ t < lo) ∧
      (gateNext lo hi (some .opened) (some t) = .closed .high ↔ hi < t) ∧
      (gateNext lo hi (some (.closed cause)) (some t) = .opened ↔ lo + 10 ≤ t ∧ t ≤ hi - 10) ∧
      (gateNext lo hi (some (.closed cause)) (some t) = .closed .low ↔ t < lo + 10) ∧
      (gateNext lo hi (some (.closed cause)) (some t) = .closed .high ↔ hi - 10 < t) ∧
      gateNext lo hi none (some t) = gateNext lo hi (some .opened) (some t) ∧
      ∀ (b : BatteryTable) (x : MonitorInputs) (m : Bmn),
        (chargeStage b x { m with gate := g }).q = (chargeStage b x m).q ∧
          (chargeStage b x { m with gate := g }).r = (chargeStage b x m).r ∧
          fullCondition b x { m with gate := some (.closed cause) } = false)

/-- The SoC level's hysteresis (R144), for thresholds in order: a rise goes to the highest level whose threshold the SoC is
below; a fall ends at a level whose exit the SoC does not meet; each level is entered below its threshold and left at or above
its threshold plus the hysteresis. -/
def Obligations.SocLevelRisesAndFallsByItsThresholds : Prop :=
  ∀ (t : BatteryTable) (soc : Nat) (l : ShedLevel), t.s3 < t.s2 → t.s2 < t.s1 → l ≠ .cutoff →
    let n := socLevelNext t soc l
    n ≠ .cutoff ∧
      (l.rank < n.rank → soc < levelThreshold t n ∧
        ∀ m : ShedLevel, m ≠ .cutoff → n.rank < m.rank → levelThreshold t m ≤ soc) ∧
      (∀ m : ShedLevel, n.rank < m.rank → m.rank ≤ l.rank → levelThreshold t m + t.hysteresis ≤ soc) ∧
      (n ≠ .full → n.rank ≤ l.rank → soc < levelThreshold t n + t.hysteresis) ∧
      (n = l → ∀ m : ShedLevel, m ≠ .cutoff → l.rank < m.rank → levelThreshold t m ≤ soc)

/-- CUTOFF: the fifth scan in turn below V_cut powers the part down with the disconnect output asserted; every load is off,
the configuration image is kept, and no notice and no alert is left. Every later scan finds a part without supply: THE MODEL'S
CHOICE (log entry 15). -/
def Obligations.FifthScanBelowCutPowersDown : Prop :=
  ∀ (x : MonitorInputs) (v : Int) (s : State), s.supply = .on → x.v = some v → 0 ≤ v → v ≤ 32767 →
    v < s.tables.battery.vCut → 4 ≤ s.bmn.cut →
    ∃ t, exec (.cutoff x) s = .next t ∧ t.supply = .cut ∧ t.bmn.shed = .cutoff ∧ t.bmn.disconnect = true ∧
      t.image = s.image ∧ (∀ l, (t.lda.loads.get l).state = .off) ∧ t.lnk.notices = [] ∧ t.alu.queue = [] ∧
      t.lnk.tx = none ∧ (∀ c, exec (.scan c) t = .next t)

/-! ### The loads (chapter 9) -/

/-- SPACING_EXPIRY, INRUSH_AGE_EXPIRY, INRUSH_SUSPENSION_END and COLD_START_WAIT_END: oscillator time moves on to the first
spacing or inrush age that runs out; the suspension ends when no activation is younger than its window, with the stored limit
and window in force; the cold-start wait ends when the window in force at the moment has passed since the start (log entry 39: DEDUCED).
BURST_END and REST_END: the burst left passes and the heater is switched off, rests, and its group's channels are
blanked; the rest left passes and the load is REQUESTED with a remembered request and OFF without one (R153). `u` is the state
before what follows at once. -/
def Obligations.LoadWaitsBurstsAndRestsRunOut : Prop :=
   (∀ s : State, s.supply = .on →
      (spacingMoments s ≠ [] →
        ∃ t, exec .spacingExpiry s = .next t ∧ s.osc < t.osc ∧ t.osc ∈ spacingMoments s ∧
          ∀ m ∈ spacingMoments s, t.osc ≤ m) ∧
        (inrushMoments s ≠ [] →
          ∃ t, exec .inrushAgeExpiry s = .next t ∧ s.osc < t.osc ∧ t.osc ∈ inrushMoments s ∧
            ∀ m ∈ inrushMoments s, t.osc ≤ m) ∧
        (∀ w, s.lda.suspension = some w →
          ∃ t, exec .inrushSuspensionEnd s = .next t ∧ t.lda.suspension = none ∧
            t.lda.limit = s.tables.station.inrushLimit ∧ t.lda.window = s.tables.station.inrushWindow ∧
            s.osc ≤ t.osc ∧ ∀ a ∈ s.lda.record, a + w * 1000000000 ≤ t.osc) ∧
        (s.lda.coldWait = true →
          ∃ t, exec .coldStartWaitEnd s = .next t ∧ t.lda.coldWait = false ∧
            t.osc = max s.osc (s.lda.window * 1000000000))) ∧
   (∀ (l : Fin 8) (s : State), s.supply = .on →
      (2 ≤ l.val → (s.lda.loads.get l).state = .on → 1 ≤ (s.tables.load.get l).minRest →
        ∃ u, exec (.burstEnd l) s = .next (settle u) ∧ (u.lda.loads.get l).state = .resting ∧
          (u.lda.loads.get l).rest = (s.tables.load.get l).minRest * 1000000000 ∧ (u.lda.loads.get l).request = none ∧
          u.osc = s.osc + (s.lda.loads.get l).burst ∧ u.lda.record = s.lda.record ∧ u.lda.lastAct = s.lda.lastAct ∧
          ∀ c, (u.det.get c).blank =
            if (s.tables.channel.get c).mask.get (loadGroup l) then
              max (s.det.get c).blank (10 * (s.tables.load.get l).blanking)
            else (s.det.get c).blank) ∧
        ((s.lda.loads.get l).state = .resting →
          ∃ u, exec (.restEnd l) s = .next (settle u) ∧ (u.lda.loads.get l).rest = 0 ∧
            u.osc = s.osc + (s.lda.loads.get l).rest ∧
            (u.lda.loads.get l).state = (if (s.lda.loads.get l).remembered then .requested else .off) ∧
            ((s.lda.loads.get l).remembered = true → (u.lda.loads.get l).request = (s.lda.loads.get l).request ∧
              (u.lda.loads.get l).deferred = false)))

/-- The arbiter's choice (R155, R156): it grants a load exactly when one is eligible, and then the eligible load of highest
priority, the lowest number among equals.
A grant (R156, R158): the load is ON with no request, the activation joins the inrush record, which holds three at most,
both last activations are now, the load's counter counts, its group's channels are blanked, and a heater's burst is set: a
test's seconds, the whole length at FULL, half of it and at least 1 s above. -/
def Obligations.ArbiterGrantsHighestPriority : Prop :=
   (∀ s : State,
      (chosenLoad s = none ↔ ∀ l, eligible s l = false) ∧
        ∀ l, chosenLoad s = some l →
          eligible s l = true ∧
            ∀ l', eligible s l' = true →
              requestPriority s l < requestPriority s l' ∨
                (requestPriority s l = requestPriority s l' ∧ l ≤ l')) ∧
   (∀ (l : Fin 8) (s : State), s.lda.record.length ≤ 3 →
      let t := grant l s
      let x := t.lda.loads.get l
      x.state = .on ∧ x.request = none ∧ x.deferred = false ∧
        t.lda.record.length ≤ 3 ∧ t.lda.record.getLast? = some s.osc ∧ t.lda.lastAct = some s.osc ∧
        t.lda.lastGroup.get (loadGroup l) = some s.osc ∧
        (∀ k : Fin 40, t.cnt[k] = if k.val = 28 + l.val then s.cnt[k] + 1 else s.cnt[k]) ∧
        (∀ l', l' ≠ l → t.lda.loads.get l' = s.lda.loads.get l') ∧
        (∀ c, (t.det.get c).blank =
          if (s.tables.channel.get c).mask.get (loadGroup l) then
            max (s.det.get c).blank (10 * (s.tables.load.get l).blanking)
          else (s.det.get c).blank) ∧
        (2 ≤ l.val →
          x.burst =
            1000000000 *
              (match ((s.lda.loads.get l).request.map (·.source)).getD .hzc with
                | .test n => n
                | _ =>
                  if s.bmn.formed && s.bmn.shed == .full then (s.tables.load.get l).burst
                  else max 1 ((s.tables.load.get l).burst / 2))))

/-- R156's quiet-hold law: a heater that is switched on while the quiet hold is true had its zone below its critical floor at
the latest judgement. Every grant is made in settling.
R163: a zone that is marked critical was below its critical floor at its latest judgement. -/
def Obligations.QuietHoldBarsHeatersAboveTheirFloor : Prop :=
   (∀ (l : Fin 8) (z : Fin 6) (s : State), CriticalInv s → zoneOf l = some z → quietHold s = true →
      (s.lda.loads.get l).state ≠ .on → ((settle s).lda.loads.get l).state = .on →
      ∃ t, (s.hzc.zones.get z).temperature = some (some t) ∧ t < (s.tables.zone.get z).floor) ∧
   (∀ s t : State, CriticalInv s → step s = .next t → CriticalInv t)

/-- HZC's judgement of the zones (R163, R164): with the heater not enabled no demand and no critical mark; with a faulty
sensor neither; otherwise critical exactly below the critical floor, and demand by the effective setpoint of the level and
its hysteresis, with none at ESSENTIAL for a zone that is not essential.
A5 (R166): each zone newly below its floor, in zone order, and then each bound sensor newly faulty makes an onset, and the
recorded condition carries the last one; a clearing is reported when nothing is left, having been otherwise, and at the
first judgement; nothing new and something left reports nothing. That the zones' onsets come before the sensors' is THE MODEL'S CHOICE (log
entry 34).
At a judgement a heater that rests without a remembered request has HZC's request remembered while its zone has demand, and no
other load is touched (R165). -/
def Obligations.ZonesAreJudgedByLevelAndFloor : Prop :=
  ∀ (temps : Four (Option Int)) (s : State),
    let t := judgeZonesWith temps s
    let on (z : Fin 6) := (s.tables.load.get (heaterOf z)).enable
    (∀ z,
      let e := s.tables.zone.get z
      let x := t.hzc.zones.get z
      let effective : Int :=
        match s.bmn.shed with
        | .full => e.setpoint
        | .conserve | .essential => max (e.setpoint - s.tables.battery.heaterOffset) (e.floor + e.hysteresis)
        | .survival | .cutoff => e.floor + e.hysteresis
      (on z = false ∨ temps.get e.sensor = none → x.demand = false ∧ x.critical = false ∧ x.below = false) ∧
        ∀ v, on z = true → temps.get e.sensor = some v →
          x.temperature = some (some v) ∧ (x.critical = true ↔ v < e.floor) ∧ (x.below = true ↔ v < e.floor) ∧
            (x.demand = true ↔
              ¬(s.bmn.shed = .essential ∧ e.essential = false) ∧
                if (s.hzc.zones.get z).demand then v < effective else v < effective - e.hysteresis)) ∧
    (∀ k, t.hzc.faultySensors.get k = true ↔
      temps.get k = none ∧ ∃ z, on z = true ∧ (s.tables.zone.get z).sensor = k) ∧
    let zones := zonesInOrder.filter fun z => (t.hzc.zones.get z).below && !(s.hzc.zones.get z).below
    let sensors := [0, 1, 2, 3].filter fun k => t.hzc.faultySensors.get k && !s.hzc.faultySensors.get k
    let onsets : List AlertPayload :=
      (zones.map fun z => .temperature (.zone z) (temps.get (s.tables.zone.get z).sensor)) ++
        sensors.map fun k => .temperature (.sensor k) none
    let left := (∃ z, (t.hzc.zones.get z).below = true) ∨ ∃ k, t.hzc.faultySensors.get k = true
    (∀ p, onsets.getLast? = some p → t.hzc.a5 = true ∧ t.alu.conds.get 5 = ⟨true, some p⟩) ∧
      (¬left → (s.hzc.a5 = true ∨ s.hzc.handed = none) → t.hzc.a5 = false ∧ (t.alu.conds.get 5).value = false) ∧
      (onsets = [] → (left ∨ (s.hzc.a5 = false ∧ s.hzc.handed.isSome = true)) → t.hzc.a5 = s.hzc.a5 ∧ t.alu = s.alu) ∧
      t.hzc.handed = some temps ∧ t.lda = s.lda ∧ t.bmn = s.bmn ∧ t.tables = s.tables ∧
      let u := judgeAndRemember temps s
      { u with lda := t.lda } = t ∧ u.lda = { t.lda with loads := u.lda.loads } ∧
        u.lda.loads.get 0 = s.lda.loads.get 0 ∧ u.lda.loads.get 1 = s.lda.loads.get 1 ∧
        ∀ z,
          let x := s.lda.loads.get (heaterOf z)
          u.lda.loads.get (heaterOf z) =
            if (t.hzc.zones.get z).demand = true ∧ x.state = .resting ∧ x.remembered = false then
              { x with request := some hzcRequest, remembered := true }
            else x

/-! ### Commands from the centres (chapter 10, and chapters 4 to 6, 9 and 11) -/

/-- STATUS, TABLE_READ, COUNTER_READ, ALERT_LIST, EVENT_LIST and EVENT_READ: the reply carries what the rule names, and
nothing but the reply place and K22 is changed (R178, R180, R181, R189, R111). -/
def Obligations.ReadsAnswerAndChangeNothing : Prop :=
  ∀ (src : Sender) (table first count : Byte) (event : BitVec 16) (s : State), src.broadcast = false →
    Accepted src .status s →
    let v := arrived src s
    exec (.status src) s = .next (answered src .status .done (.status (statusReport v)) v) ∧
      (∀ id, tableOf table.toNat = some id → 1 ≤ count.toNat → first.toNat + count.toNat ≤ id.entries →
        exec (.tableRead src table first count) s =
          .next
            (answered src (.tableRead table.toNat first.toNat count.toNat) .done
              (.bytes
                ([table, first, count] ++
                  [if s.tables.station.sampleRate ≠ s.sif.rate then 1 else 0] ++
                  readEntries s.tables id first.toNat count.toNat))
              v)) ∧
      (1 ≤ count.toNat → first.toNat + count.toNat ≤ 40 →
        exec (.counterRead src first count) s =
          .next
            (answered src (.counterRead first.toNat count.toNat) .done
              (.bytes
                ([first, count] ++
                  (((s.cnt.toList.drop first.toNat).take count.toNat).map fun k => toBytes 4 k.toNat).flatten))
              v)) ∧
      exec (.alertList src) s =
        .next
          (answered src .alertList .done
            (.alerts (s.alu.queue.map fun x =>
              ⟨x.id, x.cls, x.priority, x.state, x.occurrences, x.sends, x.wait, x.cleared, x.pending⟩)) v) ∧
      exec (.eventList src) s =
        .next
          (answered src .eventList .done (.events (s.evu.table.map fun r => (r.number, r.state, r.wave.state))) v) ∧
      (∀ r, findRecord s event.toNat = some r →
        exec (.eventRead src event) s =
          .next (answered src (.eventRead event.toNat) .done (.record r (holdOf s event.toNat)) v))

/-- The ten TABLE_WRITE rows: entries that the addressing and the value policy pass are stored whole and come back as stored, CLAMPED if a value was replaced (R175 to R177); a broadcast does the same
without a reply (R135). Nothing else of the tables moves, and nothing of the sample path but what a CHANNEL write does. -/
def Obligations.TableWriteStoresJudgedEntries : Prop :=
  ∀ (id : TableId) (src : Sender) (first count : Byte) (entries : List Byte) (es : List Entry) (clamped : Bool)
    (s : State),
    let c : Command := .tableWrite id.number first.toNat count.toNat entries
    let v := arrived src s
    Accepted src c s → 1 ≤ count.toNat → first.toNat + count.toNat ≤ id.entries →
    entries.length = count.toNat * id.entrySize →
    judgeEntries id v.now.label first.toNat count.toNat entries = .ok (es, clamped) →
    ∃ t u, exec (writeRow id src first count entries) s = .next t ∧
      t = answered src c (if clamped then .clamped else .done)
        (.bytes ([BitVec.ofNat 8 id.number, first, count] ++ readEntries u.tables id first.toNat count.toNat)) u ∧
      t.tables = storeEntries first.toNat es s.tables ∧ u.tables = t.tables ∧
      t.sif = s.sif ∧ t.wfs.segments = s.wfs.segments ∧ t.wfs.holds = s.wfs.holds ∧ t.cmd = s.cmd ∧
      t.image = s.image ∧ t.cnt[22] = s.cnt[22] + 1 ∧ t.cnt[23] = s.cnt[23] ∧
      (id ≠ .channel → ∀ c, (t.det.get c).state = (s.det.get c).state ∧ (t.det.get c).sta = (s.det.get c).sta) ∧
      (id ≠ .battery → t.bmn = s.bmn)

/-- TABLE_WRITE and TABLE_READ turned away (R175 to R177): a number that names no table, BAD_TABLE; a count of 0 or an
index outside the table, BAD_INDEX; entries of another length, BAD_LENGTH; and of entries that the value policy refuses the
first one's reason with its index, nothing stored. BAD_VALUE for a yes/no field or an enumeration outside its set and for a
relation that the clamped values break; PAST for a CORRECTION target that is not in the future (R28).
The clamps: what is clamped stays as it is when it is clamped again, and holds the dependent limits and LOAD's least
priority; a sample rate becomes 100 below 150 and 200 otherwise. A CORRECTION entry that is stored is CLAMPED for an amount
outside -1000 to +1000 ms of kind NONE or STEP and for nothing else: an INSERT's or DELETE's amount is ignored (R176), and that
kind NONE's target, and its amount within the range, are no clamped values either is DEDUCED (log entry 32). -/
def Obligations.TableWritesAreRefusedOrClamped : Prop :=
  (∀ (id : TableId) (src : Sender) (first count : Byte) (entries : List Byte) (s : State),
    let c : Command := .tableWrite id.number first.toNat count.toNat entries
    let refused (r : Reason) (data : ReplyData) : Prop :=
      exec (writeRow id src first count entries) s = .next (answered src c (.refused r) data (arrived src s))
    Accepted src c s →
    if count.toNat = 0 ∨ id.entries < first.toNat + count.toNat then refused .badIndex .none
    else if entries.length ≠ count.toNat * id.entrySize then refused .badLength .none
    else
      ∀ k r, k < count.toNat →
        let entry (i : Nat) := (entries.drop (i * id.entrySize)).take id.entrySize
        judgeEntry id s.tmb.label (first.toNat + k) (entry k) = .error r →
        (∀ i, i < k → ∃ e, judgeEntry id s.tmb.label (first.toNat + i) (entry i) = .ok e) →
        refused r (.index (first.toNat + k))) ∧
  (∀ (src : Sender) (table first count : Byte) (s : State),
    let c : Command := .tableRead table.toNat first.toNat count.toNat
    Accepted src c s →
    (tableOf table.toNat = none →
      exec (.tableRead src table first count) s = .next (answered src c (.refused .badTable) .none (arrived src s))) ∧
    (∀ id, tableOf table.toNat = some id → count.toNat = 0 ∨ id.entries < first.toNat + count.toNat →
      exec (.tableRead src table first count) s = .next (answered src c (.refused .badIndex) .none (arrived src s)))) ∧
  (∀ (table first count centre : Nat) (tag : Byte) (entries : List Byte) (s : State), table = 0 ∨ 10 < table →
    let d := perform (.tableWrite table first count entries) centre tag s
    d.status = .refused .badTable ∧ d.data = .none ∧ d.state = s) ∧
  (∀ (id : TableId) (label i : Nat) (bs : List Byte),
    let set := ∀ p ∈ id.sets, natAt bs p.1 1 ≤ p.2
    let relations :=
      match clampEntry (decodeEntry id bs) with
      | .channel e => e.a + 3 ≤ e.b ∧ e.roff < e.ron
      | .battery e =>
        e.s2 < e.s1 ∧ e.s3 < e.s2 ∧ e.vCut < e.vSurv ∧ e.rest0 < e.rest250 ∧ e.rest250 < e.rest500 ∧
          e.rest500 < e.rest750 ∧ e.rest750 < e.rest1000
      | .alert e => i < 3 → e.mode = .edge
      | _ => True
    (judgeEntry id label i bs = .error .badValue ↔ ¬(set ∧ relations)) ∧
      (judgeEntry id label i bs = .error .past ↔
        set ∧ id = .correction ∧ 1 ≤ natAt bs 0 1 ∧ natAt bs 1 5 ≤ label) ∧
      ∀ e, judgeEntry id label i bs = .ok e → e = clampEntry (decodeEntry id bs)) ∧
  (∀ (id : TableId) (bs : List Byte),
    let e := clampEntry (decodeEntry id bs)
    clampEntry e = e ∧
      match e with
      | .station x => (x.sampleRate = if natAt bs 2 1 < 150 then 100 else 200) ∧ x.listenWindow ≤ x.listenPeriod
      | .time x => x.refixBound ≤ x.degradeBound
      | .load x => 2 ≤ x.priority
      | .zone x => x.floor ≤ x.setpoint - x.hysteresis
      | _ => True) ∧
  (∀ (label i : Nat) (bs : List Byte) (e : Entry), bs.length = 9 → judgeEntry .correction label i bs = .ok e →
    let code := natAt bs 0 1
    let amount := intAt bs 6 2
    (entryClamped i e bs = true ↔ (code = 0 ∨ code = 3) ∧ (amount < -1000 ∨ 1000 < amount)) ∧
      (code = 0 → e = .correction Defaults.correction))

/-- What stored entries do in their owning blocks at the write (R177). CHANNEL (R58, R59, R60): an enable starts an OFF
detector afresh, a disable makes it OFF, a change of a, b or h returns one that has had its first sample to WARMING, and any
other write leaves it.
ALERT (R113, R114, R115): a disable takes the class's instances and its re-check; an enable, or a change to LEVEL, raises a
standing condition of a LEVEL class that has no instance and no re-check; a change of mode sets or clears the cleared flag and
one to EDGE stops the re-check; the other fields wait.
BATTERY (R150): Q is held to a new capacity, R then 0; SoC and levels wait for the next scan. Inrush fields (R159): a change
begins a suspension for the longest window, with the old limit and window in force. The station address (R134). TIME (R34,
R38): the way of working L1 is judged, and F, the lock count and station time stand. LOAD of a heater, ZONE and BATTERY
(R163, R167, R169): the zones are judged from the temperatures last handed. LOAD priority (R154): refreshed in the requests. -/
def Obligations.StoredEntriesActInTheirBlocks : Prop :=
  (∀ (c : Fin 6) (old : ChannelEntry) (s : State),
    let new := s.tables.channel.get c
    let d := s.det.get c
    let x := (detWrite c old s).det.get c
    (new.enable = true → d.state = .off →
      x.state = .warming ∧ x.awaiting = true ∧ x.sta = 0 ∧ x.lta = 0 ∧ x.warm = 0 ∧ x.rearm = false ∧ x.timer = 0 ∧
        x.blank = d.blank) ∧
      (new.enable = false → d.state ≠ .off → x.state = .off ∧ x.sta = d.sta ∧ x.lta = d.lta ∧ x.blank = d.blank ∧
        (d.state = .triggered → (detWrite c old s).evu.triggered.get c = false)) ∧
      (new.enable = true → d.state ≠ .off → d.awaiting = false → (new.a ≠ old.a ∨ new.b ≠ old.b ∨ new.h ≠ old.h) →
        x.state = .warming ∧ x.warm = 0 ∧ x.rearm = false ∧ x.baseline = d.baseline ∧ x.sta = d.sta ∧ x.lta = d.lta ∧
          x.blank = d.blank) ∧
      (new.enable = true → d.state ≠ .off → new.a = old.a → new.b = old.b → new.h = old.h → x = d) ∧
      (new.enable = false → d.state = .off → x = d) ∧ ∀ c', c' ≠ c → (detWrite c old s).det.get c' = s.det.get c') ∧
  (∀ (cls : Fin 8) (old : AlertEntry) (s : State),
    let new := s.tables.alert.get cls
    let t := aluWrite cls old s
    let standing := (s.alu.conds.get cls).value = true ∧ classPending cls s = false ∧ s.alu.recheck.get cls = none
    let mark (f : AlertInstance → AlertInstance) : List AlertInstance :=
      s.alu.queue.map fun x => if x.cls = cls then f x else x
    (new.enable = false → old.enable = true →
      t.alu.queue = s.alu.queue.filter (fun x => x.cls != cls) ∧ t.alu.recheck.get cls = none ∧ t.cnt = s.cnt) ∧
    (new.enable = true → 3 ≤ cls.val → new.mode = .level → (old.enable = false ∨ old.mode = .edge) →
      (standing → t.cnt[17] = s.cnt[17] + 1 ∧ (s.alu.queue.length < 12 → classPending cls t = true)) ∧
      (¬standing → t.cnt = s.cnt ∧ t.alu.recheck = s.alu.recheck ∧
        t.alu.queue =
          (if old.enable then mark fun x => { x with cleared := !(s.alu.conds.get cls).value } else s.alu.queue))) ∧
    (new.enable = true → old.enable = true → 3 ≤ cls.val → old.mode = .level → new.mode = .edge →
      t.alu.queue = mark (fun x => { x with cleared := false }) ∧ t.alu.recheck.get cls = none ∧ t.cnt = s.cnt) ∧
    (new.enable = old.enable → new.mode = old.mode → t = s) ∧
    (new.enable = true → old.enable = false → new.mode = .edge → t = s) ∧ t.alu.conds = s.alu.conds) ∧
  (∀ s : State,
    let full := s.tables.battery.capacity * 1000
    let t := batteryWrite s
    (t.bmn.q, t.bmn.r) = (if full < s.bmn.q then (full, 0) else (s.bmn.q, s.bmn.r)) ∧
      t.bmn = { s.bmn with q := t.bmn.q, r := t.bmn.r }) ∧
  (∀ (old : StationTable) (s : State),
    let new := s.tables.station
    let t := inrushWrite old s
    (new.inrushLimit = old.inrushLimit → new.inrushWindow = old.inrushWindow → t = s) ∧
      (new.inrushLimit ≠ old.inrushLimit ∨ new.inrushWindow ≠ old.inrushWindow →
        t.lda = { s.lda with suspension := t.lda.suspension } ∧
          t.lda.suspension =
            some (match s.lda.suspension with
              | none => max s.lda.window new.inrushWindow
              | some w => max w new.inrushWindow) ∧
          ∀ l, eligible t l = false)) ∧
  (∀ (first n : Nat) (old : Tables) (s : State),
    (actWrite .station first n old s).lnk.address =
        (if s.tables.station.address ≠ 0 then s.tables.station.address
         else if s.straps = 0 then 65534 else s.straps.toNat) ∧
      (let t := actWrite .time first n old s
       t.tmb.way = wayNow s ∧ t.tmb.freq = s.tmb.freq ∧ t.tmb.lockCount = s.tmb.lockCount ∧ t.tmb.label = s.tmb.label ∧
         t.tmb.ns = s.tmb.ns ∧
         (s.tmb.way ≠ some .off → wayNow s = some .off →
           (s.lda.loads.get 1).state = .requested ∨ (s.lda.loads.get 1).state = .resting →
           (t.lda.loads.get 1).request = none)) ∧
      ∀ (id : TableId) (temps : Four (Option Int)), s.hzc.handed = some temps →
        (id = .zone ∨ id = .battery ∨ (id = .load ∧ 2 < first + n)) →
        ∀ z, (actWrite id first n old s).hzc.zones.get z = judgeZone s temps z) ∧
  (∀ (l : Fin 8) (s : State), l ≠ 0 → ∀ r, ((refreshRequests s).lda.loads.get l).request = some r →
    r.priority =
      match zoneOf l with
      | some z => if (s.hzc.zones.get z).critical then 1 else (s.tables.load.get l).priority
      | none => (s.tables.load.get l).priority)

/-- COUNTER_CLEAR (R190): a count of 0, or a first counter plus count above 40, is refused with BAD_INDEX and sets nothing;
otherwise the named counters are set to 0 and no other moves, and the reply gives the first counter and the count; the
command's own count in K22 is made after the clear; a broadcast is ignored and counts in K23. -/
def Obligations.CounterClearZeroesNamedCounters : Prop :=
  ∀ (src : Sender) (first count : Byte) (s : State),
    let c : Command := .counterClear first.toNat count.toNat
    (Accepted src c s → (count.toNat = 0 ∨ 40 < first.toNat + count.toNat) →
      exec (.counterClear src first count) s = .next (answered src c (.refused .badIndex) .none (arrived src s))) ∧
      (Accepted src c s → 1 ≤ count.toNat → first.toNat + count.toNat ≤ 40 →
        ∃ t u, exec (.counterClear src first count) s = .next t ∧
          t = answered src c .done (.bytes [first, count]) u ∧
          u = { arrived src s with cnt := u.cnt } ∧
          (∀ k : Fin 40, u.cnt[k] =
            if first.toNat ≤ k.val ∧ k.val < first.toNat + count.toNat then 0 else s.cnt[k]) ∧
          t.cnt[22] = u.cnt[22] + 1) ∧
      (s.supply = .on → 1 ≤ src.centre.toNat → src.centre.toNat ≤ 15 → src.broadcast = true →
        exec (.counterClear src first count) s = .next (settle (Sys2Proof.Machine.count 23 (passTime src.after s))))

/-- TIME_SET in UNSET and COARSE: station time reads the given value, the fraction held to 9,999,999 with CLAMPED, the state
is COARSE, the step counts in K39, and the next strobe carries the step flag; in every other state it is refused with
TIME_HELD and station time stands (R20, R18). No ARMED correction entry stands in the way. -/
def Obligations.TimeSetStepsOrIsHeld : Prop :=
  ∀ (src : Sender) (label : BitVec 40) (fraction : BitVec 24) (s : State),
    let c : Command := .timeSet label.toNat fraction.toNat
    Accepted src c s →
    ((s.tmb.tq = .unset ∨ s.tmb.tq = .coarse) → (∀ i, (s.tables.correction.get i).status ≠ .armed) →
      ∃ t u, exec (.timeSet src label fraction) s = .next t ∧
        t = answered src c (if 9999999 < fraction.toNat then .clamped else .done)
          (.time ⟨label.toNat, min 9999999 fraction.toNat⟩) u ∧
        t.tmb.label = label.toNat ∧ t.tmb.ns = min 9999999 fraction.toNat * 100 ∧ t.tmb.tq = .coarse ∧
        t.tmb.slew = none ∧ t.tmb.stepMark = true ∧ t.tmb.freq = s.tmb.freq ∧ t.cnt[39] = s.cnt[39] + 1 ∧
        t.cnt[22] = s.cnt[22] + 1) ∧
      (s.tmb.tq ≠ .unset → s.tmb.tq ≠ .coarse →
        exec (.timeSet src label fraction) s =
          .next (answered src c (.refused .timeHeld) .none (arrived src s)))

/-- ALERT_ACK: a pending destination is removed; the last one takes the instance out of the queue, K19 counting it, and a
LEVEL class's re-check starts; the instance of another destination stays as it is; a centre that is no destination, and an
id that no instance has, change nothing (R110). -/
def Obligations.AlertAckRemovesDestination : Prop :=
  ∀ (src : Sender) (id : Byte) (s : State),
    let c : Command := .alertAck id.toNat
    let centre := src.centre.toNat
    src.broadcast = false → Accepted src c s →
    s.alu.queue.Pairwise (fun a b => a.id ≠ b.id) →
    ((∀ x ∈ s.alu.queue, x.id ≠ id.toNat) →
      exec (.alertAck src id) s = .next (answered src c (.refused .noAlert) .none (arrived src s))) ∧
      ∀ x ∈ s.alu.queue, x.id = id.toNat →
        (centre ∉ x.pending →
          exec (.alertAck src id) s =
            .next (answered src c .done (.alertLeft id.toNat x.pending true) (arrived src s))) ∧
        (centre ∈ x.pending → (∀ d ∈ x.pending, d = centre) →
          ∃ t u, exec (.alertAck src id) s = .next t ∧ t = answered src c .done (.alertLeft id.toNat [] false) u ∧
            t.alu.queue = s.alu.queue.filter (fun y => y.id != x.id) ∧
            t.cnt[19] = s.cnt[19] + 1 ∧ t.cnt[22] = s.cnt[22] + 1 ∧
            t.alu.recheck =
              (if (s.tables.alert.get x.cls).mode = .level then
                s.alu.recheck.set x.cls (some (s.tables.alert.get x.cls).interval)
              else s.alu.recheck)) ∧
        (centre ∈ x.pending → (∃ d ∈ x.pending, d ≠ centre) →
          ∃ t u, exec (.alertAck src id) s = .next t ∧
            t = answered src c .done (.alertLeft id.toNat (x.pending.filter (· != centre)) false) u ∧
            t.alu.queue =
              (s.alu.queue.map fun y =>
                if y.id = x.id then { y with pending := x.pending.filter (· != centre) } else y) ∧
            t.cnt[19] = s.cnt[19] ∧ t.alu.recheck = s.alu.recheck)

/-- HOLD in the order of its table (R89): NO_EVENT, HELD with the owner, an owner's own hold lengthened, NO_WAVE, NO_ROOM,
and otherwise a hold for the duration, 1 to 240 minutes, with another centre's job on the event cancelled.
RELEASE (R90): NO_EVENT without a held record of that number, HELD with the owner for another centre, and otherwise the
hold leaves the list, a job on the event is cancelled, and the record stays. -/
def Obligations.HoldIsGrantedAndReleasedInOrder : Prop :=
   (∀ (src : Sender) (event : BitVec 16) (minutes : Byte) (s : State),
      let c : Command := .hold event.toNat minutes.toNat
      let n := event.toNat
      let centre := src.centre.toNat
      let m := max 1 (min 240 minutes.toNat)
      let status : ReplyStatus := if m = minutes.toNat then .done else .clamped
      src.broadcast = false → Accepted src c s →
      match findRecord s n with
      | none => exec (.hold src event minutes) s = .next (answered src c (.refused .noEvent) .none (arrived src s))
      | some r =>
        match holdOf s n with
        | some h =>
          if h.owner ≠ centre then
            exec (.hold src event minutes) s =
              .next (answered src c (.refused .held) (.owner h.owner) (arrived src s))
          else
            ∃ u, exec (.hold src event minutes) s =
                .next (answered src c status (.hold centre (max h.seconds (m * 60)) r.wave.state) u) ∧
              u.wfs.holds =
                s.wfs.holds.map (fun x => if x.event = n then { x with seconds := max h.seconds (m * 60) } else x) ∧
              u.wfs.job = s.wfs.job
        | none =>
          if r.wave.state = .lost then
            exec (.hold src event minutes) s = .next (answered src c (.refused .noWave) .none (arrived src s))
          else if 2 ≤ s.wfs.holds.length then
            exec (.hold src event minutes) s = .next (answered src c (.refused .noRoom) .none (arrived src s))
          else
            ∃ u, exec (.hold src event minutes) s =
                .next (answered src c status (.hold centre (m * 60) r.wave.state) u) ∧
              u.wfs.holds = s.wfs.holds ++ [⟨n, centre, m * 60⟩] ∧
              (∀ j ∈ u.wfs.job, j.event = n → j.centre = centre) ∧ u.evu = s.evu) ∧
   (∀ (src : Sender) (event : BitVec 16) (s : State),
      let c : Command := .release event.toNat
      let n := event.toNat
      src.broadcast = false → Accepted src c s →
      match findRecord s n, holdOf s n with
      | some _, some h =>
        if h.owner ≠ src.centre.toNat then
          exec (.release src event) s = .next (answered src c (.refused .held) (.owner h.owner) (arrived src s))
        else
          ∃ u, exec (.release src event) s = .next (answered src c .done .none u) ∧
            u.wfs.holds = s.wfs.holds.filter (fun x => x.event != n) ∧ holdOf u n = none ∧
            (∀ j ∈ u.wfs.job, j.event ≠ n) ∧ u.evu = s.evu ∧ u.wfs.segments = s.wfs.segments
      | _, _ => exec (.release src event) s = .next (answered src c (.refused .noEvent) .none (arrived src s)))

/-- WAVE_REQUEST that passes every finding of R92 starts the job: the asked segments of the event's waveform from the offset
on, all of them for a count of 0, every frame of them still to send, and the first WAVE frame formed.
WAVE_REQUEST turned away, in the order of R92's table: each finding changes nothing but the reply and K23. -/
def Obligations.WaveRequestStartsJobOrIsRefusedInOrder : Prop :=
   (∀ (src : Sender) (event : BitVec 16) (offset count : Byte) (r : EventRecord) (s : State),
      let c : Command := .waveRequest event.toNat offset.toNat count.toNat
      let n := event.toNat
      let kept := (keptOf s n).drop offset.toNat
      let taken := if count = 0 then kept else kept.take count.toNat
      let frames := (taken.map (·.2.count)).sum
      src.broadcast = false → Accepted src c s → s.wfs.job = none → s.atLevel .survival = false →
      findRecord s n = some r → r.state = .closed → r.wave.state ≠ .lost →
      (∀ h, holdOf s n = some h → h.owner = src.centre.toNat) → offset.toNat < (keptOf s n).length →
      ∃ t j, exec (.waveRequest src event offset count) s = .next t ∧ t.wfs.job = some j ∧ j.event = n ∧
        j.centre = src.centre.toNat ∧ j.tag = src.tag ∧ j.nextSegment = offset.toNat ∧ j.nextFrame = 0 ∧
        j.left = frames ∧ j.sent = 0 ∧ j.ready = formWave s n src.centre.toNat src.tag offset.toNat 0 frames ∧
        t.wfs.segments = s.wfs.segments ∧ t.wfs.holds = s.wfs.holds ∧ t.cnt[22] = s.cnt[22] + 1 ∧
        (t.lnk.replies.getLast?.bind (·.reply)) = some ⟨13, .done, .wave taken.length frames⟩) ∧
   (∀ (src : Sender) (event : BitVec 16) (offset count : Byte) (s : State),
      let c : Command := .waveRequest event.toNat offset.toNat count.toNat
      let answer (reason : Reason) (data : ReplyData) : Prop :=
        exec (.waveRequest src event offset count) s = .next (answered src c (.refused reason) data (arrived src s))
      src.broadcast = false → Accepted src c s →
      if s.wfs.job.isSome then answer .busy .none
      else if s.atLevel .survival then answer .shed .none
      else
        match findRecord s event.toNat with
        | none => answer .noEvent .none
        | some r =>
          if r.state ≠ .closed then answer .notClosed .none
          else if r.wave.state = .lost then answer .noWave .none
          else
            match holdOf s event.toNat with
            | some h =>
              if h.owner ≠ src.centre.toNat then answer .held (.owner h.owner)
              else (keptOf s event.toNat).length ≤ offset.toNat → answer .badIndex .none
            | none => (keptOf s event.toNat).length ≤ offset.toNat → answer .badIndex .none)

/-- WAVE_CANCEL carries no fields (R96): NO_EVENT with no job running, HELD with the requesting centre for another centre's
job, and otherwise the job is cancelled with cause CANCEL, which its requester hears with the frames sent. -/
def Obligations.WaveCancelEndsOwnJob : Prop :=
  ∀ (src : Sender) (s : State), src.broadcast = false → Accepted src .waveCancel s →
    match s.wfs.job with
    | none => exec (.waveCancel src) s = .next (answered src .waveCancel (.refused .noEvent) .none (arrived src s))
    | some j =>
      if j.centre ≠ src.centre.toNat then
        exec (.waveCancel src) s =
          .next (answered src .waveCancel (.refused .held) (.owner j.centre) (arrived src s))
      else
        ∃ u, exec (.waveCancel src) s = .next (answered src .waveCancel .done .none u) ∧ u.wfs.job = none ∧
          u.wfs.holds = s.wfs.holds ∧ u.wfs.segments = s.wfs.segments ∧
          (u.lnk.notices.getLast?.map fun n => (n.body, n.dest)) = some (.cancelled j.event .cancel j.sent, j.centre)

/-- LOAD_TEST: BAD_INDEX but for the heaters L2 to L7, BUSY for a heater that is not OFF, and otherwise a request with source
TEST for 1 to 60 seconds, at its current priority, that makes the heater REQUESTED (R168). The reply gives the load as the command left it, before the arbiter judges the new
request at once: THE MODEL'S CHOICE (log entry 7). -/
def Obligations.LoadTestPlacesTestRequest : Prop :=
  ∀ (src : Sender) (load seconds : Byte) (s : State),
    let c : Command := .loadTest load.toNat seconds.toNat
    let n := max 1 (min 60 seconds.toNat)
    src.broadcast = false → Accepted src c s →
    (load.toNat < 2 ∨ 7 < load.toNat →
      exec (.loadTest src load seconds) s = .next (answered src c (.refused .badIndex) .none (arrived src s))) ∧
      ∀ l : Fin 8, 2 ≤ l.val → l.val = load.toNat →
        ((s.lda.loads.get l).state ≠ .off →
          exec (.loadTest src load seconds) s = .next (answered src c (.refused .busy) .none (arrived src s))) ∧
        ((s.lda.loads.get l).state = .off →
          ∃ u, exec (.loadTest src load seconds) s =
              .next (answered src c (if n = seconds.toNat then .done else .clamped) (.load .requested n) u) ∧
            (u.lda.loads.get l).state = .requested ∧
            (∃ p k, (u.lda.loads.get l).request = some ⟨.test n, p, k⟩ ∧
              p = currentPriority u l ⟨.test n, p, k⟩ ∧ k = currentCritical u l) ∧
            u.evu = s.evu ∧ u.wfs = s.wfs ∧ u.alu = s.alu)

/-- SAVE, SAVE_COMPLETE and SAVE_NO_ANSWER (R184): SAVE forms the snapshot of the tables as stored and turns the job WRITING,
and is refused with BUSY while one is; the job ends IDLE with SAVE_DONE when the image read back is the snapshot, which is
then the image the memory holds, and with SAVE_FAILED otherwise, after which no good image is held. -/
def Obligations.SaveWritesSnapshotOfTables : Prop :=
  ∀ s : State, s.supply = .on →
    (∀ src : Sender, src.broadcast = false → Accepted src .save s →
      (s.cmd.save = none →
        ∃ t, exec (.save src) s = .next t ∧ t.cmd.save = some ⟨imageOf s.tables, src.centre.toNat, 0⟩ ∧
          t.tables = s.tables ∧ imageGood t.image = false ∧ t.cnt[22] = s.cnt[22] + 1 ∧
          (t.lnk.replies.getLast?.bind (·.reply)) = some ⟨16, .done, .none⟩) ∧
      (s.cmd.save.isSome = true →
        exec (.save src) s = .next (answered src .save (.refused .busy) .none (arrived src s)))) ∧
      ∀ j, s.cmd.save = some j →
        (∀ (after : Nat) (readBack : List Byte),
          ∃ u, exec (.saveComplete after readBack) s = .next (settle u) ∧ u.cmd.save = none ∧ u.tables = s.tables ∧
            (readBack = j.snapshot →
              u.image = ⟨j.snapshot, false⟩ ∧
                ∃ k, (u.lnk.notices.getLast?.map fun n => (n.body, n.dest)) =
                  some (.saveDone j.snapshot.length k, j.centre)) ∧
            (readBack ≠ j.snapshot →
              imageGood u.image = false ∧
                (u.lnk.notices.getLast?.map fun n => (n.body, n.dest)) = some (.saveFailed .mismatch, j.centre))) ∧
        ∀ after written : Nat,
          ∃ u, exec (.saveNoAnswer after written) s = .next (settle u) ∧ u.cmd.save = none ∧ u.tables = s.tables ∧
            imageGood u.image = false ∧
            (u.lnk.notices.getLast?.map fun n => (n.body, n.dest)) = some (.saveFailed .noAnswer, j.centre)

/-- A frame that CMD does not get (R126, R134, R135): a centre address of 0 or above 15 counts in K25, a broadcast of a kind
that is not taken in K23, and an addressed command that finds six reply places taken in K24; nothing else is done.
A command that ends REFUSED changed nothing (R173). -/
def Obligations.UntakenAndRefusedCommandsChangeNothing : Prop :=
   (∀ (straps centre tag : Byte) (broadcast : Bool) (c : Command) (s : State),
      (centre = 0 ∨ 15 < centre.toNat → takeCommand straps centre tag broadcast c s = count 25 s) ∧
        (1 ≤ centre.toNat → centre.toNat ≤ 15 →
          (broadcast = true → c.kind ≠ 2 → c.kind ≠ 6 → c.kind ≠ 17 → takeCommand straps centre tag broadcast c s = count 23 s) ∧
            (broadcast = false → 6 ≤ s.lnk.replies.length → takeCommand straps centre tag broadcast c s = count 24 s))) ∧
   (∀ (c : Command) (centre : Nat) (tag : Byte) (r : Reason) (s : State),
      (perform c centre tag s).status = .refused r → (perform c centre tag s).state = s)

/-- A count brings the counter to the next value, 4,294,967,295 wrapping to 0, and leaves every other counter; at exactly
3,758,096,384 with the counter's flag yes one COUNTER notice for any centre is queued, stamped now, and none otherwise
(R186, R187, R127). -/
def Obligations.CountingQueuesNoticeAtThreshold : Prop :=
  ∀ (k : Fin 40) (s : State), s.lnk.notices.length ≤ 8 →
    (∀ j : Fin 40, (count k s).cnt[j] = if j = k then s.cnt[k] + 1 else s.cnt[j]) ∧
      ((s.cnt[k]).toNat = 4294967295 → ((count k s).cnt[k]).toNat = 0) ∧
      (((s.cnt[k]).toNat + 1 = 3758096384 ∧ s.tables.countermask[k] = true) →
        (count k s).lnk.notices =
          (if s.lnk.notices.length = 8 then s.lnk.notices.drop 1 else s.lnk.notices) ++
            [⟨.counter k.val 3758096384, 0, s.stampNow⟩]) ∧
      (¬((s.cnt[k]).toNat + 1 = 3758096384 ∧ s.tables.countermask[k] = true) →
        (count k s).lnk.notices = s.lnk.notices)

/-! ### Alerts as one operation (chapter 6) -/

/-- A raise (R100, R101): K17 counts; with fewer than 12 instances the new one enters after the last of its priority or
higher; at 12 the newest of the lowest priority present gives way to a higher one, and otherwise the new one is dropped with
the next id and raise order unchanged; K21 counts a loss.
The place of a new instance (R101): the instances of its priority or higher that stood before it keep their order ahead
of it, those of lower priority stay behind.
A station-scope report (R99, R103, R104, R105): the condition is recorded with its payload. An onset folds into a pending
instance, raises one if the class is enabled with its re-check stopped, and otherwise raises nothing; a clearing marks a
pending instance of a LEVEL class and changes none of an EDGE class. -/
def Obligations.RaisesAndReportsKeepQueueOrder : Prop :=
   (∀ (cls : Fin 8) (payload : Option AlertPayload) (s : State), s.alu.queue.length ≤ 12 →
      let x := newInstance cls payload s
      let t := raiseAlert cls payload s
      t.cnt[17] = s.cnt[17] + 1 ∧
        (s.alu.queue.length < 12 →
          t.alu.queue = insertAlert x s.alu.queue ∧ t.cnt[21] = s.cnt[21] ∧ t.alu.recheck = s.alu.recheck) ∧
        (∀ last, s.alu.queue.length = 12 → s.alu.queue.getLast? = some last →
          t.cnt[21] = s.cnt[21] + 1 ∧
            (x.priority < last.priority →
              t.alu.queue = insertAlert x s.alu.queue.dropLast ∧ t.alu.nextOrder = raiseOrderAfter s.alu.nextOrder) ∧
            (last.priority ≤ x.priority →
              t.alu.queue = s.alu.queue ∧ t.alu.nextId = s.alu.nextId ∧ t.alu.nextOrder = s.alu.nextOrder))) ∧
   (∀ (x : AlertInstance) (q : List AlertInstance), q.Pairwise (fun a b => a.priority ≤ b.priority) →
      insertAlert x q =
        q.filter (fun y => decide (y.priority ≤ x.priority)) ++ [x] ++ q.filter (fun y => decide (x.priority < y.priority))) ∧
   (∀ (cls : Fin 8) (value : Bool) (p : AlertPayload) (s : State),
      let e := s.tables.alert.get cls
      let t := reportCondition cls value p s
      t.alu.conds.get cls = ⟨value, some p⟩ ∧
        (∀ c, c ≠ cls → t.alu.conds.get c = s.alu.conds.get c) ∧
        (value = true → classPending cls s = true →
          t.alu.queue =
            (s.alu.queue.map fun x =>
              if x.cls = cls then
                { x with occurrences := min 255 (x.occurrences + 1), payload := some p, cleared := false }
              else x) ∧ t.cnt = s.cnt) ∧
        (value = true → classPending cls s = false → e.enable = true → s.alu.recheck.get cls = none →
          t.cnt[17] = s.cnt[17] + 1 ∧ (s.alu.queue.length < 12 → classPending cls t = true)) ∧
        (value = true → classPending cls s = false → (e.enable = false ∨ (s.alu.recheck.get cls).isSome = true) →
          t.alu.queue = s.alu.queue ∧ t.cnt = s.cnt) ∧
        (value = false →
          t.cnt = s.cnt ∧
            t.alu.queue =
              (if e.mode = .level then s.alu.queue.map fun x => if x.cls = cls then { x with cleared := true } else x
               else s.alu.queue)))

/-! ### Invariants that every step keeps -/

/-- R1, R2, R4: the strobe list never holds more than four entries, its front entry never holds a frame, and its entries
bear the sequence numbers just given, in order.
R125 to R127: at most 6 reply places, 8 notices and 24 DATA frames. -/
def Obligations.StepKeepsStrobeListAndLinkQueues : Prop :=
   (∀ s t : State, s.sif.StrobesInv → s.sif.SequenceInv → step s = .next t → t.sif.StrobesInv ∧ t.sif.SequenceInv) ∧
   (∀ s t : State, QueuesBounded s → step s = .next t → QueuesBounded t)

/-- R42, R44: B stays in −2,147,483,648…2,147,483,392 and S and L in 0…4,294,967,040, whatever samples arrive.
R17: F stays within −500,000…+500,000 at all times.
R141's law: Q stays within 0…capacity × 1,000 and R within 0…3,599, through scans, recalibrations and writes of the
BATTERY entry alike. -/
def Obligations.StepKeepsDetectorFrequencyAndChargeRanges : Prop :=
   (∀ s t : State, DetectorRanges s → step s = .next t → DetectorRanges t) ∧
   (∀ s t : State, FreqInRange s → step s = .next t → FreqInRange t) ∧
   (∀ s t : State, ChargeInRange s → step s = .next t → ChargeInRange t)

/-- R67, R68, R89: at most one record is OPEN or CLOSING, exactly outside IDLE; twelve records and two holds at most, no
number twice, and every hold on a record that is still in the table. -/
def Obligations.StepKeepsEventTableAndHolds : Prop :=
  ∀ s t : State, EventInv s → step s = .next t → EventInv t

/-- R83, R85, R87: never more than 112 segments are KEPT, every KEPT one is counted in the waveform of its record, the
segment being written is not a KEPT one, and a claim beside an event in progress is that event's. -/
def Obligations.StepKeepsSegmentBudget : Prop :=
  ∀ s t : State, EventInv s → SegmentInv s → step s = .next t → SegmentInv t

/-- R100, R101: the Alert Queue holds at most 12 instances, in order of priority, and no two share an id.
R101's law, with R103 to R105: at most one instance of any station-scope class, and none while its re-check runs. -/
def Obligations.StepKeepsAlertQueueAndClasses : Prop :=
   (∀ s t : State, AlertQueueInv s.alu → step s = .next t → AlertQueueInv t.alu) ∧
   (∀ s t : State, AlertQueueInv s.alu → StationClassInv s.alu → step s = .next t → StationClassInv t.alu)

/-- R30: no mark of an inserted second lies behind station time, so each marked second that is not left runs twice. That a
forward step which leaves a marked second behind, in its first run or before it, drops the mark is THE MODEL'S CHOICE (log
entry 14).
R28, R29, R32: an ARMED correction entry's target is always still to come: whatever the crossings and steps, and however many
of them meet at one boundary, a target that station time reaches or passes is FIRED or MISSED there. -/
def Obligations.StepKeepsMarksAndArmedEntriesAhead : Prop :=
   (∀ s t : State, MarkAhead s.tmb → step s = .next t → MarkAhead t.tmb) ∧
   (∀ s t : State, ArmedAhead s → step s = .next t → ArmedAhead t)

/-- R156's law: no more activations younger than the inrush window than the inrush limit in force, across grants, writes of
the inrush fields and restarts.
R161's law: no load is ON at a shed level that does not permit it. -/
def Obligations.StepKeepsInrushLimitAndPermittedLoads : Prop :=
   (∀ s t : State, InrushInv s → step s = .next t → InrushInv t) ∧
   (∀ s t : State, OnlyPermittedOn s → step s = .next t → OnlyPermittedOn t)

/-- The state after reset meets every invariant above. -/
def Obligations.ResetMeetsEveryInvariant : Prop :=
  State.reset.sif.StrobesInv ∧ State.reset.sif.SequenceInv ∧ DetectorRanges State.reset ∧ FreqInRange State.reset ∧
    EventInv State.reset ∧ SegmentInv State.reset ∧ AlertQueueInv State.reset.alu ∧ StationClassInv State.reset.alu ∧
    QueuesBounded State.reset ∧ ChargeInRange State.reset ∧ InrushInv State.reset ∧ OnlyPermittedOn State.reset ∧
    CriticalInv State.reset ∧ MarkAhead State.reset.tmb ∧ ArmedAhead State.reset

/-! ### Encodings -/

/-- The command payloads of the catalogue (sections 10.1 and 10.2): CMD reads back every command whose fields fit.
The digitizer frame, the time message and the link header (section 1.2, R14, section 7.1): each is read back from its
bytes, with samples of 24 bits and a label of 40.
The table entries of section 10.3 (R174): an entry whose values stand within their ranges is read back from its bytes, has
the table's entry size, and passes the value policy as it is. A CORRECTION entry's
kind, target and amount are read back; its status is not carried (R28).
The configuration image (R183, R185): it has 358 bytes, is good, and gives back every table but CORRECTION, whose entries
are EMPTY. -/
def Obligations.FramesCommandsEntriesAndImageReadBack : Prop :=
  ((∀ c : Command, c.fits = true → c ≠ .emptyPayload → decodeCommand (encodeCommand c) = c) ∧
   ((∀ f : DigFrame, (∀ c, inSampleRange (f.samples.get c)) →
        (encodeDigFrame f).length = 22 ∧ decodeDigFrame (encodeDigFrame f) = some f) ∧
      (∀ m : TimeMessage, m.label < 2 ^ 40 → m.satellites < 256 →
        (encodeTimeMessage m).length = 9 ∧ decodeTimeMessage (encodeTimeMessage m) = some m) ∧
      ∀ (h : LinkHeader) (payload : List Byte),
        decodeHeader (encodeFrame h payload) = h ∧ checkGood (encodeFrame h payload) = true ∧
          field 10 payload.length (encodeFrame h payload) = payload)) ∧
  ((∀ (t : Tables) (id : TableId) (i label : Nat), id ≠ .correction → i < id.entries →
      let e := readEntry t id i
      clampEntry e = e →
      (encodeEntry i e).length = id.entrySize ∧ decodeEntry id (encodeEntry i e) = e ∧
        (relationsHold i e = true → judgeEntry id label i (encodeEntry i e) = .ok e ∧
          entryClamped i e (encodeEntry i e) = false)) ∧
   (∀ t : Tables,
      (∀ id i, id ≠ TableId.correction → i < id.entries → clampEntry (readEntry t id i) = readEntry t id i) →
      (imageOf t).length = 358 ∧ imageGood ⟨imageOf t, false⟩ = true ∧
        tablesOfImage (imageOf t) = { t with correction := Three.fill Defaults.correction })) ∧
  (∀ (e : CorrectionEntry) (i label : Nat), e.target < 2 ^ 40 → -32768 ≤ e.amount → e.amount ≤ 32767 →
    (encodeEntry i (.correction e)).length = 9 ∧
      decodeEntry .correction (encodeEntry i (.correction e)) = .correction { e with status := .empty } ∧
      (e.kind ≠ .none → e.status = .armed → clampEntry (.correction e) = .correction e → label < e.target →
        judgeEntry .correction label i (encodeEntry i (.correction e)) = .ok (.correction e)))
end

