-- ==== Sys2Proof/Laws/Encoding.lean ====
section
/-!
SUPPORT. The laws of the byte layouts' parts: numbers of one to five bytes, two's complement, flag bytes and the frame
check are read back from the bytes that were written.
-/

namespace Sys2Proof

@[simp] theorem toBytes_length (n v : Nat) : (toBytes n v).length = n := by
  induction n with
  | zero => rfl
  | succ n ih => simp [toBytes, ih]

theorem beNat_cons (b : Byte) (bs : List Byte) : beNat (b :: bs) = b.toNat * 256 ^ bs.length + beNat bs := by
  have h : ∀ (bs : List Byte) (a : Nat),
      bs.foldl (fun acc b => acc * 256 + b.toNat) a = a * 256 ^ bs.length + beNat bs := by
    intro bs
    induction bs with
    | nil => simp [beNat]
    | cons c cs ih =>
      intro a
      simp only [beNat, List.foldl_cons, List.length_cons] at ih ⊢
      rw [ih, ih (0 * 256 + c.toNat)]
      ring
  simpa [beNat] using h bs b.toNat

/-- What a number of `n` bytes reads back as. -/
theorem beNat_toBytes (n v : Nat) : beNat (toBytes n v) = v % 256 ^ n := by
  induction n with
  | zero => simp [toBytes, beNat, Nat.mod_one]
  | succ n ih =>
    have h : v % 256 ^ (n + 1) = v % 256 ^ n + 256 ^ n * (v / 256 ^ n % 256) := by rw [pow_succ, Nat.mod_mul]
    have e : (BitVec.ofNat 8 (v / 256 ^ n)).toNat = v / 256 ^ n % 256 := BitVec.toNat_ofNat ..
    rw [toBytes, beNat_cons, ih, toBytes_length, h, e]
    ring

theorem beNat_toBytes_of_lt {n v : Nat} (h : v < 256 ^ n) : beNat (toBytes n v) = v := by
  rw [beNat_toBytes, Nat.mod_eq_of_lt h]

/-- Two's complement of `n` bytes, for a value within its range. -/
theorem beInt_intBytes {n : Nat} {v : Int} (lo : -((256 ^ n / 2 : Nat) : Int) ≤ v) (hi : v < ((256 ^ n / 2 : Nat) : Int)) :
    beInt (intBytes n v) = v := by
  have hp : 0 < 256 ^ n := Nat.pow_pos (by decide)
  have hz : 0 ≤ v % ((256 ^ n : Nat) : Int) := Int.emod_nonneg _ (by omega)
  have hl : v % ((256 ^ n : Nat) : Int) < ((256 ^ n : Nat) : Int) := Int.emod_lt_of_pos _ (by omega)
  have hb : beNat (intBytes n v) = (v % ((256 ^ n : Nat) : Int)).toNat := by
    rw [intBytes, beNat_toBytes, Nat.mod_eq_of_lt (by omega)]
  have hn : (intBytes n v).length = n := by simp [intBytes]
  unfold beInt
  rw [hb, hn]
  dsimp only
  by_cases h : 0 ≤ v
  · have e : v % ((256 ^ n : Nat) : Int) = v := Int.emod_eq_of_lt h (by omega)
    rw [e, if_pos (by omega)]
    omega
  · have e : v % ((256 ^ n : Nat) : Int) = v + ((256 ^ n : Nat) : Int) := by
      rw [← Int.add_emod_right]
      exact Int.emod_eq_of_lt (by omega) (by omega)
    rw [e]
    split <;> omega

@[simp] theorem intBytes_length (n : Nat) (v : Int) : (intBytes n v).length = n := by simp [intBytes]

/-- A run of bytes with its check has a good check (Conventions, Frame check). -/
@[simp] theorem checkGood_withCheck (bs : List Byte) : checkGood (withCheck bs) = true := by
  have h : (crc16 bs).toNat < 256 ^ 2 := (crc16 bs).isLt
  simp [checkGood, withCheck, beNat_toBytes_of_lt h]

theorem withCheck_length (bs : List Byte) : (withCheck bs).length = bs.length + 2 := by simp [withCheck]

/-- A field that lies within the first of two runs. -/
theorem field_append_left {i n : Nat} {as bs : List Byte} (h : i + n ≤ as.length) :
    field i n (as ++ bs) = field i n as := by
  rw [field, field, List.drop_append_of_le_length (by omega), List.take_append_of_le_length (by simp; omega)]

/-- A field that is a run in the middle. -/
theorem field_middle (as bs cs : List Byte) : field as.length bs.length (as ++ (bs ++ cs)) = bs := by
  simp [field]

end Sys2Proof
end

