-- ==== Sys2Proof/Laws/State.lean ====
section
/-!
SUPPORT. One lemma per field per update of State: each is true by rfl, so that no later proof unfolds a record update.
-/

namespace Sys2Proof.Machine

@[simp] theorem State.withSif_supply (s : State) (f : Sif → Sif) : (s.withSif f).supply = s.supply := rfl
@[simp] theorem State.withSif_osc (s : State) (f : Sif → Sif) : (s.withSif f).osc = s.osc := rfl
@[simp] theorem State.withSif_straps (s : State) (f : Sif → Sif) : (s.withSif f).straps = s.straps := rfl
@[simp] theorem State.withSif_sif (s : State) (f : Sif → Sif) : (s.withSif f).sif = f s.sif := rfl
@[simp] theorem State.withSif_tmb (s : State) (f : Sif → Sif) : (s.withSif f).tmb = s.tmb := rfl
@[simp] theorem State.withSif_det (s : State) (f : Sif → Sif) : (s.withSif f).det = s.det := rfl
@[simp] theorem State.withSif_evu (s : State) (f : Sif → Sif) : (s.withSif f).evu = s.evu := rfl
@[simp] theorem State.withSif_wfs (s : State) (f : Sif → Sif) : (s.withSif f).wfs = s.wfs := rfl
@[simp] theorem State.withSif_alu (s : State) (f : Sif → Sif) : (s.withSif f).alu = s.alu := rfl
@[simp] theorem State.withSif_lnk (s : State) (f : Sif → Sif) : (s.withSif f).lnk = s.lnk := rfl
@[simp] theorem State.withSif_bmn (s : State) (f : Sif → Sif) : (s.withSif f).bmn = s.bmn := rfl
@[simp] theorem State.withSif_lda (s : State) (f : Sif → Sif) : (s.withSif f).lda = s.lda := rfl
@[simp] theorem State.withSif_hzc (s : State) (f : Sif → Sif) : (s.withSif f).hzc = s.hzc := rfl
@[simp] theorem State.withSif_cmd (s : State) (f : Sif → Sif) : (s.withSif f).cmd = s.cmd := rfl
@[simp] theorem State.withSif_cnt (s : State) (f : Sif → Sif) : (s.withSif f).cnt = s.cnt := rfl
@[simp] theorem State.withSif_tables (s : State) (f : Sif → Sif) : (s.withSif f).tables = s.tables := rfl
@[simp] theorem State.withSif_image (s : State) (f : Sif → Sif) : (s.withSif f).image = s.image := rfl
@[simp] theorem State.withSif_pending (s : State) (f : Sif → Sif) : (s.withSif f).pending = s.pending := rfl

@[simp] theorem State.withTmb_supply (s : State) (f : Tmb → Tmb) : (s.withTmb f).supply = s.supply := rfl
@[simp] theorem State.withTmb_osc (s : State) (f : Tmb → Tmb) : (s.withTmb f).osc = s.osc := rfl
@[simp] theorem State.withTmb_straps (s : State) (f : Tmb → Tmb) : (s.withTmb f).straps = s.straps := rfl
@[simp] theorem State.withTmb_sif (s : State) (f : Tmb → Tmb) : (s.withTmb f).sif = s.sif := rfl
@[simp] theorem State.withTmb_tmb (s : State) (f : Tmb → Tmb) : (s.withTmb f).tmb = f s.tmb := rfl
@[simp] theorem State.withTmb_det (s : State) (f : Tmb → Tmb) : (s.withTmb f).det = s.det := rfl
@[simp] theorem State.withTmb_evu (s : State) (f : Tmb → Tmb) : (s.withTmb f).evu = s.evu := rfl
@[simp] theorem State.withTmb_wfs (s : State) (f : Tmb → Tmb) : (s.withTmb f).wfs = s.wfs := rfl
@[simp] theorem State.withTmb_alu (s : State) (f : Tmb → Tmb) : (s.withTmb f).alu = s.alu := rfl
@[simp] theorem State.withTmb_lnk (s : State) (f : Tmb → Tmb) : (s.withTmb f).lnk = s.lnk := rfl
@[simp] theorem State.withTmb_bmn (s : State) (f : Tmb → Tmb) : (s.withTmb f).bmn = s.bmn := rfl
@[simp] theorem State.withTmb_lda (s : State) (f : Tmb → Tmb) : (s.withTmb f).lda = s.lda := rfl
@[simp] theorem State.withTmb_hzc (s : State) (f : Tmb → Tmb) : (s.withTmb f).hzc = s.hzc := rfl
@[simp] theorem State.withTmb_cmd (s : State) (f : Tmb → Tmb) : (s.withTmb f).cmd = s.cmd := rfl
@[simp] theorem State.withTmb_cnt (s : State) (f : Tmb → Tmb) : (s.withTmb f).cnt = s.cnt := rfl
@[simp] theorem State.withTmb_tables (s : State) (f : Tmb → Tmb) : (s.withTmb f).tables = s.tables := rfl
@[simp] theorem State.withTmb_image (s : State) (f : Tmb → Tmb) : (s.withTmb f).image = s.image := rfl
@[simp] theorem State.withTmb_pending (s : State) (f : Tmb → Tmb) : (s.withTmb f).pending = s.pending := rfl

@[simp] theorem State.withEvu_supply (s : State) (f : Evu → Evu) : (s.withEvu f).supply = s.supply := rfl
@[simp] theorem State.withEvu_osc (s : State) (f : Evu → Evu) : (s.withEvu f).osc = s.osc := rfl
@[simp] theorem State.withEvu_straps (s : State) (f : Evu → Evu) : (s.withEvu f).straps = s.straps := rfl
@[simp] theorem State.withEvu_sif (s : State) (f : Evu → Evu) : (s.withEvu f).sif = s.sif := rfl
@[simp] theorem State.withEvu_tmb (s : State) (f : Evu → Evu) : (s.withEvu f).tmb = s.tmb := rfl
@[simp] theorem State.withEvu_det (s : State) (f : Evu → Evu) : (s.withEvu f).det = s.det := rfl
@[simp] theorem State.withEvu_evu (s : State) (f : Evu → Evu) : (s.withEvu f).evu = f s.evu := rfl
@[simp] theorem State.withEvu_wfs (s : State) (f : Evu → Evu) : (s.withEvu f).wfs = s.wfs := rfl
@[simp] theorem State.withEvu_alu (s : State) (f : Evu → Evu) : (s.withEvu f).alu = s.alu := rfl
@[simp] theorem State.withEvu_lnk (s : State) (f : Evu → Evu) : (s.withEvu f).lnk = s.lnk := rfl
@[simp] theorem State.withEvu_bmn (s : State) (f : Evu → Evu) : (s.withEvu f).bmn = s.bmn := rfl
@[simp] theorem State.withEvu_lda (s : State) (f : Evu → Evu) : (s.withEvu f).lda = s.lda := rfl
@[simp] theorem State.withEvu_hzc (s : State) (f : Evu → Evu) : (s.withEvu f).hzc = s.hzc := rfl
@[simp] theorem State.withEvu_cmd (s : State) (f : Evu → Evu) : (s.withEvu f).cmd = s.cmd := rfl
@[simp] theorem State.withEvu_cnt (s : State) (f : Evu → Evu) : (s.withEvu f).cnt = s.cnt := rfl
@[simp] theorem State.withEvu_tables (s : State) (f : Evu → Evu) : (s.withEvu f).tables = s.tables := rfl
@[simp] theorem State.withEvu_image (s : State) (f : Evu → Evu) : (s.withEvu f).image = s.image := rfl
@[simp] theorem State.withEvu_pending (s : State) (f : Evu → Evu) : (s.withEvu f).pending = s.pending := rfl

@[simp] theorem State.withWfs_supply (s : State) (f : Wfs → Wfs) : (s.withWfs f).supply = s.supply := rfl
@[simp] theorem State.withWfs_osc (s : State) (f : Wfs → Wfs) : (s.withWfs f).osc = s.osc := rfl
@[simp] theorem State.withWfs_straps (s : State) (f : Wfs → Wfs) : (s.withWfs f).straps = s.straps := rfl
@[simp] theorem State.withWfs_sif (s : State) (f : Wfs → Wfs) : (s.withWfs f).sif = s.sif := rfl
@[simp] theorem State.withWfs_tmb (s : State) (f : Wfs → Wfs) : (s.withWfs f).tmb = s.tmb := rfl
@[simp] theorem State.withWfs_det (s : State) (f : Wfs → Wfs) : (s.withWfs f).det = s.det := rfl
@[simp] theorem State.withWfs_evu (s : State) (f : Wfs → Wfs) : (s.withWfs f).evu = s.evu := rfl
@[simp] theorem State.withWfs_wfs (s : State) (f : Wfs → Wfs) : (s.withWfs f).wfs = f s.wfs := rfl
@[simp] theorem State.withWfs_alu (s : State) (f : Wfs → Wfs) : (s.withWfs f).alu = s.alu := rfl
@[simp] theorem State.withWfs_lnk (s : State) (f : Wfs → Wfs) : (s.withWfs f).lnk = s.lnk := rfl
@[simp] theorem State.withWfs_bmn (s : State) (f : Wfs → Wfs) : (s.withWfs f).bmn = s.bmn := rfl
@[simp] theorem State.withWfs_lda (s : State) (f : Wfs → Wfs) : (s.withWfs f).lda = s.lda := rfl
@[simp] theorem State.withWfs_hzc (s : State) (f : Wfs → Wfs) : (s.withWfs f).hzc = s.hzc := rfl
@[simp] theorem State.withWfs_cmd (s : State) (f : Wfs → Wfs) : (s.withWfs f).cmd = s.cmd := rfl
@[simp] theorem State.withWfs_cnt (s : State) (f : Wfs → Wfs) : (s.withWfs f).cnt = s.cnt := rfl
@[simp] theorem State.withWfs_tables (s : State) (f : Wfs → Wfs) : (s.withWfs f).tables = s.tables := rfl
@[simp] theorem State.withWfs_image (s : State) (f : Wfs → Wfs) : (s.withWfs f).image = s.image := rfl
@[simp] theorem State.withWfs_pending (s : State) (f : Wfs → Wfs) : (s.withWfs f).pending = s.pending := rfl

@[simp] theorem State.withAlu_supply (s : State) (f : Alu → Alu) : (s.withAlu f).supply = s.supply := rfl
@[simp] theorem State.withAlu_osc (s : State) (f : Alu → Alu) : (s.withAlu f).osc = s.osc := rfl
@[simp] theorem State.withAlu_straps (s : State) (f : Alu → Alu) : (s.withAlu f).straps = s.straps := rfl
@[simp] theorem State.withAlu_sif (s : State) (f : Alu → Alu) : (s.withAlu f).sif = s.sif := rfl
@[simp] theorem State.withAlu_tmb (s : State) (f : Alu → Alu) : (s.withAlu f).tmb = s.tmb := rfl
@[simp] theorem State.withAlu_det (s : State) (f : Alu → Alu) : (s.withAlu f).det = s.det := rfl
@[simp] theorem State.withAlu_evu (s : State) (f : Alu → Alu) : (s.withAlu f).evu = s.evu := rfl
@[simp] theorem State.withAlu_wfs (s : State) (f : Alu → Alu) : (s.withAlu f).wfs = s.wfs := rfl
@[simp] theorem State.withAlu_alu (s : State) (f : Alu → Alu) : (s.withAlu f).alu = f s.alu := rfl
@[simp] theorem State.withAlu_lnk (s : State) (f : Alu → Alu) : (s.withAlu f).lnk = s.lnk := rfl
@[simp] theorem State.withAlu_bmn (s : State) (f : Alu → Alu) : (s.withAlu f).bmn = s.bmn := rfl
@[simp] theorem State.withAlu_lda (s : State) (f : Alu → Alu) : (s.withAlu f).lda = s.lda := rfl
@[simp] theorem State.withAlu_hzc (s : State) (f : Alu → Alu) : (s.withAlu f).hzc = s.hzc := rfl
@[simp] theorem State.withAlu_cmd (s : State) (f : Alu → Alu) : (s.withAlu f).cmd = s.cmd := rfl
@[simp] theorem State.withAlu_cnt (s : State) (f : Alu → Alu) : (s.withAlu f).cnt = s.cnt := rfl
@[simp] theorem State.withAlu_tables (s : State) (f : Alu → Alu) : (s.withAlu f).tables = s.tables := rfl
@[simp] theorem State.withAlu_image (s : State) (f : Alu → Alu) : (s.withAlu f).image = s.image := rfl
@[simp] theorem State.withAlu_pending (s : State) (f : Alu → Alu) : (s.withAlu f).pending = s.pending := rfl

@[simp] theorem State.withLnk_supply (s : State) (f : Lnk → Lnk) : (s.withLnk f).supply = s.supply := rfl
@[simp] theorem State.withLnk_osc (s : State) (f : Lnk → Lnk) : (s.withLnk f).osc = s.osc := rfl
@[simp] theorem State.withLnk_straps (s : State) (f : Lnk → Lnk) : (s.withLnk f).straps = s.straps := rfl
@[simp] theorem State.withLnk_sif (s : State) (f : Lnk → Lnk) : (s.withLnk f).sif = s.sif := rfl
@[simp] theorem State.withLnk_tmb (s : State) (f : Lnk → Lnk) : (s.withLnk f).tmb = s.tmb := rfl
@[simp] theorem State.withLnk_det (s : State) (f : Lnk → Lnk) : (s.withLnk f).det = s.det := rfl
@[simp] theorem State.withLnk_evu (s : State) (f : Lnk → Lnk) : (s.withLnk f).evu = s.evu := rfl
@[simp] theorem State.withLnk_wfs (s : State) (f : Lnk → Lnk) : (s.withLnk f).wfs = s.wfs := rfl
@[simp] theorem State.withLnk_alu (s : State) (f : Lnk → Lnk) : (s.withLnk f).alu = s.alu := rfl
@[simp] theorem State.withLnk_lnk (s : State) (f : Lnk → Lnk) : (s.withLnk f).lnk = f s.lnk := rfl
@[simp] theorem State.withLnk_bmn (s : State) (f : Lnk → Lnk) : (s.withLnk f).bmn = s.bmn := rfl
@[simp] theorem State.withLnk_lda (s : State) (f : Lnk → Lnk) : (s.withLnk f).lda = s.lda := rfl
@[simp] theorem State.withLnk_hzc (s : State) (f : Lnk → Lnk) : (s.withLnk f).hzc = s.hzc := rfl
@[simp] theorem State.withLnk_cmd (s : State) (f : Lnk → Lnk) : (s.withLnk f).cmd = s.cmd := rfl
@[simp] theorem State.withLnk_cnt (s : State) (f : Lnk → Lnk) : (s.withLnk f).cnt = s.cnt := rfl
@[simp] theorem State.withLnk_tables (s : State) (f : Lnk → Lnk) : (s.withLnk f).tables = s.tables := rfl
@[simp] theorem State.withLnk_image (s : State) (f : Lnk → Lnk) : (s.withLnk f).image = s.image := rfl
@[simp] theorem State.withLnk_pending (s : State) (f : Lnk → Lnk) : (s.withLnk f).pending = s.pending := rfl

@[simp] theorem State.withBmn_supply (s : State) (f : Bmn → Bmn) : (s.withBmn f).supply = s.supply := rfl
@[simp] theorem State.withBmn_osc (s : State) (f : Bmn → Bmn) : (s.withBmn f).osc = s.osc := rfl
@[simp] theorem State.withBmn_straps (s : State) (f : Bmn → Bmn) : (s.withBmn f).straps = s.straps := rfl
@[simp] theorem State.withBmn_sif (s : State) (f : Bmn → Bmn) : (s.withBmn f).sif = s.sif := rfl
@[simp] theorem State.withBmn_tmb (s : State) (f : Bmn → Bmn) : (s.withBmn f).tmb = s.tmb := rfl
@[simp] theorem State.withBmn_det (s : State) (f : Bmn → Bmn) : (s.withBmn f).det = s.det := rfl
@[simp] theorem State.withBmn_evu (s : State) (f : Bmn → Bmn) : (s.withBmn f).evu = s.evu := rfl
@[simp] theorem State.withBmn_wfs (s : State) (f : Bmn → Bmn) : (s.withBmn f).wfs = s.wfs := rfl
@[simp] theorem State.withBmn_alu (s : State) (f : Bmn → Bmn) : (s.withBmn f).alu = s.alu := rfl
@[simp] theorem State.withBmn_lnk (s : State) (f : Bmn → Bmn) : (s.withBmn f).lnk = s.lnk := rfl
@[simp] theorem State.withBmn_bmn (s : State) (f : Bmn → Bmn) : (s.withBmn f).bmn = f s.bmn := rfl
@[simp] theorem State.withBmn_lda (s : State) (f : Bmn → Bmn) : (s.withBmn f).lda = s.lda := rfl
@[simp] theorem State.withBmn_hzc (s : State) (f : Bmn → Bmn) : (s.withBmn f).hzc = s.hzc := rfl
@[simp] theorem State.withBmn_cmd (s : State) (f : Bmn → Bmn) : (s.withBmn f).cmd = s.cmd := rfl
@[simp] theorem State.withBmn_cnt (s : State) (f : Bmn → Bmn) : (s.withBmn f).cnt = s.cnt := rfl
@[simp] theorem State.withBmn_tables (s : State) (f : Bmn → Bmn) : (s.withBmn f).tables = s.tables := rfl
@[simp] theorem State.withBmn_image (s : State) (f : Bmn → Bmn) : (s.withBmn f).image = s.image := rfl
@[simp] theorem State.withBmn_pending (s : State) (f : Bmn → Bmn) : (s.withBmn f).pending = s.pending := rfl

@[simp] theorem State.withLda_supply (s : State) (f : Lda → Lda) : (s.withLda f).supply = s.supply := rfl
@[simp] theorem State.withLda_osc (s : State) (f : Lda → Lda) : (s.withLda f).osc = s.osc := rfl
@[simp] theorem State.withLda_straps (s : State) (f : Lda → Lda) : (s.withLda f).straps = s.straps := rfl
@[simp] theorem State.withLda_sif (s : State) (f : Lda → Lda) : (s.withLda f).sif = s.sif := rfl
@[simp] theorem State.withLda_tmb (s : State) (f : Lda → Lda) : (s.withLda f).tmb = s.tmb := rfl
@[simp] theorem State.withLda_det (s : State) (f : Lda → Lda) : (s.withLda f).det = s.det := rfl
@[simp] theorem State.withLda_evu (s : State) (f : Lda → Lda) : (s.withLda f).evu = s.evu := rfl
@[simp] theorem State.withLda_wfs (s : State) (f : Lda → Lda) : (s.withLda f).wfs = s.wfs := rfl
@[simp] theorem State.withLda_alu (s : State) (f : Lda → Lda) : (s.withLda f).alu = s.alu := rfl
@[simp] theorem State.withLda_lnk (s : State) (f : Lda → Lda) : (s.withLda f).lnk = s.lnk := rfl
@[simp] theorem State.withLda_bmn (s : State) (f : Lda → Lda) : (s.withLda f).bmn = s.bmn := rfl
@[simp] theorem State.withLda_lda (s : State) (f : Lda → Lda) : (s.withLda f).lda = f s.lda := rfl
@[simp] theorem State.withLda_hzc (s : State) (f : Lda → Lda) : (s.withLda f).hzc = s.hzc := rfl
@[simp] theorem State.withLda_cmd (s : State) (f : Lda → Lda) : (s.withLda f).cmd = s.cmd := rfl
@[simp] theorem State.withLda_cnt (s : State) (f : Lda → Lda) : (s.withLda f).cnt = s.cnt := rfl
@[simp] theorem State.withLda_tables (s : State) (f : Lda → Lda) : (s.withLda f).tables = s.tables := rfl
@[simp] theorem State.withLda_image (s : State) (f : Lda → Lda) : (s.withLda f).image = s.image := rfl
@[simp] theorem State.withLda_pending (s : State) (f : Lda → Lda) : (s.withLda f).pending = s.pending := rfl

@[simp] theorem State.withHzc_supply (s : State) (f : Hzc → Hzc) : (s.withHzc f).supply = s.supply := rfl
@[simp] theorem State.withHzc_osc (s : State) (f : Hzc → Hzc) : (s.withHzc f).osc = s.osc := rfl
@[simp] theorem State.withHzc_straps (s : State) (f : Hzc → Hzc) : (s.withHzc f).straps = s.straps := rfl
@[simp] theorem State.withHzc_sif (s : State) (f : Hzc → Hzc) : (s.withHzc f).sif = s.sif := rfl
@[simp] theorem State.withHzc_tmb (s : State) (f : Hzc → Hzc) : (s.withHzc f).tmb = s.tmb := rfl
@[simp] theorem State.withHzc_det (s : State) (f : Hzc → Hzc) : (s.withHzc f).det = s.det := rfl
@[simp] theorem State.withHzc_evu (s : State) (f : Hzc → Hzc) : (s.withHzc f).evu = s.evu := rfl
@[simp] theorem State.withHzc_wfs (s : State) (f : Hzc → Hzc) : (s.withHzc f).wfs = s.wfs := rfl
@[simp] theorem State.withHzc_alu (s : State) (f : Hzc → Hzc) : (s.withHzc f).alu = s.alu := rfl
@[simp] theorem State.withHzc_lnk (s : State) (f : Hzc → Hzc) : (s.withHzc f).lnk = s.lnk := rfl
@[simp] theorem State.withHzc_bmn (s : State) (f : Hzc → Hzc) : (s.withHzc f).bmn = s.bmn := rfl
@[simp] theorem State.withHzc_lda (s : State) (f : Hzc → Hzc) : (s.withHzc f).lda = s.lda := rfl
@[simp] theorem State.withHzc_hzc (s : State) (f : Hzc → Hzc) : (s.withHzc f).hzc = f s.hzc := rfl
@[simp] theorem State.withHzc_cmd (s : State) (f : Hzc → Hzc) : (s.withHzc f).cmd = s.cmd := rfl
@[simp] theorem State.withHzc_cnt (s : State) (f : Hzc → Hzc) : (s.withHzc f).cnt = s.cnt := rfl
@[simp] theorem State.withHzc_tables (s : State) (f : Hzc → Hzc) : (s.withHzc f).tables = s.tables := rfl
@[simp] theorem State.withHzc_image (s : State) (f : Hzc → Hzc) : (s.withHzc f).image = s.image := rfl
@[simp] theorem State.withHzc_pending (s : State) (f : Hzc → Hzc) : (s.withHzc f).pending = s.pending := rfl

end Sys2Proof.Machine
end

