-- ==== Sys2Proof/Laws/Word.lean ====
section
/-!
SUPPORT. The small laws of the records "one per correction entry, group, channel, load": what is read after a write, and
what a map or a function of the index gives.
-/

namespace Sys2Proof

variable {α β : Type}

theorem Three.get_set (v : Three α) (i j : Fin 3) (x : α) : (v.set i x).get j = if j = i then x else v.get j := by
  match i, j with
  | 0, 0 | 0, 1 | 0, 2 | 1, 0 | 1, 1 | 1, 2 | 2, 0 | 2, 1 | 2, 2 => rfl

theorem Four.get_set (v : Four α) (i j : Fin 4) (x : α) : (v.set i x).get j = if j = i then x else v.get j := by
  match i with
  | 0 => match j with | 0 | 1 | 2 | 3 => rfl
  | 1 => match j with | 0 | 1 | 2 | 3 => rfl
  | 2 => match j with | 0 | 1 | 2 | 3 => rfl
  | 3 => match j with | 0 | 1 | 2 | 3 => rfl

theorem Six.get_set (v : Six α) (i j : Fin 6) (x : α) : (v.set i x).get j = if j = i then x else v.get j := by
  match i with
  | 0 => match j with | 0 | 1 | 2 | 3 | 4 | 5 => rfl
  | 1 => match j with | 0 | 1 | 2 | 3 | 4 | 5 => rfl
  | 2 => match j with | 0 | 1 | 2 | 3 | 4 | 5 => rfl
  | 3 => match j with | 0 | 1 | 2 | 3 | 4 | 5 => rfl
  | 4 => match j with | 0 | 1 | 2 | 3 | 4 | 5 => rfl
  | 5 => match j with | 0 | 1 | 2 | 3 | 4 | 5 => rfl

theorem Eight.get_set (v : Eight α) (i j : Fin 8) (x : α) : (v.set i x).get j = if j = i then x else v.get j := by
  match i with
  | 0 => match j with | 0 | 1 | 2 | 3 | 4 | 5 | 6 | 7 => rfl
  | 1 => match j with | 0 | 1 | 2 | 3 | 4 | 5 | 6 | 7 => rfl
  | 2 => match j with | 0 | 1 | 2 | 3 | 4 | 5 | 6 | 7 => rfl
  | 3 => match j with | 0 | 1 | 2 | 3 | 4 | 5 | 6 | 7 => rfl
  | 4 => match j with | 0 | 1 | 2 | 3 | 4 | 5 | 6 | 7 => rfl
  | 5 => match j with | 0 | 1 | 2 | 3 | 4 | 5 | 6 | 7 => rfl
  | 6 => match j with | 0 | 1 | 2 | 3 | 4 | 5 | 6 | 7 => rfl
  | 7 => match j with | 0 | 1 | 2 | 3 | 4 | 5 | 6 | 7 => rfl

theorem Eight.set_get_self (v : Eight α) (i : Fin 8) : v.set i (v.get i) = v := by
  match i with
  | 0 | 1 | 2 | 3 | 4 | 5 | 6 | 7 => rfl

@[simp] theorem Four.get_map (f : α → β) (v : Four α) (i : Fin 4) : (v.map f).get i = f (v.get i) := by
  match i with | 0 | 1 | 2 | 3 => rfl

@[simp] theorem Six.get_map (f : α → β) (v : Six α) (i : Fin 6) : (v.map f).get i = f (v.get i) := by
  match i with | 0 | 1 | 2 | 3 | 4 | 5 => rfl

@[simp] theorem Eight.get_map (f : α → β) (v : Eight α) (i : Fin 8) : (v.map f).get i = f (v.get i) := by
  match i with | 0 | 1 | 2 | 3 | 4 | 5 | 6 | 7 => rfl

@[simp] theorem Four.get_ofFn (f : Fin 4 → β) (i : Fin 4) : (Four.ofFn f).get i = f i := by
  match i with | 0 | 1 | 2 | 3 => rfl

@[simp] theorem Six.get_ofFn (f : Fin 6 → β) (i : Fin 6) : (Six.ofFn f).get i = f i := by
  match i with | 0 | 1 | 2 | 3 | 4 | 5 => rfl

@[simp] theorem Eight.get_ofFn (f : Fin 8 → β) (i : Fin 8) : (Eight.ofFn f).get i = f i := by
  match i with | 0 | 1 | 2 | 3 | 4 | 5 | 6 | 7 => rfl

@[simp] theorem Six.get_fill (x : α) (i : Fin 6) : (Six.fill x).get i = x := by
  match i with | 0 | 1 | 2 | 3 | 4 | 5 => rfl

@[simp] theorem Eight.get_fill (x : α) (i : Fin 8) : (Eight.fill x).get i = x := by
  match i with | 0 | 1 | 2 | 3 | 4 | 5 | 6 | 7 => rfl

/-- Two records with the same entry everywhere are the same. -/
theorem Six.ext_get {v w : Six α} (h : ∀ i, v.get i = w.get i) : v = w := by
  obtain ⟨_, _, _, _, _, _⟩ := v
  obtain ⟨_, _, _, _, _, _⟩ := w
  simp only [Six.mk.injEq]
  exact ⟨h 0, h 1, h 2, h 3, h 4, h 5⟩

theorem Eight.ext_get {v w : Eight α} (h : ∀ i, v.get i = w.get i) : v = w := by
  obtain ⟨_, _, _, _, _, _, _, _⟩ := v
  obtain ⟨_, _, _, _, _, _, _, _⟩ := w
  simp only [Eight.mk.injEq]
  exact ⟨h 0, h 1, h 2, h 3, h 4, h 5, h 6, h 7⟩

end Sys2Proof
end

