-- ==== Sys2Proof/Laws/Ops.lean ====
section
/-!
SUPPORT. One law per operation of Ops: what it can change, and what it makes of that.
-/

namespace Sys2Proof.Machine

/-! ### Queueing and counting -/

/-- A notice changes the notice queue alone. -/
theorem queueNotice_eq (b : NoticeBody) (d : Nat) (s : State) :
    ∃ q, q.getLast? = some ⟨b, d, s.stampNow⟩ ∧ (s.lnk.notices.length ≤ 8 → q.length ≤ 8) ∧
      queueNotice b d s = { s with lnk := { s.lnk with notices := q } } := by
  refine ⟨_, ?_, ?_, rfl⟩
  · simp
  · intro h
    split <;> simp [Config.noticeLimit] at * <;> omega

/-- A count changes one counter and, at the threshold, the notice queue. -/
theorem count_eq (k : Fin 40) (s : State) :
    ∃ q, (s.lnk.notices.length ≤ 8 → q.length ≤ 8) ∧
      count k s = { s with cnt := s.cnt.set k (s.cnt[k] + 1), lnk := { s.lnk with notices := q } } := by
  unfold count
  dsimp only
  split
  · obtain ⟨q, -, hq, h⟩ := queueNotice_eq (.counter k.val (s.cnt[k] + 1).toNat) 0
      { s with cnt := s.cnt.set k (s.cnt[k] + 1) }
    exact ⟨q, hq, h⟩
  · exact ⟨s.lnk.notices, id, rfl⟩

@[simp] theorem queueNotice_butCounts (b : NoticeBody) (d : Nat) (s : State) :
    (queueNotice b d s).butCounts = s.butCounts := rfl

@[simp] theorem count_butCounts (k : Fin 40) (s : State) : (count k s).butCounts = s.butCounts := by
  obtain ⟨q, -, h⟩ := count_eq k s
  rw [h]; rfl

@[simp] theorem queueNotice_cnt (b : NoticeBody) (d : Nat) (s : State) : (queueNotice b d s).cnt = s.cnt := rfl

theorem count_cnt (k : Fin 40) (s : State) : (count k s).cnt = s.cnt.set k (s.cnt[k] + 1) := by
  obtain ⟨q, -, h⟩ := count_eq k s
  rw [h]

/-- Every counter after a count. -/
theorem count_getElem (k j : Fin 40) (s : State) :
    (count k s).cnt[j] = if k = j then s.cnt[k] + 1 else s.cnt[j] := by
  rw [count_cnt]
  simp [Vector.getElem_set, Fin.ext_iff]

@[simp] theorem countTimes_butCounts (n : Nat) (k : Fin 40) (s : State) :
    (countTimes n k s).butCounts = s.butCounts := by
  induction n generalizing s with
  | zero => rfl
  | succ n ih => simp [countTimes, ih]

/-- Counting several times adds as many to the counter. -/
theorem countTimes_getElem (n : Nat) (k j : Fin 40) (s : State) :
    (countTimes n k s).cnt[j] = if k = j then s.cnt[k] + BitVec.ofNat 32 n else s.cnt[j] := by
  induction n generalizing s with
  | zero => simp [countTimes]; rintro rfl; rfl
  | succ n ih =>
    simp only [countTimes, ih, count_getElem]
    split
    · rename_i h
      simp only [if_true]
      rw [BitVec.add_assoc, BitVec.ofNat_add, BitVec.add_comm 1 (BitVec.ofNat 32 n)]
      rfl
    · rfl

/-! ### Oscillator time passing -/

@[simp] theorem passTime_supply (dt : Nat) (s : State) : (passTime dt s).supply = s.supply := rfl
@[simp] theorem passTime_straps (dt : Nat) (s : State) : (passTime dt s).straps = s.straps := rfl
@[simp] theorem passTime_sif (dt : Nat) (s : State) : (passTime dt s).sif = s.sif := rfl
@[simp] theorem passTime_det (dt : Nat) (s : State) : (passTime dt s).det = s.det := rfl
@[simp] theorem passTime_evu (dt : Nat) (s : State) : (passTime dt s).evu = s.evu := rfl
@[simp] theorem passTime_wfs (dt : Nat) (s : State) : (passTime dt s).wfs = s.wfs := rfl
@[simp] theorem passTime_alu (dt : Nat) (s : State) : (passTime dt s).alu = s.alu := rfl
@[simp] theorem passTime_bmn (dt : Nat) (s : State) : (passTime dt s).bmn = s.bmn := rfl
@[simp] theorem passTime_hzc (dt : Nat) (s : State) : (passTime dt s).hzc = s.hzc := rfl
@[simp] theorem passTime_cmd (dt : Nat) (s : State) : (passTime dt s).cmd = s.cmd := rfl
@[simp] theorem passTime_cnt (dt : Nat) (s : State) : (passTime dt s).cnt = s.cnt := rfl
@[simp] theorem passTime_tables (dt : Nat) (s : State) : (passTime dt s).tables = s.tables := rfl
@[simp] theorem passTime_image (dt : Nat) (s : State) : (passTime dt s).image = s.image := rfl
@[simp] theorem passTime_pending (dt : Nat) (s : State) : (passTime dt s).pending = s.pending := rfl
@[simp] theorem passTime_osc (dt : Nat) (s : State) : (passTime dt s).osc = s.osc + dt := rfl
@[simp] theorem passTime_tmb (dt : Nat) (s : State) : (passTime dt s).tmb = s.tmb.run dt := rfl

/-- What passes in TMB (R13): station time's ns, the remainder and the slew, and nothing else. -/
theorem Tmb.run_eq (dt : Nat) (t : Tmb) : ∃ n r w, t.run dt = { t with ns := n, residue := r, slew := w } := by
  unfold Tmb.run
  dsimp only
  split
  · exact ⟨_, _, t.slew, rfl⟩
  · exact ⟨_, _, _, rfl⟩

/-- A load keeps its state and request while time passes. -/
theorem passTime_load (dt : Nat) (l : Fin 8) (s : State) :
    (passTime dt s).lda.loads.get l =
      { s.lda.loads.get l with burst := (s.lda.loads.get l).burst - dt, rest := (s.lda.loads.get l).rest - dt } := by
  simp [passTime]

/-! ### What the fields are, from a view that is unchanged -/

section views
variable {s t : State}

theorem butCounts_fields (h : t.butCounts = s.butCounts) :
    t.supply = s.supply ∧ t.osc = s.osc ∧ t.straps = s.straps ∧ t.sif = s.sif ∧ t.tmb = s.tmb ∧ t.det = s.det ∧
      t.evu = s.evu ∧ t.wfs = s.wfs ∧ t.alu = s.alu ∧ t.bmn = s.bmn ∧ t.lda = s.lda ∧ t.hzc = s.hzc ∧ t.cmd = s.cmd ∧
      t.tables = s.tables ∧ t.image = s.image ∧ t.pending = s.pending := by
  simp only [State.butCounts, State.mk.injEq] at h
  tauto

theorem butCounts_lnk (h : t.butCounts = s.butCounts) : { t.lnk with notices := [] } = { s.lnk with notices := [] } :=
  congrArg (fun s : State => s.lnk) h

end views

end Sys2Proof.Machine
end

