-- ==== Sys2Proof/Laws/Frames.lean ====
section
/-!
SUPPORT. What the shared operations of ALU, WFS, EVU and DET can change, said once for each: `Alerts s t` says that `t` is
`s` but for ALU, the counters and the notice queue, `Events s t` that it is `s` but for EVU and WFS too, and `Samples s t`
that it is `s` but for DET too.
-/

namespace Sys2Proof.Machine

/-! ### The three frames -/

/-- `t` is `s` but for ALU, the counters and the notice queue. -/
def Alerts (s t : State) : Prop := ∃ a c q, t = { s with alu := a, cnt := c, lnk := { s.lnk with notices := q } }

/-- `t` is `s` but for EVU, WFS, ALU, the counters and the notice queue. -/
def Events (s t : State) : Prop :=
  ∃ e w a c q, t = { s with evu := e, wfs := w, alu := a, cnt := c, lnk := { s.lnk with notices := q } }

/-- `t` is `s` but for DET, EVU, WFS, ALU, the counters and the notice queue. -/
def Samples (s t : State) : Prop :=
  ∃ d e w a c q, t = { s with det := d, evu := e, wfs := w, alu := a, cnt := c, lnk := { s.lnk with notices := q } }

theorem Alerts.refl (s : State) : Alerts s s := ⟨_, _, _, rfl⟩
theorem Events.refl (s : State) : Events s s := ⟨_, _, _, _, _, rfl⟩
theorem Samples.refl (s : State) : Samples s s := ⟨_, _, _, _, _, _, rfl⟩

theorem Alerts.trans {s t u : State} (h : Alerts s t) (h' : Alerts t u) : Alerts s u := by
  obtain ⟨a, c, q, rfl⟩ := h
  obtain ⟨a', c', q', rfl⟩ := h'
  exact ⟨a', c', q', rfl⟩

theorem Events.trans {s t u : State} (h : Events s t) (h' : Events t u) : Events s u := by
  obtain ⟨e, w, a, c, q, rfl⟩ := h
  obtain ⟨e', w', a', c', q', rfl⟩ := h'
  exact ⟨e', w', a', c', q', rfl⟩

theorem Samples.trans {s t u : State} (h : Samples s t) (h' : Samples t u) : Samples s u := by
  obtain ⟨d, e, w, a, c, q, rfl⟩ := h
  obtain ⟨d', e', w', a', c', q', rfl⟩ := h'
  exact ⟨d', e', w', a', c', q', rfl⟩

theorem Alerts.events {s t : State} (h : Alerts s t) : Events s t := by
  obtain ⟨a, c, q, rfl⟩ := h
  exact ⟨s.evu, s.wfs, a, c, q, rfl⟩

theorem Events.samples {s t : State} (h : Events s t) : Samples s t := by
  obtain ⟨e, w, a, c, q, rfl⟩ := h
  exact ⟨s.det, e, w, a, c, q, rfl⟩

/-- A fold of steps that keep a frame keeps it. -/
theorem fold_keeps {α : Type} {R : State → State → Prop} (r : ∀ s, R s s)
    (tr : ∀ {s t u}, R s t → R t u → R s u) {f : State → α → State} (h : ∀ s x, R s (f s x)) (l : List α) (s : State) :
    R s (l.foldl f s) := by
  induction l generalizing s with
  | nil => exact r s
  | cons x xs ih => exact tr (h s x) (ih _)

/-! ### Counting and ALU -/

theorem count_alerts (k : Fin 40) (s : State) : Alerts s (count k s) := by
  obtain ⟨q, -, h⟩ := count_eq k s
  exact ⟨s.alu, _, q, h⟩

theorem queueNotice_alerts (b : NoticeBody) (d : Nat) (s : State) : Alerts s (queueNotice b d s) :=
  ⟨s.alu, s.cnt, _, rfl⟩

theorem withAlu_alerts (f : Alu → Alu) (s : State) : Alerts s (s.withAlu f) := ⟨_, s.cnt, s.lnk.notices, rfl⟩

theorem startRecheck_alerts (cls : Fin 8) (s : State) : Alerts s (startRecheck cls s) := by
  unfold startRecheck
  dsimp only
  split
  · exact withAlu_alerts _ s
  · exact .refl s

theorem enterAlert_alerts (x : AlertInstance) (s : State) : Alerts s (enterAlert x s) := withAlu_alerts _ s

theorem updateClass_alerts (cls : Fin 8) (f : AlertInstance → AlertInstance) (s : State) : Alerts s (updateClass cls f s) :=
  withAlu_alerts _ s

theorem raiseAlert_alerts (cls : Fin 8) (p : Option AlertPayload) (s : State) : Alerts s (raiseAlert cls p s) := by
  refine (count_alerts 17 s).trans ?_
  unfold raiseAlert
  generalize count 17 s = v
  dsimp only
  generalize newInstance cls p v = x
  split
  · exact enterAlert_alerts _ _
  · split
    · exact enterAlert_alerts _ _
    · split
      · exact (((withAlu_alerts _ _).trans (count_alerts 21 _)).trans (startRecheck_alerts _ _)).trans
          (enterAlert_alerts _ _)
      · exact (count_alerts 21 _).trans (startRecheck_alerts _ _)

theorem raiseEvent_alerts (cls : Fin 8) (p : AlertPayload) (s : State) : Alerts s (raiseEvent cls p s) := by
  unfold raiseEvent
  split
  · exact raiseAlert_alerts _ _ s
  · exact .refl s

theorem reportCondition_alerts (cls : Fin 8) (value : Bool) (p : AlertPayload) (s : State) :
    Alerts s (reportCondition cls value p s) := by
  refine (withAlu_alerts (fun a => { a with conds := a.conds.set cls ⟨value, some p⟩ }) s).trans ?_
  unfold reportCondition
  dsimp only
  split
  · split
    · exact updateClass_alerts _ _ _
    · split
      · exact .refl _
      · split
        · exact .refl _
        · exact raiseAlert_alerts _ _ _
  · split
    · exact updateClass_alerts _ _ _
    · exact .refl _

theorem recheckTick_alerts (cls : Fin 8) (s : State) : Alerts s (recheckTick cls s) := by
  unfold recheckTick
  split
  · exact .refl s
  · split
    · exact withAlu_alerts _ s
    · dsimp only
      split
      · exact (withAlu_alerts _ s).trans (raiseAlert_alerts _ _ _)
      · exact withAlu_alerts _ s

theorem waitsTick_alerts (s : State) : Alerts s (waitsTick s) := by
  unfold waitsTick
  exact (withAlu_alerts _ s).trans
    (fold_keeps Alerts.refl Alerts.trans (fun s x => (count_alerts 20 s).trans (startRecheck_alerts _ _)) _ _)

theorem aluTick_alerts (s : State) : Alerts s (aluTick s) :=
  (fold_keeps Alerts.refl Alerts.trans (fun s c => recheckTick_alerts c s) _ s).trans (waitsTick_alerts _)

theorem aluShed_alerts (s : State) : Alerts s (aluShed s) := by
  unfold aluShed
  split <;> exact withAlu_alerts _ s

theorem raiseAtWrite_alerts (cls : Fin 8) (s : State) : Alerts s (raiseAtWrite cls s) := by
  unfold raiseAtWrite
  dsimp only
  split
  · exact raiseAlert_alerts _ _ s
  · exact .refl s

theorem aluWrite_alerts (cls : Fin 8) (old : AlertEntry) (s : State) : Alerts s (aluWrite cls old s) := by
  unfold aluWrite
  dsimp only
  split
  · split
    · exact withAlu_alerts _ s
    · exact .refl s
  · split
    · split
      · exact raiseAtWrite_alerts _ s
      · exact .refl s
    · split
      · split
        · exact updateClass_alerts _ _ s
        · exact raiseAtWrite_alerts _ s
      · split
        · exact (withAlu_alerts _ s).trans (updateClass_alerts _ _ _)
        · exact .refl s

theorem aluRestart_alerts (s : State) : Alerts s (aluRestart s) := withAlu_alerts _ s

/-! ### WFS -/

theorem withWfs_events (f : Wfs → Wfs) (s : State) : Events s (s.withWfs f) :=
  ⟨s.evu, _, s.alu, s.cnt, s.lnk.notices, rfl⟩

theorem updateRecord_events (n : Nat) (f : EventRecord → EventRecord) (s : State) : Events s (updateRecord n f s) :=
  ⟨_, s.wfs, s.alu, s.cnt, s.lnk.notices, rfl⟩

theorem updateWave_events (n : Nat) (f : Waveform → Waveform) (s : State) : Events s (updateWave n f s) :=
  updateRecord_events n _ s

theorem updateSegment_events (i : Nat) (f : Segment → Segment) (s : State) : Events s (updateSegment i f s) :=
  withWfs_events _ s

theorem cancelJob_events (c : CancelCause) (s : State) : Events s (cancelJob c s) := by
  unfold cancelJob
  split
  · exact .refl s
  · exact (withWfs_events _ s).trans (queueNotice_alerts _ _ _).events

theorem cancelJobOn_events (n : Nat) (c : CancelCause) (s : State) : Events s (cancelJobOn n c s) := by
  unfold cancelJobOn
  split
  · exact .refl s
  · split
    · exact cancelJob_events c s
    · exact .refl s

theorem releaseWave_events (n : Nat) (s : State) : Events s (releaseWave n s) :=
  ((withWfs_events _ s).trans (updateWave_events _ _ _)).trans (cancelJobOn_events _ _ _)

theorem markKept_events (i n : Nat) (s : State) : Events s (markKept i n s) :=
  (updateSegment_events _ _ s).trans (updateWave_events _ _ _)

theorem markPartial_events (i n : Nat) (s : State) : Events s (markPartial i n s) :=
  (((updateSegment_events _ _ s).trans (updateRecord_events _ _ _)).trans (withWfs_events _ _)).trans
    (count_alerts 15 _).events

theorem keepSegment_events (i n : Nat) (s : State) : Events s (keepSegment i n s) := by
  unfold keepSegment
  split
  · exact markKept_events i n s
  · split
    · exact ((releaseWave_events _ s).trans (updateWave_events _ _ _)).trans
        ((count_alerts 16 _).events.trans (markKept_events _ _ _))
    · exact markPartial_events i n s

theorem takeSegment_events (s : State) : Events s (takeSegment s) := by
  unfold takeSegment
  split
  · exact .refl s
  · exact (updateSegment_events _ _ s).trans (withWfs_events _ _)

theorem finishSegment_events (s : State) : Events s (finishSegment s) := by
  unfold finishSegment
  split
  · exact .refl s
  · dsimp only
    split
    · exact (withWfs_events _ s).trans (updateSegment_events _ _ _)
    · split
      · exact ((withWfs_events _ s).trans (updateSegment_events _ _ _)).trans (keepSegment_events _ _ _)
      · exact (withWfs_events _ s).trans (updateSegment_events _ _ _)

theorem writeFrame_events (d : Delivered) (s : State) : Events s (writeFrame d s) := by
  have h : Events s (if s.wfs.writer.isNone then takeSegment s else s) := by
    split
    · exact takeSegment_events s
    · exact .refl s
  refine h.trans ?_
  unfold writeFrame
  generalize (if s.wfs.writer.isNone then takeSegment s else s) = v
  dsimp only
  split
  · exact .refl _
  · split
    · exact ((updateSegment_events _ _ _).trans (finishSegment_events _)).trans (takeSegment_events _)
    · exact updateSegment_events _ _ _

theorem keepEach_events (n : Nat) (l : List Nat) (s : State) : Events s (keepEach n l s) := by
  induction l generalizing s with
  | nil => exact .refl s
  | cons i l ih =>
    unfold keepEach
    dsimp only
    split
    · exact (keepSegment_events i n s).trans (ih _)
    · exact keepSegment_events i n s

theorem keepPreEvent_events (n : Nat) (t : Time) (s : State) : Events s (keepPreEvent n t s) := by
  have h := (updateWave_events n (fun _ => ⟨none, 0, .kept⟩) s).trans
    (withWfs_events (fun w => { w with claim := some n }) _)
  unfold keepPreEvent
  dsimp only
  repeat' split
  all_goals first
    | exact h
    | exact h.trans (keepEach_events _ _ _)

theorem wfsTick_events (s : State) : Events s (wfsTick s) := by
  unfold wfsTick
  exact (withWfs_events _ s).trans
    (fold_keeps Events.refl Events.trans
      (fun s h => (queueNotice_alerts _ _ s).events.trans (cancelJobOn_events _ _ _)) _ _)

/-! ### EVU -/

theorem withEvu_events (f : Evu → Evu) (s : State) : Events s (s.withEvu f) :=
  ⟨_, s.wfs, s.alu, s.cnt, s.lnk.notices, rfl⟩

theorem updateCurrent_events (f : EventRecord → EventRecord) (s : State) : Events s (updateCurrent f s) := by
  unfold updateCurrent
  split
  · exact .refl s
  · exact updateRecord_events _ f s

theorem takeTriggerOn_events (c : Fin 6) (st : Stamp) (s : State) : Events s (takeTriggerOn c st s) := by
  unfold takeTriggerOn
  dsimp only
  refine Events.trans ?_ (updateCurrent_events _ _)
  split
  all_goals
    split
    · exact ((withEvu_events _ s).trans (withEvu_events _ _)).trans (updateCurrent_events _ _)
    · exact withEvu_events _ s

theorem takeTriggerOff_events (c : Fin 6) (t : Time) (s : State) : Events s (takeTriggerOff c t s) :=
  (withEvu_events _ s).trans (updateCurrent_events _ _)

theorem takeChange_events (b : Batch) (c : Fin 6) (s : State) : Events s (takeChange b c s) := by
  unfold takeChange
  split
  · exact .refl s
  · exact takeTriggerOn_events c _ s
  · exact takeTriggerOff_events c _ s

theorem removeOldest_events (s : State) : Events s (removeOldest s) := by
  unfold removeOldest
  split
  · exact .refl s
  · exact (releaseWave_events _ s).trans (withEvu_events _ _)

theorem declareEvent_events (st : Stamp) (s : State) : Events s (declareEvent st s) := by
  have h : Events s (if Config.recordLimit ≤ s.evu.table.length then removeOldest s else s) := by
    split
    · exact removeOldest_events s
    · exact .refl s
  exact (((h.trans (withEvu_events _ _)).trans (keepPreEvent_events _ _ _)).trans (count_alerts 13 _).events).trans
    (raiseEvent_alerts _ _ _).events

theorem evaluateOpen_events (s : State) : Events s (evaluateOpen s) := by
  unfold evaluateOpen
  split
  · exact (withEvu_events _ s).trans (updateCurrent_events _ _)
  · exact .refl s

theorem evaluatePhase_events (st : Stamp) (s : State) : Events s (evaluatePhase st s) := by
  unfold evaluatePhase
  split
  · split
    · exact declareEvent_events st s
    · exact .refl s
  · exact evaluateOpen_events s
  · exact .refl s

theorem closeRecord_events (st : Stamp) (f : EndReason → EndReason) (s : State) : Events s (closeRecord st f s) := by
  unfold closeRecord
  split
  · exact .refl s
  · dsimp only
    split
    · exact (updateRecord_events _ _ s).trans (withEvu_events _ _)
    · exact ((updateRecord_events _ _ s).trans (withEvu_events _ _)).trans (raiseEvent_alerts _ _ _).events

theorem closeEvent_events (st : Stamp) (s : State) : Events s (closeEvent st s) :=
  (withEvu_events _ s).trans (closeRecord_events _ _ _)

theorem forceClosing_events (s : State) : Events s (forceClosing s) :=
  ((withEvu_events _ s).trans (updateCurrent_events _ _)).trans (count_alerts 14 _).events

theorem takeMagnitude_events (c : Fin 6) (m : Nat) (t : Time) (s : State) : Events s (takeMagnitude c m t s) := by
  unfold takeMagnitude
  split
  · exact withEvu_events _ s
  · exact updateCurrent_events _ s

theorem takeCrossing_events (c : Fin 6) (m : Nat) (t : Time) (s : State) : Events s (takeCrossing c m t s) := by
  unfold takeCrossing
  split
  · exact .refl s
  · split
    · exact .refl s
    · split
      · exact .refl s
      · exact (updateRecord_events _ _ s).trans (raiseEvent_alerts _ _ _).events

theorem takeReport_events (b : Batch) (c : Fin 6) (s : State) : Events s (takeReport b c s) := by
  unfold takeReport
  split
  · exact .refl s
  · dsimp only
    split
    · exact (takeMagnitude_events _ _ _ s).trans (takeCrossing_events _ _ _ _)
    · exact takeMagnitude_events _ _ _ s

theorem flagDegraded_events (b : Batch) (s : State) : Events s (flagDegraded b s) := by
  unfold flagDegraded
  split
  · exact .refl s
  · exact updateCurrent_events _ s

theorem advanceAge_events (fresh : Bool) (s : State) : Events s (advanceAge fresh s) := by
  unfold advanceAge
  split
  · exact .refl s
  · dsimp only
    split
    · exact (withEvu_events _ s).trans (forceClosing_events _)
    · exact withEvu_events _ s

theorem advancePost_events (fresh : Bool) (st : Stamp) (s : State) : Events s (advancePost fresh st s) := by
  unfold advancePost
  split
  · exact .refl s
  · dsimp only
    split
    · exact (withEvu_events _ s).trans (closeEvent_events _ _)
    · exact withEvu_events _ s

theorem advanceTail_events (fresh : Bool) (s : State) : Events s (advanceTail fresh s) := by
  unfold advanceTail
  split
  · exact .refl s
  · split
    · exact .refl s
    · exact withEvu_events _ s

theorem advanceWindows_events (s : State) : Events s (advanceWindows s) := withEvu_events _ s

theorem endContributions_events (s : State) : Events s (endContributions s) := by
  unfold endContributions
  exact withEvu_events _ s

theorem takeChanges_events (b : Batch) (l : List (Fin 6)) (s : State) : Events s (l.foldl (fun s c => takeChange b c s) s) :=
  fold_keeps Events.refl Events.trans (fun s c => takeChange_events b c s) l s

theorem takeReports_events (b : Batch) (l : List (Fin 6)) (s : State) : Events s (l.foldl (fun s c => takeReport b c s) s) :=
  fold_keeps Events.refl Events.trans (fun s c => takeReport_events b c s) l s

/-- A whole batch (R63) changes EVU and WFS, ALU, the counters and the notice queue. -/
theorem evuBatch_events (b : Batch) (s : State) : Events s (evuBatch b s) := by
  have h1 := (advanceWindows_events s).trans (takeChanges_events b channels (advanceWindows s))
  have h2 := h1.trans ((endContributions_events _).trans (evaluatePhase_events b.stamp _))
  have h3 := h2.trans ((takeReports_events b channels _).trans (flagDegraded_events b _))
  exact h3.trans ((advanceAge_events _ _).trans ((advancePost_events _ _ _).trans (advanceTail_events _ _)))

theorem offBatchTriggerOff_events (c : Fin 6) (t : Time) (s : State) : Events s (offBatchTriggerOff c t s) :=
  ((takeTriggerOff_events c t s).trans (withEvu_events _ _)).trans (evaluateOpen_events _)

theorem evuRestart_events (s : State) : Events s (evuRestart s) := by
  have h := withEvu_events (fun e => { e with tail := none }) s
  refine (h.trans (closeRecord_events (s.withEvu fun e => { e with tail := none }).stampNow (fun _ => .restart) _)).trans ?_
  unfold evuRestart
  exact withEvu_events _ _

/-! ### DET -/

theorem updateDetector_samples (c : Fin 6) (f : Detector → Detector) (s : State) : Samples s (updateDetector c f s) :=
  ⟨_, s.evu, s.wfs, s.alu, s.cnt, s.lnk.notices, rfl⟩

theorem decreaseBlanks_samples (s : State) : Samples s (decreaseBlanks s) :=
  ⟨_, s.evu, s.wfs, s.alu, s.cnt, s.lnk.notices, rfl⟩

theorem countTriggerOn_samples (r : DetResult) (c : Fin 6) (s : State) : Samples s (countTriggerOn r c s) := by
  unfold countTriggerOn
  split
  · exact (count_alerts _ s).events.samples
  · exact .refl s

/-- A sample instant (R41) changes DET, EVU and WFS, ALU, the counters and the notice queue. -/
theorem sampleInstant_samples (st : Stamp) (item : SampleItem) (s : State) : Samples s (sampleInstant st item s) := by
  have h : Samples s { s with det := (bankInstant item s).map (·.det) } :=
    ⟨_, s.evu, s.wfs, s.alu, s.cnt, s.lnk.notices, rfl⟩
  let rs (c : Fin 6) : DetResult := (bankInstant item s).get c
  have h' := h.trans
    (fold_keeps Samples.refl Samples.trans (fun s c => countTriggerOn_samples (rs c) c s) channels _)
  exact (h'.trans (evuBatch_events _ _).samples).trans (decreaseBlanks_samples _)

theorem gapResetChannel_samples (t : Time) (c : Fin 6) (s : State) : Samples s (gapResetChannel t c s) := by
  unfold gapResetChannel
  dsimp only
  split
  · exact .refl s
  · split
    · exact (updateDetector_samples _ _ s).trans (offBatchTriggerOff_events _ _ _).samples
    · exact updateDetector_samples _ _ s

theorem gapResetDetectors_samples (t : Time) (s : State) : Samples s (gapResetDetectors t s) :=
  fold_keeps Samples.refl Samples.trans (fun s c => gapResetChannel_samples t c s) _ s

theorem detWrite_samples (c : Fin 6) (old : ChannelEntry) (s : State) : Samples s (detWrite c old s) := by
  unfold detWrite
  dsimp only
  split
  · exact updateDetector_samples _ _ s
  · split
    · split
      · exact (updateDetector_samples _ _ s).trans (offBatchTriggerOff_events _ _ _).samples
      · exact updateDetector_samples _ _ s
    · split
      · split
        · exact (updateDetector_samples _ _ s).trans (offBatchTriggerOff_events _ _ _).samples
        · exact updateDetector_samples _ _ s
      · exact .refl s

theorem detReset_samples (s : State) : Samples s (detReset s) := ⟨_, s.evu, s.wfs, s.alu, s.cnt, s.lnk.notices, rfl⟩

end Sys2Proof.Machine
end

