-- ==== Sys2Proof/WellFormed.lean ====
section
/-!
DEFINITION. Which commands of the table can arise at all: what the rules say of their operands. `exec` is total on every
command; a command that is not well formed stands for nothing the outside can do.
-/

namespace Sys2Proof

/-- A frame reaches CMD only with a centre address 1 to 15 (R134). -/
def Sender.wf (src : Sender) : Bool := decide (1 ≤ src.centre.toNat ∧ src.centre.toNat ≤ 15)

/-- The readings an input can give: within its range, or none (R139). -/
def MonitorInputs.wf (x : MonitorInputs) : Bool :=
  x.v.all (fun v => decide (0 ≤ v ∧ v ≤ 32767)) && x.i.all (fun i => decide (-32768 ≤ i ∧ i ≤ 32767)) &&
    x.temps.toList.all fun t => t.all fun t => decide (-550 ≤ t ∧ t ≤ 1250)

/-- The entries of a TABLE_WRITE fit the downstream payload behind its four bytes (section 7.1, R175). -/
def entriesFit (entries : List Byte) : Bool := decide (entries.length ≤ 92)

/-- The command of chapter 10 that a centre's row stands for. -/
def Instr.command : Instr → Option Command
  | .hold _ e m => some (.hold e.toNat m.toNat)
  | .release _ e => some (.release e.toNat)
  | .waveRequest _ e o n => some (.waveRequest e.toNat o.toNat n.toNat)
  | .waveCancel _ => some .waveCancel
  | .alertAck _ i => some (.alertAck i.toNat)
  | .alertList _ => some .alertList
  | .loadTest _ l n => some (.loadTest l.toNat n.toNat)
  | .status _ => some .status
  | .tableWriteStation _ f n es => some (.tableWrite 1 f.toNat n.toNat es)
  | .tableWriteChannel _ f n es => some (.tableWrite 2 f.toNat n.toNat es)
  | .tableWriteEvent _ f n es => some (.tableWrite 3 f.toNat n.toNat es)
  | .tableWriteTime _ f n es => some (.tableWrite 4 f.toNat n.toNat es)
  | .tableWriteCorrection _ f n es => some (.tableWrite 5 f.toNat n.toNat es)
  | .tableWriteAlert _ f n es => some (.tableWrite 6 f.toNat n.toNat es)
  | .tableWriteLoad _ f n es => some (.tableWrite 7 f.toNat n.toNat es)
  | .tableWriteZone _ f n es => some (.tableWrite 8 f.toNat n.toNat es)
  | .tableWriteBattery _ f n es => some (.tableWrite 9 f.toNat n.toNat es)
  | .tableWriteCountermask _ f n es => some (.tableWrite 10 f.toNat n.toNat es)
  | .tableRead _ t f n => some (.tableRead t.toNat f.toNat n.toNat)
  | .counterRead _ f n => some (.counterRead f.toNat n.toNat)
  | .counterClear _ f n => some (.counterClear f.toNat n.toNat)
  | .timeSet _ l f => some (.timeSet l.toNat f.toNat)
  | .eventList _ => some .eventList
  | .eventRead _ e => some (.eventRead e.toNat)
  | .save _ => some .save
  | .restart _ => some .restart
  | .powerOn _ _ | .coldStartWaitEnd | .strobe | .digitizerFrame _ _ | .warmUpComplete _ _ | .forcedTriggerOff _ _
  | .blankingEnd _ _ | .contributionEnd _ _ | .forcedClosing _ | .eventClose _ | .quietTailEnd _
  | .segmentComplete _ | .holdExpiry _ | .reCheckEnd _ | .repeatDue _ | .secondTick | .timeMessage _ _ | .ppsEdge _
  | .holdoverEntry | .driftingEntry | .restartAgeExpiry | .gnssSettled | .dutyRelease | .refixRequest
  | .refixBoundCrossed | .frameBegin | .transmissionComplete | .warmUpExpiry | .lingerExpiry | .listenPeriod
  | .listenWindowEnd | .downstreamFrame _ _ | .receiveTimeout | .scan _ | .fullRecalibration _ | .voltageOverride _
  | .overrideRelease _ | .cutoff _ | .spacingExpiry | .inrushAgeExpiry | .inrushSuspensionEnd | .burstEnd _
  | .restEnd _ | .saveComplete _ _ | .saveNoAnswer _ _ | .payloadLengthAbove96 _ _ | .supplyLoss => none

/-- The sender of a centre's row. -/
def Instr.sender : Instr → Option Sender
  | .hold src _ _ | .release src _ | .waveRequest src _ _ _ | .waveCancel src | .alertAck src _ | .alertList src
  | .loadTest src _ _ | .status src | .tableWriteStation src _ _ _ | .tableWriteChannel src _ _ _
  | .tableWriteEvent src _ _ _ | .tableWriteTime src _ _ _ | .tableWriteCorrection src _ _ _
  | .tableWriteAlert src _ _ _ | .tableWriteLoad src _ _ _ | .tableWriteZone src _ _ _
  | .tableWriteBattery src _ _ _ | .tableWriteCountermask src _ _ _ | .tableRead src _ _ _ | .counterRead src _ _
  | .counterClear src _ _ | .timeSet src _ _ | .eventList src | .eventRead src _ | .save src => some src
  | .restart src => some src.given
  | .powerOn _ _ | .coldStartWaitEnd | .strobe | .digitizerFrame _ _ | .warmUpComplete _ _ | .forcedTriggerOff _ _
  | .blankingEnd _ _ | .contributionEnd _ _ | .forcedClosing _ | .eventClose _ | .quietTailEnd _
  | .segmentComplete _ | .holdExpiry _ | .reCheckEnd _ | .repeatDue _ | .secondTick | .timeMessage _ _ | .ppsEdge _
  | .holdoverEntry | .driftingEntry | .restartAgeExpiry | .gnssSettled | .dutyRelease | .refixRequest
  | .refixBoundCrossed | .frameBegin | .transmissionComplete | .warmUpExpiry | .lingerExpiry | .listenPeriod
  | .listenWindowEnd | .downstreamFrame _ _ | .receiveTimeout | .scan _ | .fullRecalibration _ | .voltageOverride _
  | .overrideRelease _ | .cutoff _ | .spacingExpiry | .inrushAgeExpiry | .inrushSuspensionEnd | .burstEnd _
  | .restEnd _ | .saveComplete _ _ | .saveNoAnswer _ _ | .payloadLengthAbove96 _ _ | .supplyLoss => none

/-- The checks of a row's own operands: the entries of a write, an event number 1 to 65,535 (R67), an instance id 1 to
255 (R100), a class that has a re-check (R105), a heater (R158), the readings of a scan, a payload length above 96
(R133), no more bytes written than the image has (R183). -/
def Instr.operandsFit : Instr → Bool
  | .tableWriteStation _ _ _ es | .tableWriteChannel _ _ _ es | .tableWriteEvent _ _ _ es
  | .tableWriteTime _ _ _ es | .tableWriteCorrection _ _ _ es | .tableWriteAlert _ _ _ es
  | .tableWriteLoad _ _ _ es | .tableWriteZone _ _ _ es | .tableWriteBattery _ _ _ es
  | .tableWriteCountermask _ _ _ es => entriesFit es
  | .holdExpiry e => e != 0
  | .repeatDue i => i != 0
  | .reCheckEnd c => decide (3 ≤ c.val)
  | .burstEnd l => decide (2 ≤ l.val)
  | .scan x | .fullRecalibration x | .voltageOverride x | .overrideRelease x | .cutoff x => x.wf
  | .payloadLengthAbove96 _ h => decide (96 < h.length.toNat)
  | .saveNoAnswer _ n => decide (n ≤ 358)
  | .powerOn _ _ | .coldStartWaitEnd | .strobe | .digitizerFrame _ _ | .warmUpComplete _ _ | .forcedTriggerOff _ _
  | .blankingEnd _ _ | .contributionEnd _ _ | .forcedClosing _ | .eventClose _ | .quietTailEnd _
  | .segmentComplete _ | .secondTick | .timeMessage _ _ | .ppsEdge _
  | .holdoverEntry | .driftingEntry | .restartAgeExpiry | .gnssSettled | .dutyRelease | .refixRequest
  | .refixBoundCrossed | .frameBegin | .transmissionComplete | .warmUpExpiry | .lingerExpiry | .listenPeriod
  | .listenWindowEnd | .downstreamFrame _ _ | .receiveTimeout | .spacingExpiry | .inrushAgeExpiry
  | .inrushSuspensionEnd | .restEnd _ | .saveComplete _ _ | .supplyLoss
  | .hold _ _ _ | .release _ _ | .waveRequest _ _ _ _ | .waveCancel _ | .alertAck _ _ | .alertList _
  | .loadTest _ _ _ | .status _ | .tableRead _ _ _ _ | .counterRead _ _ _ | .counterClear _ _ _ | .timeSet _ _ _
  | .eventList _ | .eventRead _ _ | .save _ | .restart _ => true

/-- A well-formed command. -/
def Instr.wf (i : Instr) : Bool := i.sender.all Sender.wf && i.operandsFit

end Sys2Proof
end

