-- ==== Sys2Proof/Laws/PerInstr.lean ====
section
/-!
SUPPORT. The per-command family FitsDownstream: a well-formed command of a centre fits the payload of a downstream frame
(section 7.1: 96 bytes), so that every row of a centre can arrive as a DOWNSTREAM_FRAME. One lemma per row of the table.
-/

namespace Sys2Proof.Laws

/-- The payload that carries the row's command, if the row has one, has at most 96 bytes. -/
def FitsDownstream.Statement (i : Instr) : Prop := ∀ c, i.command = some c → i.wf = true → (encodeCommand c).length ≤ 96

/-- A row that is no command of a centre carries nothing. -/
theorem FitsDownstream.of_none {i : Instr} (h : i.command = none) : FitsDownstream.Statement i :=
  fun c hc => absurd (h ▸ hc) (by simp)

/-- A row whose command has a short payload. -/
theorem FitsDownstream.of_some {i : Instr} {c : Command} (h : i.command = some c) (n : (encodeCommand c).length ≤ 96) :
    FitsDownstream.Statement i := by
  intro c' hc _
  rw [h] at hc
  exact Option.some.inj hc ▸ n

/-- A row that writes table `t`: four bytes before the entries. -/
theorem FitsDownstream.of_write {i : Instr} {t f n : Nat} {es : List Byte} (h : i.command = some (.tableWrite t f n es))
    (w : i.wf = true → es.length ≤ 92) : FitsDownstream.Statement i := by
  intro c hc hw
  rw [h] at hc
  obtain rfl := Option.some.inj hc
  have := w hw
  simp only [encodeCommand, List.length_cons, List.length_append, toBytes_length]
  omega

namespace FitsDownstream

theorem powerOn (straps : Byte) (memoryAnswers : Bool) : Statement (.powerOn straps memoryAnswers) := of_none rfl

theorem coldStartWaitEnd : Statement (.coldStartWaitEnd) := of_none rfl

theorem strobe : Statement (.strobe) := of_none rfl

theorem digitizerFrame (after : Nat) (bytes : List Byte) : Statement (.digitizerFrame after bytes) := of_none rfl

theorem warmUpComplete (channel : Fin 6) (via : InstantStep) : Statement (.warmUpComplete channel via) := of_none rfl

theorem forcedTriggerOff (channel : Fin 6) (via : InstantStep) :
    Statement (.forcedTriggerOff channel via) := of_none rfl

theorem blankingEnd (channel : Fin 6) (via : InstantStep) : Statement (.blankingEnd channel via) := of_none rfl

theorem contributionEnd (channel : Fin 6) (via : InstantStep) : Statement (.contributionEnd channel via) := of_none rfl

theorem forcedClosing (via : InstantStep) : Statement (.forcedClosing via) := of_none rfl

theorem eventClose (via : InstantStep) : Statement (.eventClose via) := of_none rfl

theorem quietTailEnd (via : InstantStep) : Statement (.quietTailEnd via) := of_none rfl

theorem segmentComplete (via : InstantStep) : Statement (.segmentComplete via) := of_none rfl

theorem hold (src : Sender) (event : BitVec 16) (minutes : Byte) : Statement (.hold src event minutes) :=
  of_some rfl (by simp [encodeCommand])

theorem release (src : Sender) (event : BitVec 16) : Statement (.release src event) :=
  of_some rfl (by simp [encodeCommand])

theorem holdExpiry (event : BitVec 16) : Statement (.holdExpiry event) := of_none rfl

theorem waveRequest (src : Sender) (event : BitVec 16) (offset : Byte) (count : Byte) :
    Statement (.waveRequest src event offset count) :=
  of_some rfl (by simp [encodeCommand])

theorem waveCancel (src : Sender) : Statement (.waveCancel src) :=
  of_some rfl (by simp [encodeCommand])

theorem reCheckEnd (cls : Fin 8) : Statement (.reCheckEnd cls) := of_none rfl

theorem repeatDue (id : Byte) : Statement (.repeatDue id) := of_none rfl

theorem alertAck (src : Sender) (id : Byte) : Statement (.alertAck src id) :=
  of_some rfl (by simp [encodeCommand])

theorem alertList (src : Sender) : Statement (.alertList src) :=
  of_some rfl (by simp [encodeCommand])

theorem secondTick : Statement (.secondTick) := of_none rfl

theorem timeMessage (after : Nat) (bytes : List Byte) : Statement (.timeMessage after bytes) := of_none rfl

theorem ppsEdge (after : Nat) : Statement (.ppsEdge after) := of_none rfl

theorem holdoverEntry : Statement (.holdoverEntry) := of_none rfl

theorem driftingEntry : Statement (.driftingEntry) := of_none rfl

theorem restartAgeExpiry : Statement (.restartAgeExpiry) := of_none rfl

theorem gnssSettled : Statement (.gnssSettled) := of_none rfl

theorem dutyRelease : Statement (.dutyRelease) := of_none rfl

theorem refixRequest : Statement (.refixRequest) := of_none rfl

theorem refixBoundCrossed : Statement (.refixBoundCrossed) := of_none rfl

theorem frameBegin : Statement (.frameBegin) := of_none rfl

theorem transmissionComplete : Statement (.transmissionComplete) := of_none rfl

theorem warmUpExpiry : Statement (.warmUpExpiry) := of_none rfl

theorem lingerExpiry : Statement (.lingerExpiry) := of_none rfl

theorem listenPeriod : Statement (.listenPeriod) := of_none rfl

theorem listenWindowEnd : Statement (.listenWindowEnd) := of_none rfl

theorem downstreamFrame (after : WithStraps Nat) (bytes : List Byte) : Statement (.downstreamFrame after bytes) := of_none rfl

theorem receiveTimeout : Statement (.receiveTimeout) := of_none rfl

theorem scan (inputs : MonitorInputs) : Statement (.scan inputs) := of_none rfl

theorem fullRecalibration (inputs : MonitorInputs) : Statement (.fullRecalibration inputs) := of_none rfl

theorem voltageOverride (inputs : MonitorInputs) : Statement (.voltageOverride inputs) := of_none rfl

theorem overrideRelease (inputs : MonitorInputs) : Statement (.overrideRelease inputs) := of_none rfl

theorem cutoff (inputs : MonitorInputs) : Statement (.cutoff inputs) := of_none rfl

theorem spacingExpiry : Statement (.spacingExpiry) := of_none rfl

theorem inrushAgeExpiry : Statement (.inrushAgeExpiry) := of_none rfl

theorem inrushSuspensionEnd : Statement (.inrushSuspensionEnd) := of_none rfl

theorem burstEnd (load : Fin 8) : Statement (.burstEnd load) := of_none rfl

theorem restEnd (load : Fin 8) : Statement (.restEnd load) := of_none rfl

theorem loadTest (src : Sender) (load : Byte) (seconds : Byte) : Statement (.loadTest src load seconds) :=
  of_some rfl (by simp [encodeCommand])

theorem status (src : Sender) : Statement (.status src) :=
  of_some rfl (by simp [encodeCommand])

theorem tableWriteStation (src : Sender) (first : Byte) (count : Byte) (entries : List Byte) :
    Statement (.tableWriteStation src first count entries) :=
  of_write rfl fun h => by
    simpa [Instr.operandsFit, entriesFit] using ((Bool.and_eq_true _ _).mp h).2

theorem tableWriteChannel (src : Sender) (first : Byte) (count : Byte) (entries : List Byte) :
    Statement (.tableWriteChannel src first count entries) :=
  of_write rfl fun h => by
    simpa [Instr.operandsFit, entriesFit] using ((Bool.and_eq_true _ _).mp h).2

theorem tableWriteEvent (src : Sender) (first : Byte) (count : Byte) (entries : List Byte) :
    Statement (.tableWriteEvent src first count entries) :=
  of_write rfl fun h => by
    simpa [Instr.operandsFit, entriesFit] using ((Bool.and_eq_true _ _).mp h).2

theorem tableWriteTime (src : Sender) (first : Byte) (count : Byte) (entries : List Byte) :
    Statement (.tableWriteTime src first count entries) :=
  of_write rfl fun h => by
    simpa [Instr.operandsFit, entriesFit] using ((Bool.and_eq_true _ _).mp h).2

theorem tableWriteCorrection (src : Sender) (first : Byte) (count : Byte) (entries : List Byte) :
    Statement (.tableWriteCorrection src first count entries) :=
  of_write rfl fun h => by
    simpa [Instr.operandsFit, entriesFit] using ((Bool.and_eq_true _ _).mp h).2

theorem tableWriteAlert (src : Sender) (first : Byte) (count : Byte) (entries : List Byte) :
    Statement (.tableWriteAlert src first count entries) :=
  of_write rfl fun h => by
    simpa [Instr.operandsFit, entriesFit] using ((Bool.and_eq_true _ _).mp h).2

theorem tableWriteLoad (src : Sender) (first : Byte) (count : Byte) (entries : List Byte) :
    Statement (.tableWriteLoad src first count entries) :=
  of_write rfl fun h => by
    simpa [Instr.operandsFit, entriesFit] using ((Bool.and_eq_true _ _).mp h).2

theorem tableWriteZone (src : Sender) (first : Byte) (count : Byte) (entries : List Byte) :
    Statement (.tableWriteZone src first count entries) :=
  of_write rfl fun h => by
    simpa [Instr.operandsFit, entriesFit] using ((Bool.and_eq_true _ _).mp h).2

theorem tableWriteBattery (src : Sender) (first : Byte) (count : Byte) (entries : List Byte) :
    Statement (.tableWriteBattery src first count entries) :=
  of_write rfl fun h => by
    simpa [Instr.operandsFit, entriesFit] using ((Bool.and_eq_true _ _).mp h).2

theorem tableWriteCountermask (src : Sender) (first : Byte) (count : Byte) (entries : List Byte) :
    Statement (.tableWriteCountermask src first count entries) :=
  of_write rfl fun h => by
    simpa [Instr.operandsFit, entriesFit] using ((Bool.and_eq_true _ _).mp h).2

theorem tableRead (src : Sender) (table : Byte) (first : Byte) (count : Byte) :
    Statement (.tableRead src table first count) :=
  of_some rfl (by simp [encodeCommand])

theorem counterRead (src : Sender) (first : Byte) (count : Byte) : Statement (.counterRead src first count) :=
  of_some rfl (by simp [encodeCommand])

theorem counterClear (src : Sender) (first : Byte) (count : Byte) : Statement (.counterClear src first count) :=
  of_some rfl (by simp [encodeCommand])

theorem timeSet (src : Sender) (label : BitVec 40) (fraction : BitVec 24) : Statement (.timeSet src label fraction) :=
  of_some rfl (by simp [encodeCommand])

theorem eventList (src : Sender) : Statement (.eventList src) :=
  of_some rfl (by simp [encodeCommand])

theorem eventRead (src : Sender) (event : BitVec 16) : Statement (.eventRead src event) :=
  of_some rfl (by simp [encodeCommand])

theorem save (src : Sender) : Statement (.save src) :=
  of_some rfl (by simp [encodeCommand])

theorem saveComplete (after : Nat) (readBack : List Byte) : Statement (.saveComplete after readBack) := of_none rfl

theorem saveNoAnswer (after : Nat) (written : Nat) : Statement (.saveNoAnswer after written) := of_none rfl

theorem restart (src : WithStraps Sender) : Statement (.restart src) :=
  of_some rfl (by simp [encodeCommand])

theorem payloadLengthAbove96 (after : Nat) (header : LinkHeader) :
    Statement (.payloadLengthAbove96 after header) := of_none rfl

theorem supplyLoss : Statement (.supplyLoss) := of_none rfl

end FitsDownstream

end Sys2Proof.Laws
end

