-- ==== Sys2Proof/Laws/Settle.lean ====
section
/-!
SUPPORT. The work that follows every step: what each of its operations leaves alone, in the view `butSwitching`, and which
counters it counts in.
-/

namespace Sys2Proof.Machine

theorem butSwitching_of {s t : State} (h : t.butCounts = s.butCounts) : t.butSwitching = s.butSwitching :=
  congrArg State.butSwitching h |> fun (e : t.butCounts.butSwitching = s.butCounts.butSwitching) => e

@[simp] theorem count_butSwitching (k : Fin 40) (s : State) : (count k s).butSwitching = s.butSwitching :=
  butSwitching_of (count_butCounts k s)

@[simp] theorem withLda_butSwitching (s : State) (f : Lda → Lda) : (s.withLda f).butSwitching = s.butSwitching := rfl

@[simp] theorem updateLoad_butSwitching (l : Fin 8) (f : Load → Load) (s : State) :
    (updateLoad l f s).butSwitching = s.butSwitching := rfl

@[simp] theorem placeRequest_butSwitching (l : Fin 8) (r : Request) (s : State) :
    (placeRequest l r s).butSwitching = s.butSwitching := rfl

@[simp] theorem withdrawRequest_butSwitching (l : Fin 8) (s : State) :
    (withdrawRequest l s).butSwitching = s.butSwitching := rfl

@[simp] theorem refreshRequests_butSwitching (s : State) : (refreshRequests s).butSwitching = s.butSwitching := rfl

@[simp] theorem endRest_butSwitching (l : Fin 8) (s : State) : (endRest l s).butSwitching = s.butSwitching := rfl

@[simp] theorem judgeListening_butSwitching (s : State) : (judgeListening s).butSwitching = s.butSwitching := rfl

@[simp] theorem requestBlanking_butSwitching (g : Fin 4) (ms : Nat) (s : State) :
    (requestBlanking g ms s).butSwitching = s.butSwitching := by
  have h : ∀ (p : Bool) (d : Detector),
      (if p then { d with blank := max d.blank ms } else d).unblanked = d.unblanked := by
    intro p d; cases p <;> rfl
  simp only [State.butSwitching, requestBlanking, Six.map, Six.ofFn, h]
  rfl

@[simp] theorem reportSwitch_butSwitching (g : Fin 4) (ms : Nat) (s : State) :
    (reportSwitch g ms s).butSwitching = s.butSwitching := by
  unfold reportSwitch
  split
  · rfl
  · split
    · simp only [State.butSwitching, updateRecord, List.map_map]
      congr 2
      refine List.map_congr_left fun r _ => ?_
      rw [Function.comp]
      split <;> rfl
    · rfl

@[simp] theorem announceSwitch_butSwitching (l : Fin 8) (s : State) :
    (announceSwitch l s).butSwitching = s.butSwitching := by simp [announceSwitch]

@[simp] theorem tellOff_butSwitching (l : Fin 8) (s : State) : (tellOff l s).butSwitching = s.butSwitching := by
  unfold tellOff
  split
  · rfl
  · split <;> rfl

@[simp] theorem tellGrant_butSwitching (l : Fin 8) (s : State) : (tellGrant l s).butSwitching = s.butSwitching := by
  unfold tellGrant
  split
  · rfl
  · split <;> rfl

@[simp] theorem switchOff_butSwitching (l : Fin 8) (s : State) : (switchOff l s).butSwitching = s.butSwitching := by
  unfold switchOff
  split
  · rfl
  · dsimp only
    split <;> simp

@[simp] theorem enforcePermission_butSwitching (s : State) : (enforcePermission s).butSwitching = s.butSwitching := by
  have h : ∀ (ls : List (Fin 8)) (s : State),
      (ls.foldl (fun s l => if permitted s l then s else switchOff l s) s).butSwitching = s.butSwitching := by
    intro ls
    induction ls with
    | nil => intro s; rfl
    | cons l ls ih => intro s; rw [List.foldl_cons, ih]; split <;> simp
  exact h _ s

@[simp] theorem grant_butSwitching (l : Fin 8) (s : State) : (grant l s).butSwitching = s.butSwitching := by
  simp [grant]

@[simp] theorem deferOne_butSwitching (l : Fin 8) (s : State) : (deferOne l s).butSwitching = s.butSwitching := by
  unfold deferOne; split <;> simp

theorem deferAll_butSwitching (ls : List (Fin 8)) (s : State) :
    (ls.foldl (fun s l => deferOne l s) s).butSwitching = s.butSwitching := by
  induction ls generalizing s with
  | nil => rfl
  | cons l ls ih => rw [List.foldl_cons, ih]; simp

/-- One judgement of the arbiter: deferrals are marked, and a grant is followed by the next judgement. -/
theorem arbitrate_succ (n : Nat) (s d : State) (h : loadsInOrder.foldl (fun s l => deferOne l s) s = d) :
    arbitrate (n + 1) s = match chosenLoad d with | none => d | some l => arbitrate n (grant l d) := by
  subst h; rfl

@[simp] theorem arbitrate_butSwitching (n : Nat) (s : State) : (arbitrate n s).butSwitching = s.butSwitching := by
  induction n generalizing s with
  | zero => rfl
  | succ n ih =>
    obtain ⟨d, h⟩ : ∃ d, loadsInOrder.foldl (fun s l => deferOne l s) s = d := ⟨_, rfl⟩
    have hd : d.butSwitching = s.butSwitching := h ▸ deferAll_butSwitching loadsInOrder s
    rw [arbitrate_succ n s d h]
    cases chosenLoad d with
    | none => exact hd
    | some l => exact (ih _).trans ((grant_butSwitching l d).trans hd)

@[simp] theorem requestGnss_butSwitching (s : State) : (requestGnss s).butSwitching = s.butSwitching := by
  unfold requestGnss; split <;> simp

@[simp] theorem gnssWork_butSwitching (s : State) : (gnssWork s).butSwitching = s.butSwitching := by
  unfold gnssWork; split <;> simp

@[simp] theorem heaterWork_butSwitching (z : Fin 6) (s : State) : (heaterWork z s).butSwitching = s.butSwitching := by
  unfold heaterWork
  dsimp only
  split
  · split <;> simp
  · split <;> simp

@[simp] theorem heatersWork_butSwitching (s : State) : (heatersWork s).butSwitching = s.butSwitching := by
  simp [heatersWork]

@[simp] theorem endSuspension_butSwitching (s : State) : (endSuspension s).butSwitching = s.butSwitching := by
  unfold endSuspension
  split
  · rfl
  · split <;> rfl

@[simp] theorem endColdWait_butSwitching (s : State) : (endColdWait s).butSwitching = s.butSwitching := by
  unfold endColdWait; split <;> rfl

@[simp] theorem radioWork_butSwitching (s : State) : (radioWork s).butSwitching = s.butSwitching := by
  unfold radioWork
  split <;> (try split) <;> rfl

@[simp] theorem lingerWork_butSwitching (s : State) : (lingerWork s).butSwitching = s.butSwitching := by
  unfold lingerWork
  split
  · split
    · rfl
    · split
      · simp
      · rfl
  · rfl

@[simp] theorem judgeRequests_butSwitching (s : State) : (judgeRequests s).butSwitching = s.butSwitching := by
  simp [judgeRequests]

/-! ### What the fields are, from a view that is unchanged -/

theorem butSwitching_fields {s t : State} (h : t.butSwitching = s.butSwitching) :
    t.supply = s.supply ∧ t.osc = s.osc ∧ t.straps = s.straps ∧ t.sif = s.sif ∧ t.wfs = s.wfs ∧ t.alu = s.alu ∧
      t.bmn = s.bmn ∧ t.hzc = s.hzc ∧ t.cmd = s.cmd ∧ t.tables = s.tables ∧ t.image = s.image ∧
      t.pending = s.pending := by
  simp only [State.butSwitching, State.mk.injEq] at h
  tauto

theorem butSwitching_tmb {s t : State} (h : t.butSwitching = s.butSwitching) :
    { t.tmb with gnss := .off, onTime := 0, lockedTime := 0 } =
      { s.tmb with gnss := .off, onTime := 0, lockedTime := 0 } :=
  congrArg (fun s : State => s.tmb) h

theorem butSwitching_lnk {s t : State} (h : t.butSwitching = s.butSwitching) :
    { t.lnk with notices := [], radio := .off, warmLeft := none, lingerLeft := none, listening := true } =
      { s.lnk with notices := [], radio := .off, warmLeft := none, lingerLeft := none, listening := true } :=
  congrArg (fun s : State => s.lnk) h

theorem butSwitching_det {s t : State} (h : t.butSwitching = s.butSwitching) (c : Fin 6) :
    (t.det.get c).unblanked = (s.det.get c).unblanked := by
  have h' : t.det.map Detector.unblanked = s.det.map Detector.unblanked := congrArg (fun s : State => s.det) h
  have := congrArg (fun v : Six Detector => v.get c) h'
  revert c
  simp only [Six.map, Six.mk.injEq] at h'
  intro c _
  match c with
  | 0 => exact h'.1
  | 1 => exact h'.2.1
  | 2 => exact h'.2.2.1
  | 3 => exact h'.2.2.2.1
  | 4 => exact h'.2.2.2.2.1
  | 5 => exact h'.2.2.2.2.2

theorem butSwitching_evu {s t : State} (h : t.butSwitching = s.butSwitching) :
    { t.evu with table := t.evu.table.map EventRecord.unblanked } =
      { s.evu with table := s.evu.table.map EventRecord.unblanked } :=
  congrArg (fun s : State => s.evu) h

/-! ### The counters that settling counts in: K28 to K36 -/

@[simp] theorem updateLoad_cnt (l : Fin 8) (f : Load → Load) (s : State) : (updateLoad l f s).cnt = s.cnt := rfl

@[simp] theorem announceSwitch_cnt (l : Fin 8) (s : State) : (announceSwitch l s).cnt = s.cnt := by
  unfold announceSwitch reportSwitch
  dsimp only
  split
  · rfl
  · split <;> rfl

@[simp] theorem tellOff_cnt (l : Fin 8) (s : State) : (tellOff l s).cnt = s.cnt := by
  unfold tellOff
  split
  · rfl
  · split <;> rfl

@[simp] theorem tellGrant_cnt (l : Fin 8) (s : State) : (tellGrant l s).cnt = s.cnt := by
  unfold tellGrant
  split
  · rfl
  · split <;> rfl

@[simp] theorem endRest_cnt (l : Fin 8) (s : State) : (endRest l s).cnt = s.cnt := by
  unfold endRest
  exact updateLoad_cnt l _ s

/-- All that switching a load off does: nothing to a load that is not ON; otherwise the announcement, the change of the
load, the word to its requester, and the end of a rest of 0. -/
theorem switchOff_cases (l : Fin 8) (s : State) :
    switchOff l s = s ∨
      ∃ f t, t = tellOff l (updateLoad l f (announceSwitch l s)) ∧ (switchOff l s = t ∨ switchOff l s = endRest l t) := by
  unfold switchOff
  split
  · exact .inl rfl
  · refine .inr ⟨fun x =>
      { x with
        state := .resting, request := none, remembered := false, deferred := false, burst := 0
        rest := (s.tables.load.get l).minRest * Config.second }, _, rfl, ?_⟩
    dsimp only
    split
    · exact .inr rfl
    · exact .inl rfl

@[simp] theorem switchOff_cnt (l : Fin 8) (s : State) : (switchOff l s).cnt = s.cnt := by
  obtain h | ⟨f, t, rfl, h | h⟩ := switchOff_cases l s <;> rw [h] <;> simp

/-- The counter of a load's activations: K28 for L0 to K35 for L7 (R156). -/
abbrev activationCounter (l : Fin 8) : Fin 40 := ⟨28 + l.val, by omega⟩

@[simp] theorem withLda_cnt (f : Lda → Lda) (s : State) : (s.withLda f).cnt = s.cnt := rfl

theorem grant_cnt (l : Fin 8) (s : State) :
    (grant l s).cnt = s.cnt.set (activationCounter l) (s.cnt[activationCounter l] + 1) := by
  unfold grant
  generalize (if (zoneOf l).isSome then _ else 0) = b
  dsimp only
  rw [tellGrant_cnt, announceSwitch_cnt, count_cnt, withLda_cnt, updateLoad_cnt]

/-- A grant counts the load's activation and nothing else. -/
theorem grant_getElem (l : Fin 8) (k : Fin 40) (s : State) :
    (grant l s).cnt[k] = if k.val = 28 + l.val then s.cnt[k] + 1 else s.cnt[k] := by
  rw [grant_cnt]
  by_cases h : k.val = 28 + l.val
  · have e : activationCounter l = k := Fin.ext h.symm
    subst e
    simp
  · rw [if_neg h]
    simp only [Fin.getElem_fin]
    rw [Vector.getElem_set_ne]
    exact Ne.symm h

/-- A deferral counts in K36 and nothing else. -/
theorem deferOne_getElem (l : Fin 8) (k : Fin 40) (s : State) (h : k ≠ 36) : (deferOne l s).cnt[k] = s.cnt[k] := by
  unfold deferOne
  split
  · rw [count_getElem, if_neg (Ne.symm h), updateLoad_cnt]
  · rfl

end Sys2Proof.Machine
end

