-- ==== Sys2Proof/Laws/Steps.lean ====
section
/-!
SUPPORT. Laws of a step's forms: a step that is due or not, the sample instants that a delivery is made of, the ticks of a
second, and what a step of station time and the end of a correction entry leave alone.
-/

namespace Sys2Proof.Machine

/-! ### A step that is due, and an occurrence inside a step -/

theorem stepWhen_of_due {due : State → Bool} {f : State → State} {s : State} (hs : s.supply = .on) (h : due s = true) :
    stepWhen due f s = .next (settle (f s)) := by
  simp [stepWhen, hs, h]

theorem stepWhen_of_not_due {due : State → Bool} {f : State → State} {s : State} (h : due s = false) :
    stepWhen due f s = .next s := by
  simp [stepWhen, h]

theorem stepIf_of_happens {p : State → State → Bool} {f : State → State} {s : State} (hs : s.supply = .on)
    (h : p s (f s) = true) : stepIf p f s = .next (settle (f s)) := by
  simp [stepIf, hs, h]

/-! ### The instants of a delivery are the delivery -/

theorem getLast?_cons_map {α β : Type} (x : α) (l : List α) (g : α → β) (d : β) :
    (((x :: l).getLast?.map g).getD d) = (l.getLast?.map g).getD (g x) := by
  cases l with
  | nil => rfl
  | cons y l => simp [List.getLast?_cons]

/-- A delivery from the front leaves what its last instant leaves. -/
theorem deliverFront_eq_instants (n : Nat) (s : State) :
    deliverFront n s = ((frontInstants n s).getLast?.map Instant.after).getD s := by
  induction n generalizing s with
  | zero => rfl
  | succ n ih =>
    unfold deliverFront frontInstants
    cases hs : s.sif.strobes with
    | nil => rfl
    | cons e rest =>
      cases hf : e.frame with
      | none => simp [hf]
      | some f =>
        have h : deliver e f (s.withSif fun x => { x with strobes := rest }) = Instant.after ⟨e, withStrobes rest s⟩ := by
          simp [Instant.after, leave, hf, withStrobes]
        simp only [hf, Option.isSome_some, if_true, getLast?_cons_map, h, ih]

/-- A push-out leaves what its last instant leaves. -/
theorem pushOut_eq_instants (s : State) : pushOut s = ((pushInstants s).getLast?.map Instant.after).getD s := by
  unfold pushOut pushInstants
  split
  · rfl
  · cases s.sif.strobes with
    | nil => rfl
    | cons e rest =>
      simp only [getLast?_cons_map, deliverFront_eq_instants]
      rfl

/-! ### The ticks of a crossing are the crossing's -/

/-- A crossing with its tick ends in that tick, the last of the crossing's ticks. -/
theorem crossBoundary_eq_ticks (d : Nat) (s : State) :
    crossBoundary d true s = ((crossingTicks d true s).getLast?.map tickBlocks).getD s := by
  cases d with
  | zero => rfl
  | succ d =>
    simp only [crossBoundary, crossingTicks, fireDue, if_true, List.getLast?_append, List.getLast?_singleton,
      Option.some_or, Option.map_some, Option.getD_some]
    rfl

/-- A crossing at which no entry is due has one tick, which finds what stood on the boundary. -/
theorem crossingTicks_of_none_due (d : Nat) {s : State} (h : ∀ i, stillDue s s.tmb.label i = false) :
    crossingTicks d true s = [s] := by
  cases d with
  | zero => rfl
  | succ d => simp [crossingTicks, fireNext, h]

theorem crossingTicks_ne_nil (d : Nat) (s : State) : crossingTicks d true s ≠ [] := by
  cases d <;> simp [crossingTicks]

/-- What the end of a second leaves is what its last tick leaves, run on past the boundary. -/
theorem secondBoundary_eq_ticks {s : State} (h : s.tmb.wrapsSilently = false) :
    secondBoundary s =
      (((boundaryTicks s).getLast?.map tickBlocks).getD s).withTmb fun t =>
        { t with ns := t.ns + (s.tmb.ns - Config.second) } := by
  unfold secondBoundary boundaryTicks
  cases hf : s.tmb.inFirstRun with
  | true => simp [h]
  | false =>
    have ht := crossBoundary_eq_ticks boundaryDepth (onNextBoundary s)
    cases hl : (crossingTicks boundaryDepth true (onNextBoundary s)).getLast? with
    | none => exact absurd (List.getLast?_eq_none_iff.mp hl) (crossingTicks_ne_nil _ _)
    | some z => simp [h, hl, enterBoundary, ht]

/-! ### Steps of station time and correction entries -/

/-- The end of a correction entry changes that entry's status and the notice queue. -/
theorem endEntry_eq (i : Fin 3) (status : CorrectionStatus) (s : State) :
    ∃ q, endEntry i status s =
      { s with
        tables := { s.tables with
          correction := s.tables.correction.set i { s.tables.correction.get i with status := status } }
        lnk := { s.lnk with notices := q } } := by
  unfold endEntry
  dsimp only
  obtain ⟨q, -, -, h⟩ := queueNotice_eq
    (.correction i (s.tables.correction.get i).kind (s.tables.correction.get i).target (status == .fired)) 0
    { s with tables := { s.tables with correction := s.tables.correction.set i { s.tables.correction.get i with status := status } } }
  exact ⟨q, h⟩

/-- A missed entry changes the correction entries and the notice queue. -/
theorem missOne_eq (old new : Nat) (i : Fin 3) (s : State) :
    ∃ c q, missOne old new i s =
      { s with tables := { s.tables with correction := c }, lnk := { s.lnk with notices := q } } := by
  unfold missOne
  dsimp only
  split
  · obtain ⟨q, h⟩ := endEntry_eq i .missed s
    exact ⟨_, q, h⟩
  · exact ⟨s.tables.correction, s.lnk.notices, rfl⟩

/-- A step of station time changes TMB by its landing, the correction entries and the notice queue, and nothing else. -/
theorem stepOver_eq (label ns : Nat) (s : State) :
    ∃ c q, stepOver label ns s =
      { s with
        tmb := s.tmb.landAt label ns s.periodNs
        tables := { s.tables with correction := c }
        lnk := { s.lnk with notices := q } } := by
  unfold stepOver
  dsimp only [List.foldl_cons, List.foldl_nil]
  obtain ⟨c₀, q₀, h₀⟩ := missOne_eq (sinceEpoch s.tmb.label s.tmb.ns) (sinceEpoch label ns) 0
    (s.withTmb (Tmb.landAt label ns s.periodNs))
  obtain ⟨c₁, q₁, h₁⟩ := missOne_eq (sinceEpoch s.tmb.label s.tmb.ns) (sinceEpoch label ns) 1
    (missOne (sinceEpoch s.tmb.label s.tmb.ns) (sinceEpoch label ns) 0 (s.withTmb (Tmb.landAt label ns s.periodNs)))
  obtain ⟨c₂, q₂, h₂⟩ := missOne_eq (sinceEpoch s.tmb.label s.tmb.ns) (sinceEpoch label ns) 2
    (missOne (sinceEpoch s.tmb.label s.tmb.ns) (sinceEpoch label ns) 1
      (missOne (sinceEpoch s.tmb.label s.tmb.ns) (sinceEpoch label ns) 0 (s.withTmb (Tmb.landAt label ns s.periodNs))))
  exact ⟨c₂, q₂, by rw [h₂, h₁, h₀]; rfl⟩

/-- The marked seconds after an INSERT has marked one (R30). -/
theorem Tmb.mem_marks_markSecond (label l : Nat) (t : Tmb) :
    l ∈ (t.markSecond label).marks ↔ l = label ∨ l ∈ t.marks := by
  unfold Tmb.markSecond
  dsimp only
  split
  · rename_i h
    have h : label ∈ t.marks := by simpa using h
    exact ⟨.inr, fun hl => hl.elim (fun e => e ▸ h) id⟩
  · rw [List.mem_append, List.mem_singleton, or_comm]

/-- The end of a first run sets the label back and ends its mark (R30). -/
theorem Tmb.nextSecond_of_firstRun {t : Tmb} (h : t.inFirstRun = true) :
    t.nextSecond = { t with repeating := true, marks := t.marks.filter fun l => l != t.label } := if_pos h

/-- The end of any other second advances the label. -/
theorem Tmb.nextSecond_of_not_firstRun {t : Tmb} (h : t.inFirstRun = false) :
    t.nextSecond =
      { t with label := t.label + 1, repeating := false, marks := t.marks.filter fun l => decide (t.label + 1 ≤ l) } :=
  if_neg (by simp [h])

/-- The label being entered never lies behind station time. -/
theorem le_enteredAfter (n : Nat) (s : State) : s.tmb.label ≤ enteredAfter n s := by
  unfold enteredAfter
  split
  · exact Nat.le_refl _
  · exact Nat.le_max_right _ _

/-- A fired DELETE is a step over one second, with what its landing does where it lands on a boundary. -/
theorem fireDelete_cases (land : State → State) (s : State) :
    let t := stepOver (min Config.maxLabel (s.tmb.label + 1)) s.tmb.ns s
    fireDelete land s = if s.tmb.ns = 0 then land t else t := by
  obtain ⟨c, q, h⟩ := stepOver_eq (min Config.maxLabel (s.tmb.label + 1)) s.tmb.ns s
  simp only [fireDelete, h, Tmb.landAt]

/-! ### Requests that a judgement has remembered -/

/-- What a judgement does to a zone's heater: a request remembered for a rest without one, and nothing otherwise. -/
theorem rememberOne_eq (z : Fin 6) (s : State) :
    rememberOne z s =
      updateLoad (heaterOf z)
        (fun x =>
          if (s.hzc.zones.get z).demand = true ∧ x.state = .resting ∧ x.remembered = false then
            { x with request := some hzcRequest, remembered := true }
          else x) s := by
  unfold rememberOne updateLoad placeRequest
  dsimp only
  split
  · rename_i h
    obtain ⟨h₀, h₁, h₂⟩ := h
    simp [updateLoad, State.withLda, h₀, h₁, h₂]
  · rename_i h
    simp only [if_neg h, State.withLda, Eight.set_get_self]

end Sys2Proof.Machine
end

