-- ==== Sys2Proof/Tests/Slice0.lean ====
section
/-!
SUPPORT. Tests: ill-formed commands that each check of WellFormed refuses; single steps of the worked sequences of spec/,
with the results that the spec prints; and, for every statement with hypotheses, operands and a state that meet them.
-/

namespace Sys2Proof.Tests.Slice0

set_option Elab.async false

open Sys2Proof Sys2Proof.Machine

set_option maxRecDepth 20000

/-! ### Helpers -/

/-- The state a command leads to. -/
def run (c : Instr) (s : State) : State := match exec c s with | .next t => t | _ => State.reset

/-- An addressed command's sender. -/
def src (centre : Nat) : Sender := ⟨0, BitVec.ofNat 8 centre, 7, false⟩

/-- A broadcast's sender. -/
def all : Sender := ⟨0, 1, 7, true⟩

/-- A digitizer frame with the same sample on every channel. -/
def dig (seq : Byte) (x : Int) (fault : Bool) : DigFrame := ⟨seq, Six.fill x, Six.fill false, fault⟩

/-- Its bytes. -/
def bytes (seq : Byte) : List Byte := encodeDigFrame (dig seq 0 false)

/-- A strobe of the list, with or without its frame. -/
def strobe (seq : Byte) (held : Bool) : Strobe :=
  ⟨seq, ⟨1, 0⟩, .locked, false, false, if held then some (dig seq 0 false) else none⟩

/-- The reset state with a strobe list, and 39 as the last accepted sequence. -/
def withList (l : List Strobe) (next : Byte) : State :=
  { State.reset with sif := { Cold.sif 200 with strobes := l, nextSeq := next, lastAccepted := some 39 } }

/-- One strobe outstanding, and a change of the state. -/
def front (f : State → State) : State := f (withList [strobe 40 false] 41)

/-- The sequence numbers of the list, with the entries that hold a frame. -/
def listOf (s : State) : List (Byte × Bool) := s.sif.strobes.map fun e => (e.seq, e.frame.isSome)

theorem arrives (f : State → State) (h : (f (withList [strobe 40 false] 41)).sif = (withList [strobe 40 false] 41).sif)
    (hs : (f (withList [strobe 40 false] 41)).supply = .on) :
    FrontArrives (bytes 40) (dig 40 0 false) (strobe 40 false) [] (front f) where
  supply := hs
  decoded := by decide +kernel
  strobes := by rw [front, h]; rfl
  empty := rfl
  sequence := rfl
  behind := by simp
  good := rfl

theorem accepted (centre : Nat) (h : 1 ≤ (BitVec.ofNat 8 centre).toNat ∧ (BitVec.ofNat 8 centre).toNat ≤ 15) (c : Command)
    (s : State) (hs : s.supply = .on) (hr : s.lnk.replies.length < 6) : Accepted (src centre) c s :=
  ⟨hs, h, fun _ => hr, fun h => absurd h (by simp [src])⟩

/-! ### WellFormed: one ill-formed command for each check -/

theorem test_refuses_centre_0 : (Instr.status (src 0)).wf = false := by decide
theorem test_refuses_centre_16 : (Instr.alertList (src 16)).wf = false := by decide
theorem test_accepts_centre_15 : (Instr.status (src 15)).wf = true := by decide
theorem test_refuses_entries_above_payload :
    (Instr.tableWriteChannel (src 1) 0 6 (List.replicate 93 0)).wf = false := by decide
theorem test_refuses_event_0 : (Instr.holdExpiry 0).wf = false := by decide
theorem test_refuses_alert_id_0 : (Instr.repeatDue 0).wf = false := by decide
theorem test_refuses_recheck_of_event_class : (Instr.reCheckEnd 2).wf = false := by decide
theorem test_refuses_burst_of_radio : (Instr.burstEnd 0).wf = false := by decide
theorem test_refuses_reading_out_of_range : (Instr.scan ⟨some 32768, some 0, Four.fill none⟩).wf = false := by decide
theorem test_refuses_length_96 : (Instr.payloadLengthAbove96 0 ⟨8, 0, 0, 1, 1, 96⟩).wf = false := by decide
theorem test_refuses_written_above_image : (Instr.saveNoAnswer 0 359).wf = false := by decide

/-! ### Section 1.6: a late frame, a duplicate and a push-out -/

def list41 : State := withList [strobe 40 false, strobe 41 true, strobe 42 false, strobe 43 false] 44
def list45 : State := withList [strobe 42 false, strobe 43 false, strobe 44 true, strobe 45 true] 46

/-- Step 3: frame 40 delivers 40 and 41. -/
theorem test_late_frame_delivers_two :
    let t := run (.digitizerFrame 0 (bytes 40)) list41
    listOf t = [(42, false), (43, false)] ∧ t.sif.lastAccepted = some 41 ∧ t.cnt[0] = 2 ∧ t.sif.missingRun = 0 := by
  decide +kernel

/-- Step 8: a repeat of a frame still in the list is a duplicate. -/
theorem test_repeat_is_duplicate :
    let t := run (.digitizerFrame 0 (bytes 45)) list45
    listOf t = listOf list45 ∧ t.cnt[3] = 1 ∧ t.cnt[2] = 0 := by
  decide +kernel

/-- Step 9: strobe 46 pushes 42 out, missing. -/
theorem test_push_out_declares_missing :
    let t := run .strobe list45
    listOf t = [(43, false), (44, true), (45, true), (46, false)] ∧ t.sif.missingRun = 1 ∧ t.cnt[4] = 1 ∧ t.cnt[0] = 0 := by
  decide +kernel

/-! ### Section 1.7: gap reset -/

/-- Step 3: the run reaches 3; gap reset and A6, and the detectors warm again. -/
theorem test_gap_reset :
    let s := withList [strobe 52 false, strobe 53 false, strobe 54 false, strobe 55 false] 56
    let s := { s with
      sif := { s.sif with missingRun := 2 }
      tables := { s.tables with station := { s.tables.station with gapReset := 3 } }
      det := Six.fill { Cold.detector true with state := .armed } }
    let t := run .strobe s
    t.sif.missingRun = 3 ∧ t.sif.gapSignalled = true ∧ t.sif.a6 = true ∧
      (t.det.get 0).state = .warming ∧ t.alu.queue.map (·.payload) = [some (.digitizer .gap 3)] := by
  decide +kernel

/-- Step 5: a fault-flagged frame is delivered as missing. -/
theorem test_fault_frame :
    let s := withList [strobe 54 false, strobe 55 false] 56
    let t := run (.digitizerFrame 0 (encodeDigFrame (dig 54 0 true))) { s with sif := { s.sif with missingRun := 4 } }
    listOf t = [(55, false)] ∧ t.sif.missingRun = 5 ∧ t.sif.a6 = true ∧ t.cnt[0] = 1 ∧ t.cnt[4] = 1 ∧ t.cnt[5] = 1 := by
  decide +kernel

/-! ### Sections 3.12 and 3.13: trigger-on, trigger-off, a clipped sample -/

/-- The CHANNEL entry of the case; a baseline shift under which the baseline stays below 256, so that the CF is the sample. -/
def c2 : ChannelEntry := { Defaults.channel with h := 16, a := 2, b := 6, ron := 64, roff := 24, lmin := 1 }
def quiet (sta lta : Int) (st : DetState) : Detector := ⟨0, sta, lta, st, false, 0, false, 0, 0⟩

theorem test_worked_sample_1 :
    let r := detectorInstant c2 200 (some (1000, false)) (quiet 25600 25600 .armed)
    (r.det.sta, r.det.lta, r.change) = (83200, 29200, none) := by decide +kernel

theorem test_worked_sample_3 :
    let r := detectorInstant c2 200 (some (1000, false)) (quiet 126400 32743 .armed)
    (r.det.sta, r.det.lta, r.change, r.det.state) = (158800, 36231, some true, .triggered) := by decide +kernel

theorem test_worked_sample_6 :
    let r := detectorInstant c2 200 (some (100, false)) (quiet 100525 36231 .triggered)
    (r.det.sta, r.det.lta, r.change) = (81793, 36231, none) := by decide +kernel

theorem test_worked_sample_9 :
    let r := detectorInstant c2 200 (some (100, false)) (quiet 57208 36231 .triggered)
    (r.det.sta, r.det.lta, r.change, r.det.state) = (49306, 36231, some false, .armed) := by decide +kernel

theorem test_clipped_sample :
    let r := detectorInstant c2 200 (some (8388607, true)) (quiet 25600 25600 .armed)
    (r.det.sta, r.det.lta, r.det.state) = (1073760960, 67134060, .triggered) := by decide +kernel

/-! ### Sections 2.3 and 2.11: disciplined edges -/

theorem test_discipline_240 :
    let t := Tmb.discipline 1 4 240 { Cold.tmb with freq := 12000 }
    t.freq = 10500 ∧ t.slew = some ⟨120, 0⟩ := by decide
theorem test_discipline_minus_240 :
    let t := Tmb.discipline 1 4 (-240) { Cold.tmb with freq := 12000 }
    t.freq = 13500 ∧ t.slew = some ⟨-120, 0⟩ := by decide
theorem test_discipline_7 :
    let t := Tmb.discipline 1 4 7 { Cold.tmb with freq := 12000 }
    t.freq = 11957 ∧ t.slew = some ⟨3, 0⟩ := by decide

/-- A state with L1 ACTIVE in a time-quality state, `ns` past the boundary into label 100, and a message for label `m`. -/
def edge (tq : TimeQuality) (ns m : Nat) : State :=
  { State.reset with
    tmb := { Cold.tmb with
      label := 100, ns := ns, tq := tq, gnss := .active, message := some ⟨m, true, 9⟩, way := some .continuous }
    tables := { Defaults.tables with time := { Defaults.time with lockCount := 4, ki := 4 } } }

/-- Edge 8 of section 2.11: e = -12 ns with lock count 3. -/
theorem test_edge_8_locks :
    let s := edge .acquiring 999999988 101
    let t := run (.ppsEdge 0) { s with tmb := { s.tmb with freq := -13468, lockCount := 3 } }
    t.tmb.freq = -13393 ∧ t.tmb.slew = some ⟨-6, 0⟩ ∧ t.tmb.tq = .locked ∧ t.tmb.lockCount = 0 ∧ t.tmb.refixArmed = true := by
  decide +kernel

/-- Edge 1 of section 2.11: the step to 812,000,100. -/
theorem test_edge_1_steps :
    let t := run (.ppsEdge 0) (edge .unset 5 812000100)
    t.tmb.label = 812000100 ∧ t.tmb.ns = 0 ∧ t.tmb.tq = .acquiring ∧ t.tmb.stepMark = true ∧ t.cnt[39] = 1 := by
  decide +kernel

/-! ### Section 6.10: the queue at 12 instances -/

def alert (id : Nat) (cls : Fin 8) (priority order : Nat) : AlertInstance :=
  ⟨id, cls, priority, order, ⟨⟨0, 0⟩, .locked⟩, 1, none, [1], 1, 30, .sent, false⟩

/-- The queue before step 9. -/
def queue9 : List AlertInstance :=
  [alert 23 0 1 103, alert 24 1 1 104, alert 26 0 1 106, alert 28 0 1 108, alert 30 0 1 110, alert 25 2 2 105,
    alert 27 2 2 107, alert 29 2 2 109, alert 31 2 2 111, alert 22 6 3 102, alert 20 3 4 100, alert 21 7 4 101]

def alerts9 : State :=
  { State.reset with alu := { Cold.alu with queue := queue9, nextId := 32, nextOrder := 112 } }

/-- Step 9: the A0 raise removes id 21, and A7's re-check starts. -/
theorem test_full_queue_gives_way :
    let t := raiseAlert 0 none alerts9
    t.alu.queue.map (·.id) = [23, 24, 26, 28, 30, 32, 25, 27, 29, 31, 22, 20] ∧ t.alu.recheck.get 7 = some 1800 ∧
      t.cnt[17] = 1 ∧ t.cnt[21] = 1 ∧ t.alu.nextId = 33 := by
  decide +kernel

/-- Step 12's drop: no lower priority present, so the raise takes no id. -/
theorem test_full_queue_drops :
    let t := raiseAlert 7 none alerts9
    t.alu.queue = queue9 ∧ t.cnt[21] = 1 ∧ t.alu.nextId = 32 ∧ t.alu.recheck.get 7 = some 1800 := by
  decide +kernel

/-! ### Sections 8.7 and 8.8: charge and levels -/

theorem test_count_scan_2 : countCharge 100000 50000 1900 (netCharge 95 2000) = (50001, 200) := by decide
theorem test_count_scan_5 : countCharge 100000 1 500 (netCharge 95 (-3000)) = (0, 1100) := by decide
theorem test_count_scan_6 : countCharge 100000 0 1100 (netCharge 95 (-3000)) = (0, 0) := by decide
theorem test_count_scan_9 : countCharge 100000 0 38 (netCharge 95 1) = (0, 38) := by decide
theorem test_count_upper_end : countCharge 100000 99999 3000 (netCharge 95 5000) = (100000, 0) := by decide
theorem test_rest_estimate : restEstimate Defaults.battery 12230 = 380 := by decide
theorem test_level_walk :
    socLevelNext Defaults.battery 199 .survival = .survival ∧ socLevelNext Defaults.battery 200 .survival = .essential ∧
      socLevelNext Defaults.battery 349 .essential = .essential ∧ socLevelNext Defaults.battery 350 .essential = .conserve ∧
      socLevelNext Defaults.battery 550 .conserve = .full ∧ socLevelNext Defaults.battery 299 .conserve = .essential ∧
      socLevelNext Defaults.battery 149 .essential = .survival := by decide

/-- Inputs of a scan, with every sensor at 10.0 degrees. -/
def inputs (v i : Int) : MonitorInputs := ⟨some v, some i, Four.fill (some 100)⟩

/-- The cold start of section 8.8: the first scan estimates 380 permille and forms CONSERVE. -/
theorem test_first_scan :
    let t := run (.scan (inputs 12230 0)) State.reset
    t.bmn.q = 38000 ∧ t.bmn.shed = .conserve ∧ t.bmn.formed = true ∧ t.bmn.gate = some .opened ∧
      t.lnk.notices.length = 1 := by
  decide +kernel

/-! ### Section 9.8: three heaters -/

def record : EventRecord :=
  ⟨37, .closed, ⟨⟨5, 0⟩, .locked⟩, [], some ⟨⟨9, 0⟩, .locked⟩, some .normal, false, false, false, false, ⟨some 1, 1, .kept⟩⟩

def requested (critical : Bool) : Load := ⟨.requested, some ⟨.hzc, 5, critical⟩, false, false, 0, 0⟩

/-- The state at 10.0 s: L3 waits, one activation has aged out, and an event is in progress. -/
def heaters (critical : Bool) : State :=
  { State.reset with
    osc := 10000000000
    bmn := { Cold.bmn with formed := true, shed := .full }
    lnk := Cold.lnk 1
    evu := { Cold.evu with phase := .opened, current := some 37, table := [{ record with state := .opened }] }
    hzc := { Cold.hzc with
      handed := some (Four.fill (some (-101)))
      zones := (Six.fill ⟨some (some (-101)), false, false, false⟩).set 1 ⟨some (some (-101)), true, critical, critical⟩ }
    lda := { Cold.lda 3 10 with
      coldWait := false
      record := [0, 1000000000, 2000000000]
      lastAct := some 2000000000
      lastGroup := ⟨some 2000000000, none, some 0, some 1000000000⟩
      loads := (Eight.fill Cold.load).set 3 (requested critical) } }

/-- At 10.0 the quiet hold alone bars L3: deferred, and K36 counts one. -/
theorem test_deferral :
    let t := settle (heaters false)
    (t.lda.loads.get 3).state = .requested ∧ (t.lda.loads.get 3).deferred = true ∧ t.cnt[36] = 1 ∧ t.cnt[31] = 0 := by
  decide +kernel

/-- The cold-start wait, which is no condition of R155, does not put the deferral off (R160). -/
theorem test_deferral_in_cold_wait :
    let t := settle { heaters false with lda := { (heaters false).lda with coldWait := true } }
    (t.lda.loads.get 3).deferred = true ∧ t.cnt[36] = 1 := by
  decide +kernel

/-- At 17.0 a critical zone's heater is granted beside the quiet hold, and the record drops 0.0. -/
theorem test_critical_grant :
    let t := settle { heaters true with osc := 17000000000 }
    (t.lda.loads.get 3).state = .on ∧ t.lda.record = [1000000000, 2000000000, 17000000000] ∧ t.cnt[31] = 1 ∧
      (t.lda.loads.get 3).burst = 120000000000 := by
  decide +kernel

/-! ### Section 10.7: a CHANNEL write refused, then stored -/

def c2Written : ChannelEntry := { Defaults.channel with a := 4, b := 18 }

/-- The refusal names the second entry, index 3. -/
theorem test_channel_write_refused :
    let es := encodeEntry 2 (.channel c2Written) ++
      encodeEntry 3 (.channel { Defaults.channel with ron := 10, roff := 30 })
    let d := cmdTableWrite 2 2 2 es State.reset
    d.status = .refused .badValue ∧ d.data = .index 3 ∧ d.state.tables = State.reset.tables := by
  decide +kernel

/-- The second write is CLAMPED: C2's b is stored as 15. -/
theorem test_channel_write_clamped :
    let es := encodeEntry 2 (.channel c2Written) ++
      encodeEntry 3 (.channel { Defaults.channel with ron := 64, roff := 30 })
    let d := cmdTableWrite 2 2 2 es State.reset
    d.status = .clamped ∧ (d.state.tables.channel.get 2).b = 15 ∧ (d.state.tables.channel.get 3).ron = 64 ∧
      (d.state.det.get 2).state = .warming := by
  decide +kernel

/-! ### What meets the statements' hypotheses: the machine, supply, the sample interface -/

theorem test_meets_StepTakesFrontCommandOrIdles : State.reset.pending = [] := rfl

theorem test_meets_SettlingLeavesTheRestAlone : (27 : Fin 40).val < 28 ∧ 36 < (37 : Fin 40).val := by decide

theorem test_meets_OccurrenceRowsAreTheirStep :
    Instr.eventClose .strobe ∈
        [.warmUpComplete 0 .strobe, .forcedTriggerOff 0 .strobe, .blankingEnd 0 .strobe, .contributionEnd 0 .strobe,
          .forcedClosing .strobe, .eventClose .strobe, .quietTailEnd .strobe, .segmentComplete .strobe] ∧
      Instr.listenPeriod ∈
        [.holdoverEntry, .driftingEntry, .restartAgeExpiry, .gnssSettled, .dutyRelease, .refixRequest,
          .refixBoundCrossed, .holdExpiry 1, .reCheckEnd 3, .repeatDue 1, .listenPeriod, .listenWindowEnd] ∧
      Instr.cutoff (inputs 1 0) ∈
        [.fullRecalibration (inputs 1 0), .voltageOverride (inputs 1 0), .overrideRelease (inputs 1 0), .cutoff (inputs 1 0)] := by
  simp

/-- STATUS is in none of the groups that a clause of the frame leaves out. -/
theorem test_meets_EachBlockMovesOnlyByItsCommands :
    let c : Instr := .status (src 3)
    ∃ t, State.reset.supply = .on ∧ exec c State.reset = .next t ∧ t.supply = .on ∧ groupOf c = .read ∧
      countsIn 22 (groupOf c) = true ∧ t.cnt[22] = 1 ∧ ∀ k : Fin 40, k.val < 17 → countsIn k (groupOf c) = false :=
  ⟨run (.status (src 3)) State.reset, rfl, rfl, by decide +kernel, rfl, by decide, by decide +kernel, by decide⟩

/-- Each counter that some rows leave alone is left alone by STATUS or by the strobe; K28 to K36 stand by no frame. -/
theorem test_meets_EachCounterCountsOnlyItsOwnRows :
    ∀ k : Fin 40, (k.val < 28 ∨ 36 < k.val) → countsIn k .read = false ∨ countsIn k .sample = false := by decide

theorem test_meets_SupplyComesAndGoes : 1 ≤ Defaults.tables.station.inrushWindow ∧
    State.reset.image = alerts9.image ∧ State.reset.straps = alerts9.straps ∧ State.reset.pending = alerts9.pending ∧
      State.reset.bmn.disconnect = alerts9.bmn.disconnect := by decide +kernel

/-- POWER_ON with strap pins 0 and a memory that does not answer gives the reset state again (R185). -/
theorem test_power_on_is_reset : exec (.powerOn 0 false) State.reset = .next State.reset :=
  congrArg Host.Outcome.next (by decide +kernel)

theorem test_meets_RestartKeepsTablesAndEmptiesQueues :
    Accepted (src 1) .restart State.reset ∧ (State.reset.evu.phase = .idle ↔ State.reset.evu.current = none) :=
  ⟨accepted 1 (by decide) _ _ rfl (by decide), by decide⟩

/-- The straps are read again at a restart (R134, R138). -/
theorem test_restart_reads_straps :
    (run (.restart ⟨src 1, 9⟩) State.reset).lnk.address = 9 ∧ State.reset.lnk.address = 65534 := by decide +kernel

theorem test_meets_StrobeAppendsEntryAndPushesFrontOut_room :
    let s := withList [strobe 40 false, strobe 41 true, strobe 42 false] 43
    s.supply = .on ∧ s.sif.strobes.length = 3 ∧ s.tmb.strobeNext < Config.second := by decide +kernel

theorem test_meets_StrobeAppendsEntryAndPushesFrontOut_full :
    let s := withList [strobe 40 false, strobe 41 false, strobe 42 false, strobe 43 false] 44
    let s := { s with sif := { s.sif with missingRun := 19 } }
    s.supply = .on ∧ (∀ x ∈ s.sif.strobes, x.frame = none) ∧ s.sif.strobes.length = 4 ∧
      s.tables.station.gapReset ≤ min 255 (s.sif.missingRun + 1) := by decide +kernel

/-- Below the gap reset; one channel TRIGGERED and one OFF. -/
theorem test_meets_StrobeAppendsEntryAndPushesFrontOut_run :
    let s := withList [strobe 40 false, strobe 41 false, strobe 42 false, strobe 43 false] 44
    let s := { s with det := (s.det.set 0 { Cold.detector true with state := .triggered }).set 1 (Cold.detector false) }
    (∀ x ∈ s.sif.strobes, x.frame = none) ∧ min 255 (s.sif.missingRun + 1) < s.tables.station.gapReset ∧
      s.sif.gapSignalled = false ∧ (s.det.get 0).state = .triggered ∧ (s.det.get 1).state = .off := by decide +kernel

/-- A full list whose first follower holds its frame: the push-out delivers it. -/
theorem test_meets_StrobeAppendsEntryAndPushesFrontOut_followers :
    FrontPushedOut (strobe 40 false) [strobe 41 true, strobe 42 false, strobe 43 false] list41 ∧
      listOf (run .strobe list41) = [(42, false), (43, false), (44, false)] :=
  ⟨⟨rfl, by decide +kernel, rfl, rfl, rfl⟩, by decide +kernel⟩

/-- The instant at the end of the running second waits for its SECOND_TICK (log entry 3). -/
theorem test_meets_StrobeAppendsEntryAndPushesFrontOut_waits :
    let s := { State.reset with tmb := { Cold.tmb with strobeNext := Config.second } }
    Config.second ≤ s.tmb.strobeNext ∧ listOf (run .strobe s) = [] ∧
      ((run .strobe (run .secondTick s)).sif.strobes.map (·.time)) = [⟨1, 0⟩] := by decide +kernel

theorem test_meets_DigitizerFrameIsMatchedAndDelivered_kinds :
    decodeDigFrame [] = none ∧ decodeDigFrame (bytes 39) = some (dig 39 0 false) ∧
      list45.sif.strobes.find? (·.seq == 39) = none ∧ list45.sif.lastAccepted = some 39 ∧
      list45.sif.strobes.find? (·.seq == 38) = none ∧
      ((list45.sif.strobes.find? (·.seq == 45)).any (·.frame.isSome)) = true ∧
      ((list45.sif.strobes.find? (·.seq == 43)).any (·.frame.isNone)) = true ∧
      list45.sif.strobes.head?.all (fun e => e.frame.isNone && e.seq != 43) = true := by decide +kernel

/-- A change that gives the store a writer with a segment that has room. -/
def writing (count : Nat) (s : State) : State :=
  { s with wfs := { Cold.wfs with
      segments := (Cold.wfs.segments.set 0 ⟨some 0, some ⟨0, 0⟩, count, .writing, none, []⟩)
      writer := some 0
      nextOrder := 1 } }

/-- What frame 40 hands DET. -/
def item40 : SampleItem := some ((dig 40 0 false).samples, (dig 40 0 false).clips)

/-- Frame 40 brings one instant about. -/
theorem instant40 (f : State → State) (h : (f (withList [strobe 40 false] 41)).sif = (withList [strobe 40 false] 41).sif)
    (hs : (f (withList [strobe 40 false] 41)).supply = .on) :
    OneInstant (.frame 0 (bytes 40)) (strobe 40 false) item40 (front f) :=
  .frame 0 (arrives f h hs).toFrontFrame

theorem test_meets_DigitizerFrameIsMatchedAndDelivered_front :
    FrontArrives (bytes 40) (dig 40 0 false) (strobe 40 false) [] (front (writing 2046)) ∧
      (front (writing 2046)).wfs.writer = some 0 ∧ 0 < (front (writing 2046)).wfs.segments.length ∧
      (segmentAt (front (writing 2046)) 0).count + 1 < 2048 ∧ NoDeclaration item40 (front (writing 2046)) :=
  ⟨arrives _ rfl rfl, rfl, by decide +kernel, by decide +kernel, .inr ⟨by unfold NoTriggerOn QuietAt; decide +kernel, by decide⟩⟩

theorem test_meets_DigitizerFrameIsMatchedAndDelivered_behind :
    list41.supply = .on ∧ decodeDigFrame (bytes 40) = some (dig 40 0 false) ∧
      list41.sif.strobes = strobe 40 false :: [strobe 41 true, strobe 42 false, strobe 43 false] ∧
      (∀ x ∈ [strobe 41 true, strobe 42 false, strobe 43 false], x.seq ≠ 40) := by decide +kernel

/-- A fault-flagged frame for the front strobe, within the run and completing it. -/
theorem test_meets_DigitizerFrameIsMatchedAndDelivered_fault :
    let f := dig 40 0 true
    let s := front (writing 2046)
    let full := { s with sif := { s.sif with missingRun := 19 } }
    FrontFrame (encodeDigFrame f) f (strobe 40 false) [] s ∧ f.fault = true ∧ NoDeclaration none s ∧
      (segmentAt s 0).count + 1 < 2048 ∧ min 255 (s.sif.missingRun + 1) < s.tables.station.gapReset ∧
      full.tables.station.gapReset ≤ min 255 (full.sif.missingRun + 1) :=
  ⟨⟨rfl, by decide +kernel, rfl, rfl, rfl, by simp⟩, rfl,
    .inr ⟨by unfold NoTriggerOn QuietAt; decide +kernel, by decide⟩, by decide +kernel⟩

/-! ### The detectors and events -/

theorem test_meets_DetectorStagesAndTests :
    (quiet 126400 32743 .armed).awaiting = false ∧ (quiet 126400 32743 .armed).blank = 0 ∧
      (quiet 126400 32743 .triggered).timer + 1 < c2.maxTrigger * 200 ∧
      0 < ({ quiet 0 0 .armed with blank := 1 } : Detector).blank := by decide

theorem test_meets_DetectorStagesAndTests_law :
    (detectorInstant c2 200 (some (1000, false)) (quiet 126400 32743 .armed)).change = some true ∧
      (detectorInstant c2 200 none { quiet 0 0 .triggered with blank := 5, timer := 23999 }).change = some false ∧
      (quiet 0 0 .warming).state = .warming := by decide +kernel

/-- A blanked first sample, a re-arm pending that a sample clears, and one that it does not. -/
theorem test_meets_DetectorStagesAndTests_first_rearm :
    ({ Cold.detector true with blank := 5 } : Detector).awaiting = true ∧ (Cold.detector true).state = .warming ∧
      (let d := { quiet 0 32743 .armed with rearm := true }
       (detectorInstant c2 200 (some (0, false)) d).det.rearm = false) ∧
      (let d := { quiet 126400 32743 .armed with rearm := true }
       (detectorInstant c2 200 (some (1000, false)) d).det.rearm = true ∧
         (detectorInstant c2 200 (some (1000, false)) d).change = none) := by decide +kernel

/-- A change of channel 0's detector. -/
def det0 (d : Detector) (s : State) : State := { s with det := s.det.set 0 d }

theorem test_meets_DetectorCountsReachTheirEnds_warm :
    let s := front (det0 { quiet 0 0 .warming with warm := 1023 })
    FrontArrives (bytes 40) (dig 40 0 false) (strobe 40 false) [] s ∧ (s.det.get 0).state = .warming ∧
      (s.det.get 0).awaiting = false ∧ (s.det.get 0).blank = 0 ∧
      2 ^ (s.tables.channel.get 0).b ≤ (s.det.get 0).warm + 1 :=
  ⟨arrives _ rfl rfl, by decide +kernel⟩

theorem test_meets_DetectorCountsReachTheirEnds_timer :
    let s := front (det0 { quiet 0 0 .triggered with timer := 23999 })
    FrontArrives (bytes 40) (dig 40 0 false) (strobe 40 false) [] s ∧ (s.det.get 0).state = .triggered ∧
      (s.tables.channel.get 0).maxTrigger * s.sif.rate ≤ (s.det.get 0).timer + 1 :=
  ⟨arrives _ rfl rfl, by decide +kernel⟩

/-- The forced trigger-off comes about at frame 40 of a delivery that goes on with frame 41 (log entry 2). -/
theorem test_forced_off_inside_a_delivery :
    let s := det0 { quiet 0 0 .triggered with timer := 23999 } list41
    let t := run (.forcedTriggerOff 0 (.frame 0 (bytes 40))) s
    t.cnt[0] = 2 ∧ (t.det.get 0).state = .armed := by decide +kernel

theorem test_meets_DetectorCountsReachTheirEnds_blank :
    let s := front (det0 { quiet 0 0 .armed with blank := 5 })
    FrontArrives (bytes 40) (dig 40 0 false) (strobe 40 false) [] s ∧ 0 < (s.det.get 0).blank ∧
      (s.det.get 0).blank ≤ 1000 / s.sif.rate :=
  ⟨arrives _ rfl rfl, by decide +kernel⟩

/-- The forms of a strobe that pushes the front entry out: a warm-up at its follower's frame, and at the missing instant a
timer's and a blanking's end, below the gap reset and at it. -/
theorem test_meets_DetectorCountsReachTheirEnds_strobe :
    (let s := det0 { quiet 0 0 .warming with warm := 1023 } list41
     FrontPushedOut (strobe 40 false) [strobe 41 true, strobe 42 false, strobe 43 false] s ∧
       (strobe 41 true).frame = some (dig 41 0 false) ∧ (dig 41 0 false).fault = false ∧
       min 255 (s.sif.missingRun + 1) < s.tables.station.gapReset ∧ (s.det.get 0).state = .warming ∧
       2 ^ (s.tables.channel.get 0).b ≤ (s.det.get 0).warm + 1) ∧
    (let s := det0 { quiet 0 0 .triggered with timer := 23999, blank := 5 }
       (withList [strobe 40 false, strobe 41 false, strobe 42 false, strobe 43 false] 44)
     let gap := { s with sif := { s.sif with missingRun := 19 } }
     FrontPushedOut (strobe 40 false) [strobe 41 false, strobe 42 false, strobe 43 false] s ∧
       (s.tables.channel.get 0).maxTrigger * s.sif.rate ≤ (s.det.get 0).timer + 1 ∧
       (s.det.get 0).blank ≤ 1000 / s.sif.rate ∧ gap.sif.gapSignalled = false ∧
       gap.tables.station.gapReset ≤ min 255 (gap.sif.missingRun + 1)) :=
  ⟨⟨⟨rfl, by decide +kernel, rfl, rfl, rfl⟩, by decide +kernel⟩, ⟨⟨rfl, by decide +kernel, rfl, rfl, rfl⟩, by decide +kernel⟩⟩

/-- A contribution of channel 0 whose window is one instant from its end. -/
def contribution : Contribution := ⟨1, 999, ⟨⟨0, 0⟩, .locked⟩, none, none⟩

/-- A contribution of an ARMED channel, at its frame and at a strobe that pushes the entry out with a gap reset. -/
theorem test_meets_EventCountsReachTheirEnds_contribution :
    (let s := front fun s => det0 (quiet 0 0 .armed)
      { s with evu := { Cold.evu with contrib := Cold.evu.contrib.set 0 (some contribution) } }
     OneInstant (.frame 0 (bytes 40)) (strobe 40 false) item40 s ∧ s.evu.contrib.get 0 = some contribution ∧
       s.evu.triggered.get 0 = false ∧ QuietAt item40 s 0 ∧ (s.det.get 0).state = .armed ∧
       s.tables.event.window * s.sif.rate / 10 ≤ contribution.window + 1) ∧
    (let s := withList [strobe 40 false, strobe 41 false, strobe 42 false, strobe 43 false] 44
     let s := { s with
       sif := { s.sif with missingRun := 19 }
       evu := { Cold.evu with contrib := Cold.evu.contrib.set 0 (some contribution) } }
     OneInstant .strobe (strobe 40 false) none s ∧ s.evu.contrib.get 0 = some contribution ∧
       s.evu.triggered.get 0 = false ∧ QuietAt none s 0 ∧
       (run (.contributionEnd 0 .strobe) s).evu.contrib.get 0 = none ∧ (run (.contributionEnd 0 .strobe) s).cnt[4] = 1) := by
  unfold QuietAt
  exact ⟨⟨instant40 _ rfl rfl, by decide +kernel⟩,
    ⟨.strobe ⟨rfl, by decide +kernel, rfl, rfl, rfl⟩ (by decide +kernel), by decide +kernel⟩⟩

/-- An event in progress with its age and post-event count. -/
def eventOn (phase : EventPhase) (age post : Nat) (s : State) : State :=
  { s with evu := { Cold.evu with
      phase := phase, current := some 37, table := [{ record with state := .opened, closed := none, reason := none }]
      age := age, post := post, nextNumber := 38 } }

theorem test_meets_EventCountsReachTheirEnds_forced :
    let s := front (eventOn .opened 59999 0)
    OneInstant (.frame 0 (bytes 40)) (strobe 40 false) item40 s ∧ s.evu.phase = .opened ∧ s.evu.forced = false ∧
      s.evu.current = some 37 ∧ (findRecord s 37).isSome = true ∧
      s.tables.event.maxLength * s.sif.rate ≤ s.evu.age + 1 :=
  ⟨instant40 _ rfl rfl, by decide +kernel⟩

/-- The channels ARMED and no trigger-on. -/
theorem test_meets_EventCountsReachTheirEnds_close :
    let s := front fun s => eventOn .closing 10000 5999 (det0 (quiet 0 0 .armed) s)
    OneInstant (.frame 0 (bytes 40)) (strobe 40 false) item40 s ∧ s.evu.phase = .closing ∧
      s.evu.current = some 37 ∧
      findRecord s 37 = some { record with state := .opened, closed := none, reason := none } ∧ NoTriggerOn item40 s ∧
      s.evu.age + 1 < s.tables.event.maxLength * s.sif.rate ∧
      s.tables.event.postEvent * s.sif.rate ≤ s.evu.post + 1 :=
  ⟨instant40 _ rfl rfl, by decide +kernel, by decide +kernel, by decide +kernel,
    by unfold NoTriggerOn QuietAt; decide +kernel, by decide +kernel, by decide +kernel⟩

/-- A forced CLOSING event, with a channel that could trigger. -/
theorem test_meets_EventCountsReachTheirEnds_forced_close :
    let s := front fun s =>
      let s := eventOn .closing 60000 5999 (det0 (quiet 0 0 .armed) s)
      { s with evu := { s.evu with forced := true } }
    OneInstant (.frame 0 (bytes 40)) (strobe 40 false) item40 s ∧ s.evu.forced = true ∧
      (findRecord s 37).isSome = true ∧ s.tables.event.postEvent * s.sif.rate ≤ s.evu.post + 1 :=
  ⟨instant40 _ rfl rfl, by decide +kernel⟩

/-- IDLE with two channels that vote and one of weight 0, and `n` closed records of which the first is held. -/
def declaring (n : Nat) : State :=
  { State.reset with
    evu := { Cold.evu with
      contrib := ⟨some contribution, some { contribution with firstOn := ⟨⟨0, 1⟩, .locked⟩ },
        some { contribution with weight := 0 }, none, none, none⟩
      voteSum := 2
      table := (List.range n).map fun i => { record with number := i + 1 }
      nextNumber := n + 1 }
    wfs := { Cold.wfs with holds := [⟨1, 1, 60⟩] } }

theorem declaring_inv (n : Nat) (h : n = 3 ∨ n = 12) : EventInv (declaring n) := by
  rcases h with rfl | rfl <;>
    exact ⟨by decide +kernel, by decide +kernel, by decide +kernel, by decide +kernel, by decide +kernel,
      nofun, by decide +kernel, by decide +kernel, by decide +kernel, by decide +kernel⟩

theorem test_meets_DeclarationsReopeningsAndPreEventSpan_declare :
    (∀ n ∈ [3, 12], (declaring n).evu.phase = .idle ∧ (declaring n).evu.voteSum = (declaring n).tables.event.threshold ∧
      ((declaring n).tables.alert.get 0).enable = true ∧ (declaring n).alu.queue.length < 12) ∧
    State.reset.evu.voteSum < State.reset.tables.event.threshold := by
  decide +kernel

/-- A0 names C0 and C1, and not C2, whose weight is 0; the held record 1 stays and record 2 goes. -/
theorem test_declaration_names_voting_channels :
    let t := evaluatePhase ⟨⟨7, 0⟩, .locked⟩ (declaring 12)
    t.alu.queue.map (·.payload) = [some (.declared 13 ⟨⟨7, 0⟩, .locked⟩ 2 ⟨true, true, false, false, false, false⟩)] ∧
      t.evu.table.map (·.number) = [1, 3, 4, 5, 6, 7, 8, 9, 10, 11, 12, 13] := by
  decide +kernel

theorem test_meets_DeclarationsReopeningsAndPreEventSpan_reopen :
    let s := eventOn .closing 5 5 State.reset
    let forced := { s with evu := { s.evu with forced := true } }
    s.evu.phase = .closing ∧ s.evu.current = some 37 ∧
      findRecord s 37 = some { record with state := .opened, closed := none, reason := none } ∧ s.evu.forced = false ∧
      1 ≤ (s.tables.channel.get 0).weight ∧ forced.evu.forced = true ∧ (findRecord forced 37).isSome = true := by
  decide +kernel

/-- Two completed segments behind the WRITING one. -/
def completed : State :=
  let s := eventOn .opened 0 0 State.reset
  { s with wfs := { Cold.wfs with
      segments := ((Cold.wfs.segments.set 0 ⟨some 0, some ⟨0, 0⟩, 2048, .free, none, []⟩).set 1
        ⟨some 1, some ⟨10, 0⟩, 2048, .free, none, []⟩).set 2 ⟨some 2, some ⟨20, 0⟩, 9, .writing, none, []⟩
      writer := some 2 } }

/-- The span of 20 s before 25 reaches into the older of the two: both are KEPT, counted from it. -/
theorem test_meets_DeclarationsReopeningsAndPreEventSpan_span :
    (findRecord completed 37).isSome = true ∧ (∀ x ∈ completed.wfs.segments, x.state = .kept → x.owner ≠ some 37) ∧
      keptCount completed + (completed.tables.event.preEvent * completed.sif.rate / 2048 + 1) ≤ 112 ∧
      (findRecord (keepPreEvent 37 ⟨25, 0⟩ completed) 37).map (·.wave) = some ⟨some 0, 2, .kept⟩ ∧
      (findRecord (keepPreEvent 37 ⟨40, 0⟩ completed) 37).map (·.wave) = some ⟨none, 0, .kept⟩ := by
  decide +kernel

/-- The channel is ARMED and a contribution below V runs. -/
theorem test_meets_EventCountsReachTheirEnds_tail :
    let s := front fun s => det0 (quiet 0 0 .armed)
      { s with evu := { Cold.evu with tail := some 11999, contrib := Cold.evu.contrib.set 1 (some contribution) } }
    OneInstant (.frame 0 (bytes 40)) (strobe 40 false) item40 s ∧ s.evu.phase = .idle ∧ s.evu.tail = some 11999 ∧
      NoDeclaration item40 s ∧ s.tables.event.quietTail * s.sif.rate ≤ 11999 + 1 :=
  ⟨instant40 _ rfl rfl, rfl, rfl, .inr ⟨by unfold NoTriggerOn QuietAt; decide +kernel, by decide⟩, by decide +kernel⟩

/-- A WRITING segment with one frame to come, with a claim of event 37 in progress or without one. -/
def filling (claim : Option Nat) (s : State) : State :=
  let s := writing 2047 (eventOn .opened 0 0 s)
  { s with wfs := { s.wfs with claim := claim } }

theorem test_meets_FullSegmentCompletes :
    let s := front (filling none)
    FrontArrives (bytes 40) (dig 40 0 false) (strobe 40 false) [] s ∧ s.wfs.writer = some 0 ∧
      s.wfs.segments[0]? = some ⟨some 0, some ⟨0, 0⟩, 2047, .writing, none, []⟩ ∧ s.wfs.nextOrder < 4294967295 ∧
      NoDeclaration item40 s :=
  ⟨arrives _ rfl rfl, rfl, rfl, by decide, .inl (by decide)⟩

theorem test_meets_FullSegmentCompletes_claim :
    let s := front (filling (some 37))
    FrontArrives (bytes 40) (dig 40 0 false) (strobe 40 false) [] s ∧ s.wfs.writer = some 0 ∧
      s.wfs.claim = some 37 ∧ (findRecord s 37).any (fun r => r.wave.state == .kept) = true ∧ keptCount s < 112 ∧
      s.evu.phase ≠ .idle ∧ (∃ y ∈ s.wfs.segments, y.state = .free) :=
  ⟨arrives _ rfl rfl, rfl, rfl, by decide +kernel, by decide +kernel, by decide, by decide +kernel⟩

/-- The same claim beside a full budget of event 36, which may be released if it is not held. -/
def budget (holds : List Hold) (s : State) : State :=
  let s := filling (some 37) s
  { s with
    evu := { s.evu with table := { record with number := 36, wave := ⟨some 1, 112, .kept⟩ } :: s.evu.table }
    wfs := { s.wfs with
      segments := s.wfs.segments.take 1 ++ List.replicate 112 ⟨some 0, none, 2048, .kept, some 36, []⟩ ++
        s.wfs.segments.drop 113
      holds := holds } }

theorem test_meets_FullSegmentCompletes_budget :
    (let s := front (budget [])
     FrontArrives (bytes 40) (dig 40 0 false) (strobe 40 false) [] s ∧ 112 ≤ keptCount s ∧
       (releasable 37 s).map (·.number) = some 36 ∧ s.evu.current = some 37 ∧ ∃ y ∈ s.wfs.segments, y.state = .free) ∧
    (let s := front (budget [⟨36, 1, 60⟩])
     FrontArrives (bytes 40) (dig 40 0 false) (strobe 40 false) [] s ∧ 112 ≤ keptCount s ∧ releasable 37 s = none ∧
       (findRecord s 37).any (fun r => r.wave.state == .kept) = true) :=
  ⟨⟨arrives _ rfl rfl, by decide +kernel⟩, ⟨arrives _ rfl rfl, by decide +kernel⟩⟩

/-! ### Second ticks -/

/-- A state at a tick, in a time-quality state. -/
def ticking (tq : TimeQuality) (f : Tmb → Tmb) : State :=
  { State.reset with tmb := f { Cold.tmb with tq := tq, way := some .continuous } }

theorem plain (tq : TimeQuality) (f : Tmb → Tmb)
    (hi : (f { Cold.tmb with tq := tq, way := some .continuous }).inFirstRun = false)
    (hl : (f { Cold.tmb with tq := tq, way := some .continuous }).label = 0) : PlainTick (ticking tq f) :=
  ⟨rfl, hi, by rw [show (ticking tq f).tmb.label = 0 from hl]; decide, fun i h =>
    absurd h ((by decide : ∀ i : Fin 3, (State.reset.tables.correction.get i).status ≠ .armed) i)⟩

theorem test_meets_SecondTickAdvancesCountsAndEndsHolds :
    PlainTick (ticking .holdover id) ∧ (ticking .holdover id).tmb.way ≠ some .duty ∧ PlainTick (ticking .coarse id) :=
  ⟨plain _ _ rfl rfl, by decide, plain _ _ rfl rfl⟩

/-- The last second of a hold on event 37. -/
def held : State :=
  { ticking .locked id with
    evu := { Cold.evu with table := [record], nextNumber := 38 }
    wfs := { Cold.wfs with holds := [⟨37, 1, 1⟩] } }

theorem test_meets_SecondTickAdvancesCountsAndEndsHolds_hold :
    PlainTick held ∧ (holdOf held (37 : BitVec 16).toNat).isSome = true ∧
      (∀ h ∈ held.wfs.holds, h.event = (37 : BitVec 16).toNat → h.seconds ≤ 1) :=
  ⟨⟨rfl, rfl, by decide, by decide⟩, by decide, by decide⟩

theorem test_meets_TickMovesTimeQualityAndReceiver_states :
    (let s := ticking .locked fun t => { t with edgeAge := 4 }
     PlainTick s ∧ s.tmb.tq = .locked ∧ s.tables.time.holdoverTimeout = s.tmb.edgeAge + 1) ∧
    (let s := ticking .holdover fun t => { t with err := 99981 }
     PlainTick s ∧ s.tmb.tq = .holdover ∧ s.tables.time.degradeBound < grownError s) ∧
    (let s := ticking .coarse fun t => { t with restartAge := 600 }
     PlainTick s ∧ s.tmb.tq = .coarse ∧ s.tmb.restartAge = 600) :=
  ⟨⟨plain _ _ rfl rfl, rfl, rfl⟩, ⟨plain _ _ rfl rfl, rfl, by decide +kernel⟩, ⟨plain _ _ rfl rfl, rfl, rfl⟩⟩

/-- A state with L1 in a load state. -/
def gnss (l1 : LoadState) (s : State) : State :=
  { s with lda := { s.lda with loads := s.lda.loads.set 1 { Cold.load with state := l1 } } }

theorem test_meets_TickMovesTimeQualityAndReceiver_on :
    (let s := gnss .on (ticking .acquiring fun t => { t with gnss := .settling, onTime := 59 })
     PlainTick s ∧ (s.lda.loads.get 1).state = .on ∧ s.tmb.gnss = .settling ∧ s.tmb.way ≠ some .duty ∧
       s.tables.time.gnssSettle ≤ countedSecond s.tmb.onTime) ∧
    (let s := gnss .on (ticking .locked fun t => { t with way := some .duty, lockedTime := 119 })
     PlainTick s ∧ (s.lda.loads.get 1).state = .on ∧ s.tmb.way = some .duty ∧ 1 ≤ (s.tables.load.get 1).minRest ∧
       s.tmb.tq = .locked ∧ s.tables.time.minLockTime ≤ countedSecond s.tmb.lockedTime) ∧
    (let s := gnss .on (ticking .holdover fun t => { t with way := some .duty, onTime := 899 })
     PlainTick s ∧ s.tables.time.maxOnTime ≤ countedSecond s.tmb.onTime) :=
  ⟨⟨⟨rfl, rfl, by decide, by decide⟩, by decide +kernel⟩, ⟨⟨rfl, rfl, by decide, by decide⟩, by decide +kernel⟩,
    ⟨⟨rfl, rfl, by decide, by decide⟩, by decide +kernel⟩⟩

theorem test_meets_TickMovesTimeQualityAndReceiver_duty :
    let s := gnss .on (ticking .acquiring fun t => { t with gnss := .settling, onTime := 59, way := some .duty })
    PlainTick s ∧ s.tmb.way = some .duty ∧ s.tables.time.gnssSettle ≤ countedSecond s.tmb.onTime ∧
      countedSecond s.tmb.onTime < s.tables.time.maxOnTime ∧ s.tmb.lockedTime < s.tables.time.minLockTime :=
  ⟨⟨rfl, rfl, by decide, by decide⟩, by decide +kernel⟩

theorem test_meets_TickMovesTimeQualityAndReceiver_off :
    let s := gnss .off (ticking .holdover fun t => { t with way := some .duty, refixCounter := 1, refixArmed := true, err := 19981 })
    PlainTick s ∧ s.tmb.way = some .duty ∧ (s.lda.loads.get 1).state = .off ∧ (s.lda.loads.get 1).request = none ∧
      s.tmb.refixCounter ≤ 1 ∧ s.tmb.refixArmed = true ∧ s.tables.time.refixBound < grownError s :=
  ⟨⟨rfl, rfl, by decide, by decide⟩, by decide +kernel⟩

/-- LOCKED with edges coming, and ALU in a state. -/
def steady (a : Alu) : State := { ticking .locked id with alu := a }

theorem test_meets_TickRaisesAndRepeatsAlerts_recheck :
    let s := steady { Cold.alu with recheck := Cold.alu.recheck.set 3 (some 1), conds := Cold.alu.conds.set 3 ⟨true, none⟩ }
    SteadyTick s ∧ s.alu.recheck.get 3 = some 1 ∧ s.alu.queue.length ≤ 7 ∧ classPending 3 s = false :=
  ⟨⟨⟨rfl, rfl, by decide, by decide⟩, rfl, rfl, by decide, by decide⟩, by decide +kernel⟩

theorem test_meets_TickRaisesAndRepeatsAlerts_repeat :
    let x := { alert 22 3 4 102 with wait := 1, sends := 3 }
    let s := steady { Cold.alu with queue := [x] }
    SteadyTick s ∧ (∀ cls, s.alu.recheck.get cls = none) ∧ s.alu.queue.Pairwise (fun a b => a.id ≠ b.id) ∧
      x ∈ s.alu.queue ∧ x.id = (22 : Byte).toNat ∧ x.state = .sent ∧ x.wait = 1 ∧
      (s.tables.alert.get x.cls).limit = x.sends ∧ (s.tables.alert.get x.cls).mode = .level :=
  ⟨⟨⟨rfl, rfl, by decide, by decide⟩, rfl, rfl, by decide, by decide⟩, by decide +kernel⟩

/-- The tick into label 1, with correction entries. -/
def corrected (a b c : CorrectionEntry) : State :=
  { ticking .locked id with tables := { Defaults.tables with correction := ⟨a, b, c⟩ } }

/-- An ARMED entry. -/
def armed (kind : CorrectionKind) (target : Nat) (amount : Int) : CorrectionEntry := ⟨kind, target, amount, .armed⟩

theorem test_meets_CorrectionEntriesFireOrAreMissed_fire (kind : CorrectionKind) (amount : Int) :
    FiringTick 0 (corrected (armed kind 1 amount) Defaults.correction Defaults.correction) :=
  ⟨rfl, rfl, (by decide : 0 + 2 ≤ Config.maxLabel), rfl, rfl, fun j hj => by
    match j, hj with
    | 1, _ => exact nofun
    | 2, _ => exact nofun⟩

theorem test_meets_CorrectionEntriesFireOrAreMissed_runs :
    (let s := corrected (armed .delete 1 0) (armed .insert 2 0) Defaults.correction
     s.supply = .on ∧ s.tmb.marks = [] ∧ s.tmb.repeating = false ∧
       ∀ k, (s.tables.correction.get k).status = .armed ↔ k = 0 ∨ k = 1) ∧
    (ticking .locked fun t => { t with marks := [0, 1] }).tmb.inFirstRun = true ∧
    (ticking .locked fun t => { t with repeating := true, marks := [1] }).tmb.inFirstRun = false ∧
    ((corrected (armed .insert 1 0) Defaults.correction Defaults.correction).tables.correction.get 0).status = .armed ∧
      0 * 1000000000 + 999999999 < 1 * 1000000000 ∧ 1 * 1000000000 < 1 * 1000000000 + 1 := by
  decide +kernel

/-- Entries of one boundary fire once each, a second landing on it included (R29). -/
theorem test_entries_fire_once :
    let t := run .secondTick (corrected (armed .step 1 1000) (armed .step 1 (-1000)) (armed .insert 1 0))
    t.tables.correction.toList.map (·.status) = [.fired, .fired, .fired] ∧ t.cnt[39] = 3 ∧
      (t.tmb.label, t.tmb.ns) = (1, 0) ∧ t.tmb.marks = [1] := by
  decide +kernel

/-- An entry that an earlier one's step passes over is MISSED and does not fire (R32). -/
theorem test_passed_entry_is_missed :
    let t := run .secondTick (corrected (armed .step 1 (-500)) (armed .step 1 1000) (armed .insert 1 0))
    t.tables.correction.toList.map (·.status) = [.fired, .fired, .missed] ∧ t.cnt[39] = 2 ∧
      (t.tmb.label, t.tmb.ns) = (1, 500000000) ∧ t.tmb.marks = [] := by
  decide +kernel

/-- An entry at the label that a DELETE enters fires, though a STEP of the same boundary has moved station time (R31). -/
theorem test_deleted_label_fires_next :
    let t := run .secondTick (corrected (armed .delete 1 0) (armed .step 1 300) (armed .insert 2 0))
    t.tables.correction.toList.map (·.status) = [.fired, .fired, .fired] ∧ t.cnt[39] = 3 ∧
      (t.tmb.label, t.tmb.ns) = (2, 300000000) ∧ t.tmb.marks = [2] := by
  decide +kernel

theorem test_meets_CorrectionEntriesFireOrAreMissed_afterStep (kind : CorrectionKind) :
    let s := corrected (armed .step 1 1000) Defaults.correction (armed kind 1 0)
    s.supply = .on ∧ NoInserted s.tmb ∧
      (∀ k, (s.tables.correction.get k).status = .armed ↔ k = 0 ∨ k = 2) ∧
      (s.tables.correction.get 0).amount = 1000 :=
  ⟨rfl, ⟨rfl, rfl⟩, fun k => by match k with
    | 0 => exact ⟨fun _ => .inl rfl, fun _ => rfl⟩
    | 1 => exact ⟨nofun, nofun⟩
    | 2 => exact ⟨fun _ => .inr rfl, fun _ => rfl⟩, rfl⟩

/-- After a STEP of +1,000 ms an INSERT marks the second that the STEP has left being entered, which runs twice (R29, R30). -/
theorem test_insert_after_step_marks_entered :
    let t := run .secondTick (corrected (armed .step 1 1000) (armed .insert 1 0) Defaults.correction)
    (t.tmb.label, t.tmb.marks) = (2, [2]) ∧ ((run .secondTick t).tmb.label, (run .secondTick t).tmb.repeating) = (2, true) := by
  decide +kernel

/-- After a STEP of +1,000 ms a DELETE enters the label after, whose entries fire there (R18, R31). -/
theorem test_delete_after_step_fires_entered :
    let t := run .secondTick (corrected (armed .step 1 1000) (armed .delete 1 0) (armed .insert 3 0))
    t.tables.correction.toList.map (·.status) = [.fired, .fired, .fired] ∧ (t.tmb.label, t.tmb.ns) = (3, 0) ∧
      t.tmb.marks = [3] := by
  decide +kernel

/-- Two seconds that INSERTs of one boundary have marked run twice each (R29, R30). -/
theorem test_two_marked_seconds_run_twice :
    let s := corrected (armed .insert 1 0) (armed .step 1 (-1000)) (armed .insert 1 0)
    let runs (n : Nat) := (List.range n).foldl (fun s _ => run .secondTick s) s
    (NoInserted s.tmb ∧ ∀ i, (s.tables.correction.get i).status = .armed ∧ (s.tables.correction.get i).target = 1) ∧
      [1, 2, 3, 4, 5].map (fun n => ((runs n).tmb.label, (runs n).tmb.repeating)) =
        [(0, false), (0, true), (1, false), (1, true), (2, false)] := by
  unfold NoInserted
  decide +kernel

/-- In a second with two ticks (R31) a re-check of 2 runs out at the second of them, and one of 3 does not (R105). -/
theorem test_recheck_ends_at_second_tick_of_second :
    let s (n : Nat) :=
      { corrected (armed .step 1 1000) Defaults.correction Defaults.correction with
        alu := { Cold.alu with recheck := Cold.alu.recheck.set 3 (some n) } }
    (run (.reCheckEnd 3) (s 2)).alu.recheck.get 3 = none ∧ run (.reCheckEnd 3) (s 3) = s 3 := by
  decide +kernel

/-- In such a second a wait of 2 runs out, and with no limit met the instance is due again (R108); at the last label nothing
ticks and no wait runs out (R13). -/
theorem test_repeat_due_at_second_tick_of_second :
    let x := { alert 22 3 4 102 with wait := 2, sends := 1 }
    let s := { corrected (armed .step 1 1000) Defaults.correction Defaults.correction with alu := { Cold.alu with queue := [x] } }
    let last := { ticking .locked fun t => { t with label := Config.maxLabel } with alu := { Cold.alu with queue := [{ x with wait := 1 }] } }
    (run (.repeatDue 22) s).alu.queue.map (fun y => (y.id, y.sends, y.wait)) = [(22, 1, 0)] ∧
      (run (.repeatDue 22) s).tmb.label = 2 ∧ run (.repeatDue 22) last = last := by
  decide +kernel

/-- A DELETE off the boundary enters no label: the entry at the next one waits for its own boundary (R29). -/
theorem test_delete_off_boundary_fires_nothing :
    let t := run .secondTick (corrected (armed .step 1 (-500)) (armed .delete 1 0) (armed .insert 2 0))
    t.tables.correction.toList.map (·.status) = [.fired, .fired, .armed] ∧ (t.tmb.label, t.tmb.ns) = (1, 500000000) := by
  decide +kernel

/-- A second of duty operation with L1 ON, LOCKED for `n` seconds. -/
def dutySecond (n : Nat) : State := gnss .on (ticking .locked fun t => { t with way := some .duty, lockedTime := n })

/-- A second that does not release L1, and one that does; a wait and a re-check that run on. -/
theorem test_meets_SecondTickAdvancesCountsAndEndsHolds_more :
    (PlainTick (dutySecond 118) ∧ PlainTick (dutySecond 119) ∧
      countedSecond (dutySecond 118).tmb.lockedTime < (dutySecond 118).tables.time.minLockTime ∧
      (dutySecond 119).tables.time.minLockTime ≤ countedSecond (dutySecond 119).tmb.lockedTime ∧
      (run .secondTick (dutySecond 119)).tmb.refixCounter = 3600) ∧
    (let x := { alert 22 4 4 102 with wait := 2 }
     let s := { ticking .locked id with alu := { Cold.alu with queue := [x], recheck := Cold.alu.recheck.set 3 (some 2) } }
     PlainTick s ∧ s.alu.recheck.get 3 = some 2 ∧ classPending 3 s = false ∧ x.state = .sent ∧ 1 < x.wait ∧
       s.alu.queue.length + 1 + (s.alu.recheck.toList.filter fun r => r.any fun n => decide (n ≤ 1)).length ≤ 12) :=
  ⟨⟨⟨rfl, rfl, by decide, by decide⟩, ⟨rfl, rfl, by decide, by decide⟩, by decide +kernel⟩,
    ⟨rfl, rfl, by decide, by decide⟩, by decide +kernel⟩

theorem test_meets_SecondTickAdvancesCountsAndEndsHolds_listen :
    (let s := { ticking .unset id with lnk := { Cold.lnk 1 with listenCount := 599 } }
     PlainTick s ∧ s.tables.station.listenPeriod = s.lnk.listenCount + 1 ∧ 1 ≤ s.tables.station.listenWindow) ∧
    (let s := { ticking .unset id with lnk := { Cold.lnk 1 with listenCount := 29 } }
     PlainTick s ∧ s.lnk.listenCount + 1 = s.tables.station.listenWindow ∧
       s.tables.station.listenWindow < s.tables.station.listenPeriod ∧ s.lnk.radio ≠ .warming ∧ s.lnk.radio ≠ .ready) :=
  ⟨⟨⟨rfl, rfl, by decide, by decide⟩, by decide +kernel⟩, ⟨⟨rfl, rfl, by decide, by decide⟩, by decide +kernel⟩⟩

/-! ### Edges -/

theorem test_meets_MessagesPendAndBadEdgesOnlyCount :
    (edge .locked 0 100).supply = .on ∧
      decodeTimeMessage (encodeTimeMessage ⟨100, true, 9⟩) = some ⟨100, true, 9⟩ ∧ decodeTimeMessage [] = none ∧
      State.reset.tmb.gnss ≠ .active ∧
      (let s := edge .locked 100001 100
       s.tables.time.acceptWindow * 1000 < (phaseError ((passTime 0 s).tmb.ns % Config.second)).natAbs) := by
  decide +kernel

theorem test_meets_PhaseErrorIsToNearerBoundary :
    (Cold.tmb.label < Config.maxLabel ∧ Cold.tmb.inFirstRun = false) ∧ phaseError 499999999 = 499999999 ∧
      phaseError 500000000 = -500000000 ∧ Cold.tmb.edgeLabel 499999999 = 0 ∧ Cold.tmb.edgeLabel 500000000 = 1 := by decide

theorem test_meets_DisciplinedEdgeMovesFrequencyAndLock_locked :
    (let s := edge .locked 4000 100
     let v := passTime 0 s
     let e := phaseError (v.tmb.ns % Config.second)
     s.supply = .on ∧ s.tmb.gnss = .active ∧ s.tmb.tq = .locked ∧ e.natAbs = 4 * s.tables.time.lockThreshold ∧
       e.natAbs ≤ s.tables.time.acceptWindow * 1000 ∧ 100 = v.tmb.edgeLabel v.tmb.ns) ∧
    (let s := edge .locked 4001 100
     let e := phaseError ((passTime 0 s).tmb.ns % Config.second)
     4 * s.tables.time.lockThreshold < e.natAbs ∧ e.natAbs ≤ s.tables.time.acceptWindow * 1000) := by
  decide +kernel

theorem test_meets_DisciplinedEdgeMovesFrequencyAndLock_acquiring :
    let s := edge .acquiring 1000 100
    let v := passTime 0 s
    let e := phaseError (v.tmb.ns % Config.second)
    s.tmb.tq = .acquiring ∧ e.natAbs ≤ s.tables.time.stepThreshold ∧ e.natAbs = s.tables.time.lockThreshold ∧
      100 = v.tmb.edgeLabel v.tmb.ns ∧ 1 ≤ s.tables.time.lockCount ∧
      s.tmb.lockCount + 1 < s.tables.time.lockCount ∧ (4 : Nat) ≤ 3 + 1 := by
  decide +kernel

theorem test_meets_DisciplinedEdgeMovesFrequencyAndLock_again :
    let c := Defaults.tables.time
    (∀ ns ∈ [4000, 4001], (phaseError ((passTime 0 (edge .holdover ns 100)).tmb.ns % Config.second)).natAbs = ns) ∧
      4000 = 4 * c.lockThreshold ∧ 4 * c.lockThreshold < 4001 ∧ 4001 ≤ c.acceptWindow * 1000 ∧ 4001 ≤ c.stepThreshold ∧
      (edge .holdover 4000 100).tmb.message = some ⟨100, true, 9⟩ ∧ (edge .drifting 4001 100).tmb.gnss = .active := by
  decide +kernel

theorem test_meets_EdgesStepStationTime_first :
    let s := edge .coarse 5 812000100
    s.supply = .on ∧ s.tmb.gnss = .active ∧ s.tmb.tq = .coarse ∧ s.tmb.message = some ⟨812000100, true, 9⟩ ∧
      s.tmb.inFirstRun = false ∧ (∀ i, (s.tables.correction.get i).status ≠ .armed) := by
  decide +kernel

theorem test_meets_EdgesStepStationTime_phase :
    (let s := edge .drifting 1000001 100
     let v := passTime 0 s
     s.tables.time.stepThreshold < (phaseError (v.tmb.ns % Config.second)).natAbs ∧ v.tmb.edgeLabel v.tmb.ns = 100 ∧
       (∀ i, (s.tables.correction.get i).status ≠ .armed)) ∧
    (let s := edge .acquiring 998999999 101
     let v := passTime 0 s
     s.tables.time.stepThreshold < (phaseError (v.tmb.ns % Config.second)).natAbs ∧
       (101 : Int) - v.tmb.edgeLabel v.tmb.ns = 0) := by
  decide +kernel

/-- The third edge in turn that differs by 5. -/
theorem test_meets_EdgesStepStationTime_label :
    let s := edge .locked 7 105
    let s := { s with tmb := { s.tmb with disOffset := 5, disCount := 2 } }
    let v := passTime 0 s
    s.tmb.disOffset = (105 : Int) - v.tmb.edgeLabel v.tmb.ns ∧ s.tmb.suspension = none ∧
      (phaseError (v.tmb.ns % Config.second)).natAbs ≤ s.tables.time.acceptWindow * 1000 ∧
      (105 : Int) = s.tmb.label + ((105 : Int) - v.tmb.edgeLabel v.tmb.ns) ∧ (run (.ppsEdge 0) s).tmb.label = 105 := by
  decide +kernel

/-- At the end of an inserted second's first run, before its tick is taken, station time still reads the second (R30). -/
theorem test_first_run_reads_its_label :
    (({ Cold.tmb with label := 7, marks := [7], ns := Config.second } : Tmb).now) = ⟨7, 9999999⟩ := by decide

/-! ### The link -/

/-- The radio READY and the transmitter FREE, with what LNK, ALU and WFS hold. -/
def ready (f : State → State) : State := f { State.reset with lnk := { Cold.lnk 1 with radio := .ready } }

def job : Job := ⟨37, 1, 7, 0, 0, 5, 0, ⟨1, 7, false, false, false, true, 37, 0, 0, ⟨0, 0⟩, .locked, []⟩⟩
def data : DataFrame := ⟨⟨0, 0⟩, .locked, Six.fill true, [], false, false, false⟩
def reply : Reply := ⟨1, .done, .none⟩

/-- One ready frame of each kind. -/
theorem test_meets_FrameBeginFollowsOrderOfKinds :
    (∀ s ∈
        [ready fun s => { s with alu := { Cold.alu with queue := [{ alert 22 3 4 1 with state := .waiting }] } },
          ready fun s => { s with lnk := { s.lnk with replies := [⟨1, 7, some reply⟩] } },
          ready fun s => { s with lnk := { s.lnk with notices := [⟨.holdExpired 37, 1, ⟨⟨0, 0⟩, .locked⟩⟩] } },
          ready fun s => { s with wfs := { Cold.wfs with job := some job } },
          ready fun s => { s with lnk := { s.lnk with dataQueue := [data] } }],
      s.supply = .on ∧ s.lnk.tx = none ∧ s.lnk.radio = .ready ∧ somethingReady s = true) := by
  decide +kernel

/-- A job whose ready frame is not its last, one whose is, and one that a priority-1 alert suspends beside a DATA frame. -/
theorem test_meets_FrameBeginFollowsOrderOfKinds_job :
    (∀ left ∈ [0, 5],
      let s := ready fun s => { s with wfs := { Cold.wfs with job := some { job with left := left } } }
      somethingReady s = true ∧ alertOffer s = none ∧ s.lnk.replies = [] ∧ s.lnk.notices = [] ∧
        (readyWave s).map (·.frames.length) = some 0) ∧
    (let s := ready fun s =>
      { s with
        alu := { Cold.alu with queue := [alert 22 0 1 1] }
        wfs := { Cold.wfs with job := some job }
        lnk := { s.lnk with dataQueue := [data] } }
     somethingReady s = true ∧ alertOffer s = none ∧ readyWave s = none ∧ s.lnk.dataQueue.head? = some data) := by
  decide +kernel

/-- The stream is on: FULL, with every channel streaming. -/
def streaming (open_ : Option DataFrame) (k : Nat) (s : State) : State :=
  { s with
    bmn := { Cold.bmn with formed := true, shed := .full }
    lnk := { Cold.lnk 1 with openData := open_, gapPending := false }
    tables := { Defaults.tables with station := { Defaults.station with dataPacking := k } } }

theorem test_meets_StreamPacksConsecutiveFrames :
    (∀ o ∈ [none, some data, some { data with tq := .coarse }],
      let s := front (streaming o 2)
      s.bmn.formed = true ∧ s.bmn.shed = .full ∧ (∃ c, (s.tables.channel.get c).stream = true) ∧
        s.lnk.openData = o ∧ s.lnk.dataQueue.length < 24 ∧ streamOn s = true) ∧
      (strobe 40 false).tq = data.tq ∧ (strobe 40 false).stepFlag = false ∧ (strobe 40 false).leapFlag = data.leap ∧
      State.reset.bmn.formed = false ∧ State.reset.atLevel .full = false ∧
      (List.replicate 24 data).tail.tail.length = 22 ∧
      Defaults.tables.channel.map (·.stream) ≠ Six.fill false := by
  decide +kernel

theorem test_meets_StreamPacksConsecutiveFrames_front (o : Option DataFrame) (k : Nat) :
    FrontArrives (bytes 40) (dig 40 0 false) (strobe 40 false) [] (front (streaming o k)) ∧
      FrontFrame (encodeDigFrame (dig 40 0 true)) (dig 40 0 true) (strobe 40 false) [] (front (streaming o k)) :=
  ⟨arrives _ rfl rfl, ⟨rfl, by decide +kernel, rfl, rfl, rfl, by simp⟩⟩

/-- The bytes of a sample frame in WAVE and DATA payloads, and of the heads (R93, section 7.3, R118): six samples of three
bytes, C0 first, and the clip and fault flags. -/
theorem test_payload_bytes :
    let d : Delivered := ⟨40, ⟨1, 2⟩, .locked, false, false, ⟨1, -1, 0, 0, 0, 0⟩, ⟨true, false, false, false, false, false⟩, true⟩
    waveFrameBytes d = [0, 0, 1, 255, 255, 255, 0, 0, 0, 0, 0, 0, 0, 0, 0, 0, 0, 0, 0x41] ∧
      (WaveFrame.payload ⟨1, 7, false, false, false, true, 37, 3, 260, ⟨1, 2⟩, .holdover, [d]⟩).take 15 =
        [0, 37, 3, 1, 4, 0, 0, 0, 0, 1, 0, 0, 2, 1, 1] ∧
      (DataFrame.payload ⟨⟨1, 2⟩, .locked, ⟨true, false, false, false, false, true⟩, [⟨[1, 2], [false, true]⟩], false, false, false⟩) =
        [0, 0, 0, 0, 1, 0, 0, 2, 0, 1, 0x21, 0, 0, 1, 0, 0, 2, 0x20] ∧
      Notice.head ⟨.holdExpired 37, 1, ⟨⟨1, 2⟩, .unset⟩⟩ = [4, 0, 0, 0, 0, 1, 0, 0, 2, 5] := by
  decide

theorem test_meets_NoWaveFrameBesidePriorityOne :
    let s := ready fun s =>
      { s with
        alu := { Cold.alu with queue := [alert 22 0 1 1] }
        wfs := { Cold.wfs with job := some job }
        lnk := { s.lnk with dataQueue := [data] } }
    (∃ x, (run .frameBegin s).lnk.tx = some x) ∧ s.lnk.tx = none ∧ priorityOne s = true :=
  ⟨Option.isSome_iff_exists.mp (by decide +kernel), by decide +kernel, by decide +kernel⟩

theorem test_meets_TransmitterAndRadioTimersRunOut :
    (let s := ready fun s => { s with lnk := { s.lnk with tx := some ⟨⟨1, true, false, false, false, false, 1, 0, 0, .data data⟩, 1⟩ } }
     s.supply = .on ∧ s.lnk.tx.isSome = true) ∧
    (let s := ready fun s => { s with lnk := { s.lnk with radio := .warming, warmLeft := some 500000000 } }
     s.lnk.radio = .warming ∧ s.lnk.warmLeft = some 500000000) ∧
    (let s := ready fun s =>
      { s with
        lnk := { s.lnk with lingerLeft := some 20000000000 }
        lda := { s.lda with loads := s.lda.loads.set 0 { Cold.load with state := .on } } }
     s.lnk.lingerLeft = some 20000000000 ∧ (s.lda.loads.get 0).state = .on) := by
  decide +kernel

/-- A STATUS command for a station address. -/
def header (station : BitVec 16) : LinkHeader := ⟨8, 0, station, 1, 7, 1⟩

theorem test_meets_FramesOnTheLineAreTakenLostOrBroken :
    let s := State.reset
    s.supply = .on ∧ s.lnk.receiver = .hunting ∧ s.lnk.listening = true ∧ Command.status.fits = true ∧
      (encodeCommand .status).length ≤ 96 ∧ (header 65534).length.toNat = (encodeCommand .status).length ∧
      (header 65534).station.toNat = s.lnk.address ∧ (header 65535).station.toNat = 65535 := by
  decide +kernel

theorem test_meets_FramesOnTheLineAreTakenLostOrBroken_broken :
    inReception { State.reset with lnk := { Cold.lnk 1 with receiver := .receiving [0x5A, 0xC3] } } = true ∧
      State.reset.lnk.receiver = .hunting ∧ State.reset.lnk.listening = true ∧
      96 < ({ header 1 with length := 97 } : LinkHeader).length.toNat := by
  decide +kernel

theorem test_meets_FramesOnTheLineAreTakenLostOrBroken_deaf :
    let s := { State.reset with lnk := { Cold.lnk 1 with listening := false } }
    s.lnk.receiver = .hunting ∧ s.lnk.listening = false ∧ [(0x5A : Byte)].length ≤ 96 ∧
      (header 1).length.toNat = [(0x5A : Byte)].length := by
  decide

/-- The rest of a frame that began while LNK was deaf is lost although it listens by then; a sync pair inside it begins no
frame, and nothing counts (R132). No bytes at all leave the 20 ms of R133 running. -/
theorem test_frame_begun_deaf_is_lost :
    let s := { State.reset with lnk := { Cold.lnk 1 with listening := false } }
    let f := encodeFrame { header 1 with length := 4 } [0x5A, 0xC3, 0x08, 0x00]
    let t := run (.downstreamFrame ⟨0, 0⟩ (f.take 9)) s
    let u := run (.downstreamFrame ⟨5, 0⟩ (f.drop 9)) { t with lnk := { t.lnk with listening := true } }
    t.lnk.receiver = .deaf (f.take 9) ∧ u.lnk.receiver = .hunting ∧ u.cnt[25] = 0 ∧ u.cnt[22] = 0 ∧
      (run (.downstreamFrame ⟨5, 0⟩ []) t).lnk.rxLeft + 5 = t.lnk.rxLeft := by
  decide +kernel

/-! ### The battery -/

/-- The reset state with a change of BMN. -/
def battery (f : Bmn → Bmn) : State := { State.reset with bmn := f Cold.bmn }

theorem test_meets_ScanCountsChargeAndReachesItsEnds :
    (let s := battery fun b => { b with estPending := false }
     s.supply = .on ∧ (s.tables.battery.vCut : Int) ≤ 10800 ∧ (14199 : Int) < s.tables.battery.fullVoltage ∧
       s.bmn.estPending = false) ∧
    (let s := battery fun b => { b with recal := 59, gate := some .opened }
     59 ≤ s.bmn.recal ∧ (s.tables.battery.fullVoltage : Int) ≤ 14200 ∧ (499 : Int) < s.tables.battery.taper ∧
       s.bmn.gate = some .opened) ∧
    (let s := battery fun b => { b with low := 9 }
     s.bmn.override = false ∧ 9 ≤ s.bmn.low ∧ (s.tables.battery.vCut : Int) ≤ 11499 ∧
       (11499 : Int) < s.tables.battery.vSurv) ∧
    (let s := battery fun b => { b with override := true, recovery := 59 }
     s.bmn.override = true ∧ 59 ≤ s.bmn.recovery ∧ (s.tables.battery.vSurv : Int) + 500 ≤ 12000) := by
  decide +kernel

/-- The tenth scan below V_surv is the fifth below V_cut: the override comes about, and the part powers down (R145, R146). -/
theorem test_meets_ScanCountsChargeAndReachesItsEnds_both :
    let s := battery fun b => { b with low := 9, cut := 4 }
    let v : Nat := s.tables.battery.vCut - 1
    s.supply = .on ∧ v ≤ 32767 ∧ v < s.tables.battery.vSurv ∧ v < s.tables.battery.vCut ∧ s.bmn.override = false ∧
      (run (.voltageOverride (inputs v 0)) s).supply = .cut := by
  decide +kernel

theorem test_meets_ScanCountsChargeAndReachesItsEnds_bad :
    let s := battery fun b => { b with v := ⟨some 12000, 60, false⟩, i := ⟨some 0, 59, false⟩ }
    s.supply = .on ∧ s.bmn.cut ≤ 3 ∧ 60 ≤ s.bmn.v.bad ∧ ¬(60 ≤ s.bmn.i.bad) ∧ s.bmn.estPending = true ∧
      (s.bmn.temps.get 0).value = none ∧ (12000 : Int) < s.tables.battery.fullVoltage := by
  decide +kernel

/-- A new capacity leaves the state of charge for the next scan to judge (R150). -/
theorem test_capacity_write_waits_for_scan :
    let s := battery fun b => { b with q := 50000, soc := 500, estPending := false }
    let e := encodeEntry 0 (.battery { Defaults.battery with capacity := 200 })
    let t := run (.tableWriteBattery (src 1) 0 1 e) s
    t.tables.battery.capacity = 200 ∧ (statusReport t).soc = 500 ∧
      (run (.scan (inputs 12230 0)) t).bmn.soc = 250 := by
  decide +kernel

theorem test_meets_ChargeEstimateAndGateArithmetic_count :
    0 ≤ ((1 * 3600 + 500 : Nat) : Int) + -3000 ∧ ((1 * 3600 + 500 : Nat) : Int) + -4101 < 0 ∧
      (((100 + 1) * 3600 : Nat) : Int) ≤ ((100 * 3600 + 3599 : Nat) : Int) + 1 := by decide

theorem test_meets_ChargeEstimateAndGateArithmetic_rest :
    let t := Defaults.battery
    t.rest0 < t.rest250 ∧ t.rest250 < t.rest500 ∧ t.rest500 < t.rest750 ∧ t.rest750 < t.rest1000 ∧
      restEstimate t 11800 = 0 ∧ restEstimate t 12850 = 1000 ∧ restEstimate t 12099 = 249 ∧ restEstimate t 12100 = 250 := by
  decide

theorem test_meets_SocLevelRisesAndFallsByItsThresholds :
    let t := Defaults.battery
    t.s3 < t.s2 ∧ t.s2 < t.s1 ∧ (ShedLevel.rank .full < (socLevelNext t 149 .full).rank) ∧
      ((socLevelNext t 550 .survival).rank < ShedLevel.rank .survival) ∧ socLevelNext t 199 .survival = .survival := by
  decide

theorem test_meets_FifthScanBelowCutPowersDown :
    let s := battery fun b => { b with cut := 4 }
    s.supply = .on ∧ (10799 : Int) < s.tables.battery.vCut ∧ 4 ≤ s.bmn.cut := by
  decide +kernel

theorem test_meets_ChargeEstimateAndGateArithmetic_gate :
    Defaults.battery.chargeMin ≤ 100 ∧ 300 ≤ Defaults.battery.chargeMax ∧
      gateNext 100 300 (some (.closed .low)) (some 109) = .closed .low ∧
      gateNext 100 300 (some (.closed .high)) (some 110) = .opened ∧ gateNext 100 300 none (some 300) = .opened := by
  decide

/-! ### The loads -/

/-- The state of section 9.8 at a moment. -/
def arbiter (osc : Nat) : State := { heaters false with osc := osc }

theorem test_meets_LoadWaitsBurstsAndRestsRunOut_waits :
    spacingMoments (arbiter 2999999999) ≠ [] ∧ inrushMoments (arbiter 11999999999) ≠ [] ∧
      ({ arbiter 0 with lda := { Cold.lda 3 10 with suspension := some 10 } } : State).lda.suspension = some 10 ∧
      State.reset.lda.coldWait = true := by
  decide +kernel

/-- A load in a state. -/
def loadAt (l : Fin 8) (x : Load) : State :=
  { State.reset with lda := { Cold.lda 3 10 with loads := (Eight.fill Cold.load).set l x } }

theorem test_meets_LoadWaitsBurstsAndRestsRunOut_ends :
    ((loadAt 2 { Cold.load with state := .on, burst := 1 }).lda.loads.get 2).state = .on ∧
      1 ≤ ((loadAt 2 Cold.load).tables.load.get 2).minRest ∧
      ((loadAt 7 { Cold.load with state := .resting, rest := 1, remembered := true }).lda.loads.get 7).state = .resting := by
  decide +kernel

theorem test_meets_ArbiterGrantsHighestPriority :
    chosenLoad (heaters false) = none ∧ chosenLoad { heaters true with osc := 17000000000 } = some 3 ∧
      (heaters true).lda.record.length ≤ 3 := by
  decide +kernel

theorem test_meets_QuietHoldBarsHeatersAboveTheirFloor :
    let s := { heaters true with osc := 17000000000 }
    CriticalInv s ∧ zoneOf 3 = some 1 ∧ quietHold s = true ∧ (s.lda.loads.get 3).state ≠ .on ∧
      ((settle s).lda.loads.get 3).state = .on := by
  refine ⟨?_, by decide +kernel, by decide +kernel, by decide +kernel, by decide +kernel⟩
  intro z _
  have h : ∀ z : Fin 6, (heaters true).hzc.handed.isSome = true ∧
      ((heaters true).hzc.zones.get z).temperature = some (some (-101)) ∧
      (-101 : Int) < ((heaters true).tables.zone.get z).floor := by decide +kernel
  exact ⟨(h z).1, -101, (h z).2⟩

/-- Temperatures below every floor, none at all, and warm ones; a judgement before and after the first hand-over. -/
theorem test_meets_ZonesAreJudgedByLevelAndFloor :
    let s := heaters false
    let was := { s with hzc := { s.hzc with a5 := true } }
    (s.tables.load.get (heaterOf 3)).enable = false ∧ (s.tables.load.get (heaterOf 0)).enable = true ∧
      (judgeZonesWith (Four.fill (some (-101))) s).alu.conds.get 5 = ⟨true, some (.temperature (.zone 2) (some (-101)))⟩ ∧
      (judgeZonesWith (Four.fill none) s).alu.conds.get 5 = ⟨true, some (.temperature (.sensor 3) none)⟩ ∧
      ((judgeZonesWith (Four.fill (some 200)) was).alu.conds.get 5).value = false ∧ was.hzc.a5 = true ∧
      State.reset.hzc.handed = none ∧ s.hzc.handed.isSome = true ∧
      (judgeZonesWith (Four.fill (some 200)) s).alu = s.alu := by
  decide +kernel

/-- A RESTART leaves a heater with demand at rest without a request, a judgement has one remembered, and the rest's end
places one, which is granted at once (R165, R171). -/
theorem test_restart_rest_and_judgement :
    let t := run (.restart ⟨src 1, 0⟩) { heaters false with evu := Cold.evu }
    let resting (s : State) := ((s.lda.loads.get 3).state, (s.lda.loads.get 3).remembered)
    resting t = (.resting, false) ∧ resting (run .strobe t) = (.resting, false) ∧
      resting (judgeZones t) = (.resting, true) ∧ ((run (.restEnd 3) t).lda.loads.get 3).state = .on := by
  decide +kernel

/-! ### Commands -/

theorem test_meets_ReadsAnswerAndChangeNothing :
    (src 1).broadcast = false ∧ Accepted (src 1) .status held ∧ tableOf 10 = some .countermask ∧
      (0 : Byte).toNat + (1 : Byte).toNat ≤ TableId.countermask.entries ∧ (39 : Byte).toNat + (1 : Byte).toNat ≤ 40 ∧
      findRecord held (37 : BitVec 16).toNat = some record :=
  ⟨rfl, accepted 1 (by decide) _ _ rfl (by decide), by decide, by decide, by decide, by decide⟩

/-- A written entry, one of each table, that passes as it stands. -/
def entryOf (id : TableId) : List Byte := encodeEntry 0 (readEntry Defaults.tables id 0)

theorem test_meets_TableWriteStoresJudgedEntries :
    ∀ id ∈ [TableId.station, .channel, .event, .time, .alert, .load, .zone, .battery, .countermask],
      (0 : Byte).toNat + (1 : Byte).toNat ≤ id.entries ∧ (entryOf id).length = (1 : Byte).toNat * id.entrySize ∧
      (match judgeEntries id 0 0 1 (entryOf id) with | .ok (es, clamped) => es.length == 1 && !clamped | .error _ => false)
        = true := by
  decide +kernel

/-- A CORRECTION entry for a label to come, written by a broadcast. -/
theorem test_meets_TableWriteStoresJudgedEntries_correction :
    (match judgeEntries .correction 0 0 1 (encodeEntry 0 (.correction ⟨.insert, 1000, 0, .empty⟩)) with
      | .ok (es, _) => es.length == 1
      | .error _ => false) = true ∧
      broadcastKind (.tableWrite 5 0 1 []) = true ∧ all.broadcast = true := by
  decide +kernel

/-- A refusal of each kind. -/
theorem test_meets_TableWritesAreRefusedOrClamped :
    Accepted (src 1) (.tableWrite TableId.channel.number 2 2 []) State.reset ∧
      (TableId.channel.entries < 5 + 2 ∧ ([] : List Byte).length ≠ 2 * TableId.channel.entrySize) ∧
      (match judgeEntry .channel 0 3 (encodeEntry 3 (.channel { Defaults.channel with ron := 10, roff := 30 })) with
        | .error r => r == .badValue | .ok _ => false) = true ∧
      (match judgeEntry .correction 5 0 (encodeEntry 0 (.correction ⟨.insert, 5, 0, .empty⟩)) with
        | .error r => r == .past | .ok _ => false) = true ∧
      tableOf 11 = none ∧ tableOf 0 = none ∧ tableOf 1 = some .station :=
  ⟨accepted 1 (by decide) _ _ rfl (by decide), by decide +kernel⟩

/-- Kind NONE with an amount of 1,001 ms, which the range pass clamps, and of 1,000 ms; kind INSERT with 1,001 ms (R176). -/
theorem test_meets_TableWritesAreRefusedOrClamped_correction :
    let judged (bs : List Byte) :=
      match judgeEntries .correction 5 0 1 bs with
      | .ok (es, clamped) => some (es, clamped)
      | .error _ => none
    judged [0, 0, 0, 0, 0, 9, 0x03, 0xE9, 0] = some ([.correction Defaults.correction], true) ∧
      judged [0, 0, 0, 0, 0, 9, 0x03, 0xE8, 0] = some ([.correction Defaults.correction], false) ∧
      judged [1, 0, 0, 0, 0, 9, 0x03, 0xE9, 0] = some ([.correction ⟨.insert, 9, 0, .armed⟩], false) := by
  decide +kernel

/-- The stored CHANNEL entry differs from the old one, or not. -/
theorem test_meets_StoredEntriesActInTheirBlocks_channel :
    let s := State.reset
    (s.tables.channel.get 2).enable = true ∧ (s.det.get 2).state ≠ .off ∧
      (s.tables.channel.get 2).a ≠ c2Written.a ∧ (s.tables.channel.get 2).h = c2Written.h ∧
      ((det0 (Cold.detector false) s).det.get 0).state = .off := by
  decide +kernel

/-- A standing condition without an instance, one with an instance, and writes of each kind. -/
theorem test_meets_StoredEntriesActInTheirBlocks_alert :
    let s := { State.reset with alu := { Cold.alu with conds := Cold.alu.conds.set 3 ⟨true, none⟩ } }
    let e := s.tables.alert.get 3
    let off := { s with tables := { s.tables with alert := s.tables.alert.set 3 { e with enable := false } } }
    let edge := { s with tables := { s.tables with alert := s.tables.alert.set 3 { e with mode := .edge } } }
    (s.alu.conds.get 3).value = true ∧ classPending 3 s = false ∧ s.alu.recheck.get 3 = none ∧ e.mode = .level ∧
      (aluWrite 3 { e with mode := .edge } s).alu.queue.length = 1 ∧ (off.tables.alert.get 3).enable = false ∧
      (edge.tables.alert.get 3).mode = .edge ∧ classPending 6 alerts9 = true ∧ (alerts9.alu.conds.get 6).value = false := by
  decide +kernel

theorem test_meets_StoredEntriesActInTheirBlocks_others :
    let wide := { State.reset with tables := { Defaults.tables with station := { Defaults.station with inrushWindow := 60 } } }
    let shed := gnss .requested { ticking .locked id with bmn := { Cold.bmn with formed := true } }
    (battery fun b => { b with q := 100001 }).tables.battery.capacity * 1000 < 100001 ∧
      (inrushWrite Defaults.station wide).lda.suspension = some 60 ∧ inrushWrite Defaults.station State.reset = State.reset ∧
      (heaters false).hzc.handed.isSome = true ∧ shed.tmb.way ≠ some .off ∧ wayNow shed = some .off ∧
      (shed.lda.loads.get 1).state = .requested ∧
      (((refreshRequests (heaters true)).lda.loads.get 3).request.map (·.priority)) = some 1 := by
  decide +kernel

theorem test_meets_CounterClearZeroesNamedCounters :
    Accepted (src 15) (.counterClear 39 1) State.reset ∧ (39 : Byte).toNat + (1 : Byte).toNat ≤ 40 ∧
      40 < (39 : Byte).toNat + (2 : Byte).toNat ∧ all.broadcast = true ∧ 1 ≤ all.centre.toNat ∧ all.centre.toNat ≤ 15 :=
  ⟨accepted 15 (by decide) _ _ rfl (by decide), by decide⟩

theorem test_meets_TimeSetStepsOrIsHeld :
    Accepted all (.timeSet 5 9999999) State.reset ∧ State.reset.tmb.tq = .unset ∧
      (∀ i, (State.reset.tables.correction.get i).status ≠ .armed) ∧
      Accepted (src 1) (.timeSet 5 10000000) held ∧ held.tmb.tq ≠ .unset ∧ held.tmb.tq ≠ .coarse :=
  ⟨⟨rfl, by decide, by decide, by decide⟩, rfl, by decide, accepted 1 (by decide) _ _ rfl (by decide), by decide, by decide⟩

theorem test_meets_AlertAckRemovesDestination :
    Accepted (src 1) (.alertAck 22) alerts9 ∧ alerts9.alu.queue.Pairwise (fun a b => a.id ≠ b.id) ∧
      (∀ x ∈ alerts9.alu.queue, x.id ≠ 99) ∧ alert 22 6 3 102 ∈ alerts9.alu.queue ∧
      (src 1).centre.toNat ∈ (alert 22 6 3 102).pending ∧ (src 2).centre.toNat ∉ (alert 22 6 3 102).pending :=
  ⟨accepted 1 (by decide) _ _ rfl (by decide), by decide +kernel⟩

/-- With two destinations pending, one acknowledgement leaves the other. -/
theorem test_meets_AlertAckRemovesDestination_two :
    let x := { alert 22 6 3 102 with pending := [1, 2] }
    1 ∈ x.pending ∧ ∃ d ∈ x.pending, d ≠ 1 := by
  decide

theorem test_meets_HoldIsGrantedAndReleasedInOrder :
    (src 2).broadcast = false ∧ Accepted (src 2) (.hold 37 240) held ∧ Accepted (src 1) (.release 37) held ∧
      findRecord held 37 = some record ∧ holdOf held 37 = some ⟨37, 1, 1⟩ ∧ findRecord State.reset 37 = none ∧
      findRecord { held with wfs := Cold.wfs } 37 = some record ∧ holdOf { held with wfs := Cold.wfs } 37 = none ∧
      record.wave.state ≠ .lost :=
  ⟨rfl, accepted 2 (by decide) _ _ rfl (by decide), accepted 1 (by decide) _ _ rfl (by decide), by decide +kernel⟩

/-- Event 37 closed, with one segment of five frames kept for it. -/
def keptOne : State :=
  { held with
    wfs := { Cold.wfs with
      segments := Cold.wfs.segments.set 0 ⟨some 0, some ⟨0, 0⟩, 5, .kept, some 37, List.replicate 5
        ⟨0, ⟨0, 0⟩, .locked, false, false, Six.fill 0, Six.fill false, false⟩⟩ } }

theorem test_meets_WaveRequestStartsJobOrIsRefusedInOrder :
    (src 1).broadcast = false ∧ Accepted (src 1) (.waveRequest 37 0 0) keptOne ∧ keptOne.wfs.job = none ∧
      keptOne.atLevel .survival = false ∧ findRecord keptOne 37 = some record ∧ record.state = .closed ∧
      record.wave.state ≠ .lost ∧ holdOf keptOne 37 = none ∧ (0 : Byte).toNat < (keptOf keptOne 37).length ∧
      (keptOf keptOne 37).length ≤ (1 : Byte).toNat :=
  ⟨rfl, accepted 1 (by decide) _ _ rfl (by decide), by decide +kernel⟩

theorem test_meets_WaveCancelEndsOwnJob :
    let s := { keptOne with wfs := { keptOne.wfs with job := some job } }
    (src 1).broadcast = false ∧ Accepted (src 1) .waveCancel s ∧ s.wfs.job = some job ∧
      job.centre = (src 1).centre.toNat ∧ job.centre ≠ (src 2).centre.toNat :=
  ⟨rfl, accepted 1 (by decide) _ _ rfl (by decide), rfl, by decide, by decide⟩

theorem test_meets_LoadTestPlacesTestRequest :
    (src 1).broadcast = false ∧ Accepted (src 1) (.loadTest 2 60) State.reset ∧
      (State.reset.lda.loads.get 2).state = .off ∧ (2 : Fin 8).val = (2 : Byte).toNat ∧
      ((heaters false).lda.loads.get 3).state ≠ .off ∧ (1 : Byte).toNat < 2 ∧ 7 < (8 : Byte).toNat :=
  ⟨rfl, accepted 1 (by decide) _ _ rfl (by decide), by decide +kernel⟩

theorem test_meets_SaveWritesSnapshotOfTables :
    State.reset.supply = .on ∧ Accepted (src 1) .save State.reset ∧ State.reset.cmd.save = none ∧
      (run (.save (src 1)) State.reset).cmd.save.isSome = true :=
  ⟨rfl, accepted 1 (by decide) _ _ rfl (by decide), rfl, by decide +kernel⟩

theorem test_meets_UntakenAndRefusedCommandsChangeNothing :
    15 < (16 : Byte).toNat ∧ Command.status.kind ≠ 2 ∧ Command.status.kind ≠ 6 ∧ Command.status.kind ≠ 17 ∧
      6 ≤ (List.replicate 6 (⟨1, 7, none⟩ : ReplyPlace)).length ∧
      (perform (.hold 37 1) 1 7 State.reset).status = .refused .noEvent := by
  decide +kernel

theorem test_meets_CountingQueuesNoticeAtThreshold :
    State.reset.lnk.notices.length ≤ 8 ∧ (3758096383 : BitVec 32).toNat + 1 = 3758096384 ∧
      State.reset.tables.countermask[0] = true ∧ (4294967295 : BitVec 32).toNat = 4294967295 := by
  decide +kernel

theorem test_meets_RaisesAndReportsKeepQueueOrder :
    alerts9.alu.queue.length = 12 ∧ alerts9.alu.queue.getLast? = some (alert 21 7 4 101) ∧
      (newInstance 0 none alerts9).priority < (alert 21 7 4 101).priority ∧
      (alert 21 7 4 101).priority ≤ (newInstance 7 none alerts9).priority ∧ State.reset.alu.queue.length < 12 ∧
      queue9.Pairwise (fun a b => a.priority ≤ b.priority) ∧ classPending 6 alerts9 = true ∧
      classPending 6 State.reset = false ∧ (State.reset.tables.alert.get 6).enable = true := by
  decide +kernel

/-! ### The invariants, at a state that is not the reset state, with the step it takes -/

/-- A station at work: a strobe list, a queue of alerts, a held and kept event, a load ON at FULL, and a strobe to come. -/
def busy : State :=
  let s := withList [strobe 40 false, strobe 41 true] 42
  { s with
    evu := { Cold.evu with table := [record], nextNumber := 38, lastNumber := 37 }
    wfs := { keptOne.wfs with holds := [⟨37, 1, 60⟩] }
    alu := { alerts9.alu with queue := queue9 }
    bmn := { Cold.bmn with formed := true, shed := .full, q := 50000, r := 3599 }
    lda := { Cold.lda 3 10 with
      record := [0]
      loads := (Eight.fill Cold.load).set 2 { Cold.load with state := .on } }
    hzc := { Cold.hzc with
      handed := some (Four.fill (some (-101)))
      zones := (Six.fill ⟨some (some (-101)), false, false, false⟩).set 1 ⟨some (some (-101)), true, true, true⟩ }
    pending := [.strobe] }

theorem test_busy_steps : ∃ t, step busy = .next t := ⟨_, rfl⟩

theorem test_meets_StepKeepsStrobeListAndLinkQueues :
    busy.sif.StrobesInv ∧ busy.sif.SequenceInv ∧ QueuesBounded busy := by
  refine ⟨⟨by decide, ?_⟩, ?_, ?_⟩
  · intro e he
    cases he
    rfl
  · have h : ∀ i : Fin 2, (busy.sif.strobes[i.val]'i.isLt).seq = busy.sif.nextSeq - BitVec.ofNat 8 (2 - i.val) := by
      decide +kernel
    exact fun i hi => h ⟨i, hi⟩
  · unfold QueuesBounded
    decide +kernel

theorem test_meets_StepKeepsDetectorFrequencyAndChargeRanges :
    DetectorRanges busy ∧ FreqInRange busy ∧ ChargeInRange busy := by
  refine ⟨⟨by decide +kernel, ?_⟩, by unfold FreqInRange ChargeInRange; decide +kernel⟩
  have h : ∀ e ∈ busy.sif.strobes, e.frame = none ∨ e.frame = some (dig 41 0 false) := by decide +kernel
  have h' : ∀ c, -8388608 ≤ (dig 41 0 false).samples.get c ∧ (dig 41 0 false).samples.get c ≤ 8388607 := by decide
  intro e he f hf c
  rcases h e he with h | h <;> rw [h] at hf <;> cases hf
  exact h' c

theorem test_meets_StepKeepsEventTableAndHolds : EventInv busy where
  records := by decide +kernel
  numbers := by decide +kernel
  next := by decide +kernel
  range := by decide +kernel
  open_ := by decide +kernel
  current := by intro n hn; cases hn
  idle := by decide +kernel
  holds := by decide +kernel
  held := by decide +kernel
  one := by decide +kernel

theorem test_meets_StepKeepsSegmentBudget : SegmentInv busy where
  total := by decide +kernel
  kept := by decide +kernel
  owned := by decide +kernel
  counted := by decide +kernel
  writing := by
    have h : ∀ i : Fin 128, (busy.wfs.segments[i.val]?.map (·.state)) ≠ some .writing := by decide +kernel
    have n : busy.wfs.segments.length = 128 := by decide +kernel
    intro i x hx
    have hi : i < 128 := n ▸ (List.getElem?_eq_some_iff.mp hx).1
    have := h ⟨i, hi⟩
    constructor
    · intro hw
      simp [hx, hw] at this
    · intro hw
      cases hw
  writer := by intro i hi; cases hi
  claimed := by intro n hn; cases hn

theorem test_meets_StepKeepsAlertQueueAndClasses : AlertQueueInv busy.alu ∧ StationClassInv busy.alu := by
  constructor
  · unfold AlertQueueInv
    decide +kernel
  · unfold StationClassInv
    decide +kernel

/-- A marked second ahead, and an ARMED entry ahead. -/
theorem test_meets_StepKeepsMarksAndArmedEntriesAhead :
    let s := corrected (armed .step 1 1000) (armed .delete 2 0) Defaults.correction
    MarkAhead { s.tmb with marks := [5, 0] } ∧ ArmedAhead s := by
  unfold MarkAhead ArmedAhead
  decide +kernel

theorem test_meets_StepKeepsInrushLimitAndPermittedLoads : InrushInv busy ∧ OnlyPermittedOn busy := by
  refine ⟨⟨by decide +kernel, fun w hw => by cases hw⟩, ?_⟩
  unfold OnlyPermittedOn
  decide +kernel

/-! ### Encodings -/

theorem test_meets_FramesCommandsEntriesAndImageReadBack :
    (Command.timeSet (2 ^ 40 - 1) (2 ^ 24 - 1)).fits = true ∧ Command.timeSet 0 0 ≠ .emptyPayload ∧
      inSampleRange (-8388608) ∧ inSampleRange 8388607 := by
  unfold inSampleRange
  decide

theorem test_meets_FramesCommandsEntriesAndImageReadBack_entries :
    (∀ id ∈ [TableId.station, .channel, .event, .time, .alert, .load, .zone, .battery, .countermask],
      ∀ i < id.entries, clampEntry (readEntry Defaults.tables id i) = readEntry Defaults.tables id i ∧
        relationsHold i (readEntry Defaults.tables id i) = true) := by
  decide +kernel

theorem test_meets_FramesCommandsEntriesAndImageReadBack_correction :
    let e := armed .step (2 ^ 40 - 1) (-1000)
    e.target < 2 ^ 40 ∧ -32768 ≤ e.amount ∧ e.amount ≤ 32767 ∧ e.kind ≠ .none ∧ e.status = .armed ∧
      clampEntry (.correction e) = .correction e ∧ 0 < e.target := by
  decide

/-- The check of the ASCII digits 1 to 9, of the family the spec's Conventions name. -/
theorem test_frame_check :
    crc16 [0x31, 0x32, 0x33, 0x34, 0x35, 0x36, 0x37, 0x38, 0x39] = 0x29B1 := by decide

end Sys2Proof.Tests.Slice0
end

section
/-!
SUPPORT. What the work of the other blocks leaves of the sample interface: `OutsideSif r s` says that `s` has SIF's
state, its counters and its recorded condition as `r` has them, the reply places too, and that the notices and DATA
frames keep to their limits where `r`'s do. One law per operation of the blocks.
-/

namespace Sys2Proof.Machine

variable {r s : State}

/-- `s` has the sample interface of `r`, with its counters K0 to K6 and the condition A6 that it reports, and `r`'s
reply places; and it keeps the limits of R125 and R127 where `r` keeps them. -/
def OutsideSif (r s : State) : Prop :=
  s.sif = r.sif ∧ s.alu.conds.get 6 = r.alu.conds.get 6 ∧ (∀ k : Fin 40, k.val < 7 → s.cnt[k] = r.cnt[k]) ∧
    s.lnk.replies = r.lnk.replies ∧ (r.lnk.notices.length ≤ 8 → s.lnk.notices.length ≤ 8) ∧
    (r.lnk.dataQueue.length ≤ 24 → s.lnk.dataQueue.length ≤ 24)

theorem OutsideSif.refl (s : State) : OutsideSif s s := ⟨rfl, rfl, fun _ _ => rfl, rfl, id, id⟩

theorem OutsideSif.trans {t : State} (h : OutsideSif r s) (h' : OutsideSif s t) : OutsideSif r t := by
  obtain ⟨sif, a6, counts, replies, notices, data⟩ := h
  obtain ⟨sif', a6', counts', replies', notices', data'⟩ := h'
  exact ⟨sif'.trans sif, a6'.trans a6, fun k hk => (counts' k hk).trans (counts k hk), replies'.trans replies,
    notices' ∘ notices, data' ∘ data⟩

theorem OutsideSif.sif (h : OutsideSif r s) : s.sif = r.sif := h.1

theorem OutsideSif.counter (h : OutsideSif r s) (k : Fin 40) (hk : k.val < 7 := by decide) : s.cnt[k] = r.cnt[k] :=
  h.2.2.1 k hk

theorem OutsideSif.condition (h : OutsideSif r s) : s.alu.conds.get 6 = r.alu.conds.get 6 := h.2.1

theorem OutsideSif.queues (h : OutsideSif r s) (hr : QueuesBounded r) : QueuesBounded s := by
  obtain ⟨-, -, -, replies, notices, data⟩ := h
  obtain ⟨hr, hn, hd⟩ := hr
  exact ⟨replies ▸ hr, notices hn, data hd⟩

/-- A change of the notice queue that keeps its limit. -/
theorem OutsideSif.withNotices {q : List Notice} (h : OutsideSif r s) (hq : s.lnk.notices.length ≤ 8 → q.length ≤ 8) :
    OutsideSif r { s with lnk := { s.lnk with notices := q } } := by
  obtain ⟨sif, a6, counts, replies, notices, data⟩ := h
  exact ⟨sif, a6, counts, replies, hq ∘ notices, data⟩

/-! ### Notices and counts -/

@[simp] theorem queueNotice_outside (b : NoticeBody) (d : Nat) (h : OutsideSif r s) : OutsideSif r (queueNotice b d s) := by
  obtain ⟨q, -, hq, e⟩ := queueNotice_eq b d s
  rw [e]
  exact h.withNotices hq

/-- Counting, but in one of SIF's own counters. -/
@[simp] theorem count_outside (k : Fin 40) (h : OutsideSif r s) (hk : 7 ≤ k.val := by decide) :
    OutsideSif r (count k s) := by
  obtain ⟨q, hq, e⟩ := count_eq k s
  obtain ⟨sif, a6, counts, replies, notices, data⟩ := h
  have hc : ∀ j : Fin 40, j.val < 7 → (count k s).cnt[j] = r.cnt[j] := fun j hj => by
    rw [count_getElem, if_neg (by omega), counts j hj]
  rw [e] at hc ⊢
  exact ⟨sif, a6, hc, replies, hq ∘ notices, data⟩

/-! ### Updates of one block -/

@[simp] theorem withAlu_outside (f : Alu → Alu) (hf : (f s.alu).conds = s.alu.conds) :
    OutsideSif r (s.withAlu f) ↔ OutsideSif r s := by
  unfold OutsideSif
  simp only [State.withAlu_alu, hf]
  exact .rfl

@[simp] theorem withWfs_outside (f : Wfs → Wfs) : OutsideSif r (s.withWfs f) ↔ OutsideSif r s := .rfl
@[simp] theorem withEvu_outside (f : Evu → Evu) : OutsideSif r (s.withEvu f) ↔ OutsideSif r s := .rfl
@[simp] theorem withLda_outside (f : Lda → Lda) : OutsideSif r (s.withLda f) ↔ OutsideSif r s := .rfl
@[simp] theorem withTmb_outside (f : Tmb → Tmb) : OutsideSif r (s.withTmb f) ↔ OutsideSif r s := .rfl
@[simp] theorem withBmn_outside (f : Bmn → Bmn) : OutsideSif r (s.withBmn f) ↔ OutsideSif r s := .rfl
@[simp] theorem withHzc_outside (f : Hzc → Hzc) : OutsideSif r (s.withHzc f) ↔ OutsideSif r s := .rfl
@[simp] theorem passTime_outside (dt : Nat) : OutsideSif r (passTime dt s) ↔ OutsideSif r s := .rfl
theorem runToOsc_outside (n : Nat) (h : OutsideSif r s) : OutsideSif r (runToOsc n s) := (passTime_outside _).2 h

theorem runToStation_outside (ns : Nat) (h : OutsideSif r s) : OutsideSif r (runToStation ns s) := by
  unfold runToStation
  split
  · exact (passTime_outside _).2 h
  · exact h

@[simp] theorem judgeListening_outside : OutsideSif r (judgeListening s) ↔ OutsideSif r s := .rfl
@[simp] theorem updateRecord_outside (n : Nat) (f : EventRecord → EventRecord) :
    OutsideSif r (updateRecord n f s) ↔ OutsideSif r s := .rfl
@[simp] theorem updateDetector_outside (c : Fin 6) (f : Detector → Detector) :
    OutsideSif r (updateDetector c f s) ↔ OutsideSif r s := .rfl

/-! ### ALU -/

@[simp] theorem startRecheck_outside (cls : Fin 8) (h : OutsideSif r s) : OutsideSif r (startRecheck cls s) := by
  unfold startRecheck
  dsimp only
  split <;> exact h

@[simp] theorem enterAlert_outside (x : AlertInstance) : OutsideSif r (enterAlert x s) ↔ OutsideSif r s := .rfl

@[simp] theorem updateClass_outside (cls : Fin 8) (f : AlertInstance → AlertInstance) :
    OutsideSif r (updateClass cls f s) ↔ OutsideSif r s := .rfl

@[simp] theorem raiseAlert_outside (cls : Fin 8) (p : Option AlertPayload) (h : OutsideSif r s) :
    OutsideSif r (raiseAlert cls p s) := by
  have h17 := count_outside 17 h
  unfold raiseAlert
  dsimp only
  split
  · exact h17
  · split
    · exact h17
    · split
      · exact startRecheck_outside _ (count_outside 21 h17)
      · exact startRecheck_outside _ (count_outside 21 h17)

@[simp] theorem raiseEvent_outside (cls : Fin 8) (p : AlertPayload) (h : OutsideSif r s) :
    OutsideSif r (raiseEvent cls p s) := by
  unfold raiseEvent
  split
  · exact raiseAlert_outside _ _ h
  · exact h

/-- The state in which a report's condition is recorded (R99). -/
def conditionNoted (cls : Fin 8) (value : Bool) (p : AlertPayload) (s : State) : State :=
  s.withAlu fun a => { a with conds := a.conds.set cls ⟨value, some p⟩ }

/-- All but the recording of its condition that a report does. -/
theorem reportCondition_outside_noted (cls : Fin 8) (value : Bool) (p : AlertPayload) (s : State) :
    OutsideSif (conditionNoted cls value p s) (reportCondition cls value p s) := by
  have h := OutsideSif.refl (conditionNoted cls value p s)
  unfold reportCondition
  dsimp only
  rw [← conditionNoted]
  repeat' split
  all_goals simp [h]

/-- A report of any condition but A6. -/
@[simp] theorem reportCondition_outside (cls : Fin 8) (value : Bool) (p : AlertPayload) (h : OutsideSif r s)
    (hc : cls ≠ 6 := by decide) : OutsideSif r (reportCondition cls value p s) := by
  have hn : OutsideSif r (conditionNoted cls value p s) := by
    obtain ⟨sif, a6, rest⟩ := h
    exact ⟨sif, by simpa [conditionNoted, Eight.get_set, hc.symm] using a6, rest⟩
  exact hn.trans (reportCondition_outside_noted cls value p s)

@[simp] theorem recheckTick_outside (cls : Fin 8) (h : OutsideSif r s) : OutsideSif r (recheckTick cls s) := by
  unfold recheckTick
  dsimp only
  repeat' split
  all_goals simp [h]

@[simp] theorem waitsTick_outside (h : OutsideSif r s) : OutsideSif r (waitsTick s) :=
  List.foldlRecOn _ _ h fun _ hs _ _ => startRecheck_outside _ (count_outside 20 hs)

@[simp] theorem recheckTicks_outside (h : OutsideSif r s) : OutsideSif r (recheckTicks s) :=
  List.foldlRecOn _ _ h fun _ hs c _ => recheckTick_outside c hs

@[simp] theorem aluTick_outside (h : OutsideSif r s) : OutsideSif r (aluTick s) := waitsTick_outside (recheckTicks_outside h)

@[simp] theorem aluShed_outside (h : OutsideSif r s) : OutsideSif r (aluShed s) := by
  unfold aluShed
  split <;> exact h

@[simp] theorem raiseAtWrite_outside (cls : Fin 8) (h : OutsideSif r s) : OutsideSif r (raiseAtWrite cls s) := by
  unfold raiseAtWrite
  dsimp only
  split <;> simp [h]

@[simp] theorem aluWrite_outside (cls : Fin 8) (old : AlertEntry) (h : OutsideSif r s) :
    OutsideSif r (aluWrite cls old s) := by
  unfold aluWrite
  dsimp only
  repeat' split
  all_goals simp [h]

/-! ### WFS -/

@[simp] theorem cancelJob_outside (c : CancelCause) (h : OutsideSif r s) : OutsideSif r (cancelJob c s) := by
  unfold cancelJob
  split <;> simp [h]

@[simp] theorem cancelJobOn_outside (n : Nat) (c : CancelCause) (h : OutsideSif r s) : OutsideSif r (cancelJobOn n c s) := by
  unfold cancelJobOn
  repeat' split
  all_goals simp [h]

@[simp] theorem releaseWave_outside (n : Nat) (h : OutsideSif r s) : OutsideSif r (releaseWave n s) :=
  cancelJobOn_outside _ _ h

@[simp] theorem markKept_outside (i n : Nat) : OutsideSif r (markKept i n s) ↔ OutsideSif r s := .rfl

@[simp] theorem markPartial_outside (i n : Nat) (h : OutsideSif r s) : OutsideSif r (markPartial i n s) := count_outside 15 h

@[simp] theorem updateWave_outside (n : Nat) (f : Waveform → Waveform) :
    OutsideSif r (updateWave n f s) ↔ OutsideSif r s := .rfl

@[simp] theorem updateSegment_outside (i : Nat) (f : Segment → Segment) :
    OutsideSif r (updateSegment i f s) ↔ OutsideSif r s := .rfl

@[simp] theorem keepSegment_outside (i n : Nat) (h : OutsideSif r s) : OutsideSif r (keepSegment i n s) := by
  unfold keepSegment
  repeat' split
  all_goals simp [h]

@[simp] theorem takeSegment_outside (h : OutsideSif r s) : OutsideSif r (takeSegment s) := by
  unfold takeSegment
  split <;> exact h

@[simp] theorem finishSegment_outside (h : OutsideSif r s) : OutsideSif r (finishSegment s) := by
  unfold finishSegment
  dsimp only
  repeat' split
  all_goals simp [h]

@[simp] theorem writeFrame_outside (d : Delivered) (h : OutsideSif r s) : OutsideSif r (writeFrame d s) := by
  have h' : OutsideSif r (if s.wfs.writer.isNone then takeSegment s else s) := by split <;> simp [h]
  unfold writeFrame
  generalize (if s.wfs.writer.isNone then takeSegment s else s) = v at h' ⊢
  dsimp only
  repeat' split
  all_goals simp [h']

@[simp] theorem keepEach_outside (n : Nat) (l : List Nat) (h : OutsideSif r s) : OutsideSif r (keepEach n l s) := by
  induction l generalizing s with
  | nil => exact h
  | cons i l ih =>
    unfold keepEach
    dsimp only
    split
    · exact ih (keepSegment_outside i n h)
    · exact keepSegment_outside i n h

@[simp] theorem keepPreEvent_outside (n : Nat) (t : Time) (h : OutsideSif r s) : OutsideSif r (keepPreEvent n t s) := by
  unfold keepPreEvent
  dsimp only
  repeat' split
  all_goals simp [h]

@[simp] theorem wfsTick_outside (h : OutsideSif r s) : OutsideSif r (wfsTick s) :=
  List.foldlRecOn _ _ h fun _ hs _ _ => cancelJobOn_outside _ _ (queueNotice_outside _ _ hs)

@[simp] theorem wfsRestart_outside (h : OutsideSif r s) : OutsideSif r (wfsRestart s) := by
  unfold wfsRestart
  dsimp only
  repeat' split
  all_goals simp [h]

@[simp] theorem advanceJob_outside (h : OutsideSif r s) : OutsideSif r (advanceJob s) := by
  unfold advanceJob
  split <;> exact h

/-! ### EVU -/

@[simp] theorem updateCurrent_outside (f : EventRecord → EventRecord) (h : OutsideSif r s) :
    OutsideSif r (updateCurrent f s) := by
  unfold updateCurrent
  split <;> simp [h]

@[simp] theorem takeTriggerOn_outside (c : Fin 6) (st : Stamp) (h : OutsideSif r s) :
    OutsideSif r (takeTriggerOn c st s) := by
  unfold takeTriggerOn
  dsimp only
  repeat' split
  all_goals simp [h]

@[simp] theorem takeTriggerOff_outside (c : Fin 6) (t : Time) (h : OutsideSif r s) :
    OutsideSif r (takeTriggerOff c t s) := updateCurrent_outside _ h

@[simp] theorem takeChange_outside (b : Batch) (c : Fin 6) (h : OutsideSif r s) : OutsideSif r (takeChange b c s) := by
  unfold takeChange
  split <;> simp [h]

@[simp] theorem batchChanges_outside (b : Batch) (h : OutsideSif r s) : OutsideSif r (batchChanges b s) :=
  List.foldlRecOn _ _ h fun _ hs c _ => takeChange_outside b c hs

@[simp] theorem removeOldest_outside (h : OutsideSif r s) : OutsideSif r (removeOldest s) := by
  unfold removeOldest
  split <;> simp [h]

@[simp] theorem declareEvent_outside (st : Stamp) (h : OutsideSif r s) : OutsideSif r (declareEvent st s) := by
  have h' : OutsideSif r (if Config.recordLimit ≤ s.evu.table.length then removeOldest s else s) := by
    split <;> simp [h]
  exact raiseEvent_outside _ _ (count_outside 13 (keepPreEvent_outside _ _ h'))

@[simp] theorem evaluateOpen_outside (h : OutsideSif r s) : OutsideSif r (evaluateOpen s) := by
  unfold evaluateOpen
  split <;> simp [h]

@[simp] theorem endContributions_outside : OutsideSif r (endContributions s) ↔ OutsideSif r s := .rfl

@[simp] theorem evaluatePhase_outside (st : Stamp) (h : OutsideSif r s) : OutsideSif r (evaluatePhase st s) := by
  unfold evaluatePhase
  repeat' split
  all_goals simp [h]

@[simp] theorem closeRecord_outside (st : Stamp) (f : EndReason → EndReason) (h : OutsideSif r s) :
    OutsideSif r (closeRecord st f s) := by
  unfold closeRecord
  dsimp only
  repeat' split
  all_goals simp [h]

@[simp] theorem closeEvent_outside (st : Stamp) (h : OutsideSif r s) : OutsideSif r (closeEvent st s) :=
  closeRecord_outside _ _ h

@[simp] theorem forceClosing_outside (h : OutsideSif r s) : OutsideSif r (forceClosing s) :=
  count_outside 14 (updateCurrent_outside _ h)

@[simp] theorem takeMagnitude_outside (c : Fin 6) (m : Nat) (t : Time) (h : OutsideSif r s) :
    OutsideSif r (takeMagnitude c m t s) := by
  unfold takeMagnitude
  split <;> simp [h]

@[simp] theorem takeCrossing_outside (c : Fin 6) (m : Nat) (t : Time) (h : OutsideSif r s) :
    OutsideSif r (takeCrossing c m t s) := by
  unfold takeCrossing
  repeat' split
  all_goals simp [h]

@[simp] theorem takeReport_outside (b : Batch) (c : Fin 6) (h : OutsideSif r s) : OutsideSif r (takeReport b c s) := by
  unfold takeReport
  dsimp only
  repeat' split
  all_goals simp [h]

@[simp] theorem flagDegraded_outside (b : Batch) (h : OutsideSif r s) : OutsideSif r (flagDegraded b s) := by
  unfold flagDegraded
  split <;> simp [h]

@[simp] theorem advanceAge_outside (fresh : Bool) (h : OutsideSif r s) : OutsideSif r (advanceAge fresh s) := by
  unfold advanceAge
  dsimp only
  repeat' split
  all_goals simp [h]

@[simp] theorem advancePost_outside (fresh : Bool) (st : Stamp) (h : OutsideSif r s) :
    OutsideSif r (advancePost fresh st s) := by
  unfold advancePost
  dsimp only
  repeat' split
  all_goals simp [h]

@[simp] theorem advanceTail_outside (fresh : Bool) (h : OutsideSif r s) : OutsideSif r (advanceTail fresh s) := by
  unfold advanceTail
  repeat' split
  all_goals simp [h]

@[simp] theorem evuBatch_outside (b : Batch) (h : OutsideSif r s) : OutsideSif r (evuBatch b s) :=
  have h4 := evaluatePhase_outside b.stamp (endContributions_outside.2 (batchChanges_outside b h))
  have h5 := flagDegraded_outside b (List.foldlRecOn channels _ h4 fun _ hs c _ => takeReport_outside b c hs)
  advanceTail_outside _ (advancePost_outside _ _ (advanceAge_outside _ h5))

@[simp] theorem offBatchTriggerOff_outside (c : Fin 6) (t : Time) (h : OutsideSif r s) :
    OutsideSif r (offBatchTriggerOff c t s) := evaluateOpen_outside (takeTriggerOff_outside c t h)

@[simp] theorem evuRestart_outside (h : OutsideSif r s) : OutsideSif r (evuRestart s) :=
  closeRecord_outside _ _ h

/-! ### DET -/

@[simp] theorem countTriggerOn_outside (x : DetResult) (c : Fin 6) (h : OutsideSif r s) :
    OutsideSif r (countTriggerOn x c s) := by
  unfold countTriggerOn
  split <;> simp [h]

@[simp] theorem bankWork_outside (item : SampleItem) (h : OutsideSif r s) : OutsideSif r (bankWork item s) :=
  List.foldlRecOn (motive := OutsideSif r) channels _ h fun _ hs c _ => countTriggerOn_outside _ c hs

@[simp] theorem sampleInstant_outside (st : Stamp) (item : SampleItem) (h : OutsideSif r s) :
    OutsideSif r (sampleInstant st item s) := evuBatch_outside _ (bankWork_outside item h)

@[simp] theorem gapResetChannel_outside (t : Time) (c : Fin 6) (h : OutsideSif r s) :
    OutsideSif r (gapResetChannel t c s) := by
  unfold gapResetChannel
  dsimp only
  repeat' split
  all_goals simp [h]

@[simp] theorem gapResetDetectors_outside (t : Time) (h : OutsideSif r s) : OutsideSif r (gapResetDetectors t s) :=
  List.foldlRecOn _ _ h fun _ hs c _ => gapResetChannel_outside t c hs

@[simp] theorem detWrite_outside (c : Fin 6) (old : ChannelEntry) (h : OutsideSif r s) :
    OutsideSif r (detWrite c old s) := by
  unfold detWrite
  dsimp only
  repeat' split
  all_goals simp [h]

/-! ### LDA and HZC -/

@[simp] theorem updateLoad_outside (l : Fin 8) (f : Load → Load) :
    OutsideSif r (updateLoad l f s) ↔ OutsideSif r s := .rfl
@[simp] theorem placeRequest_outside (l : Fin 8) (x : Request) :
    OutsideSif r (placeRequest l x s) ↔ OutsideSif r s := .rfl
@[simp] theorem withdrawRequest_outside (l : Fin 8) : OutsideSif r (withdrawRequest l s) ↔ OutsideSif r s := .rfl
@[simp] theorem refreshRequests_outside : OutsideSif r (refreshRequests s) ↔ OutsideSif r s := .rfl
@[simp] theorem endRest_outside (l : Fin 8) : OutsideSif r (endRest l s) ↔ OutsideSif r s := .rfl
@[simp] theorem ldaRestart_outside : OutsideSif r (ldaRestart s) ↔ OutsideSif r s := withLda_outside _

@[simp] theorem announceSwitch_outside (l : Fin 8) (h : OutsideSif r s) : OutsideSif r (announceSwitch l s) := by
  unfold announceSwitch reportSwitch
  dsimp only
  repeat' split
  all_goals exact h

@[simp] theorem tellOff_outside (l : Fin 8) (h : OutsideSif r s) : OutsideSif r (tellOff l s) := by
  unfold tellOff
  repeat' split
  all_goals exact h

@[simp] theorem tellGrant_outside (l : Fin 8) (h : OutsideSif r s) : OutsideSif r (tellGrant l s) := by
  unfold tellGrant
  repeat' split
  all_goals exact h

@[simp] theorem switchOff_outside (l : Fin 8) (h : OutsideSif r s) : OutsideSif r (switchOff l s) := by
  obtain e | ⟨f, t, rfl, e | e⟩ := switchOff_cases l s <;> rw [e] <;> simp [h]

@[simp] theorem enforcePermission_outside (h : OutsideSif r s) : OutsideSif r (enforcePermission s) :=
  List.foldlRecOn _ _ h fun _ hs l _ => by split <;> simp [hs]

@[simp] theorem grant_outside (l : Fin 8) (h : OutsideSif r s) : OutsideSif r (grant l s) :=
  tellGrant_outside l (announceSwitch_outside l (count_outside _ h (Nat.le_add_right_of_le (by decide))))

@[simp] theorem deferOne_outside (l : Fin 8) (h : OutsideSif r s) : OutsideSif r (deferOne l s) := by
  unfold deferOne
  split <;> simp [h]

@[simp] theorem arbitrate_outside (n : Nat) (h : OutsideSif r s) : OutsideSif r (arbitrate n s) := by
  induction n generalizing s with
  | zero => exact h
  | succ n ih =>
    have hd : OutsideSif r (loadsInOrder.foldl (fun s l => deferOne l s) s) :=
      List.foldlRecOn _ _ h fun _ hs l _ => deferOne_outside l hs
    rw [arbitrate_succ n s _ rfl]
    split
    · exact hd
    · exact ih (grant_outside _ hd)

@[simp] theorem endSuspension_outside (h : OutsideSif r s) : OutsideSif r (endSuspension s) := by
  unfold endSuspension
  repeat' split
  all_goals exact h

@[simp] theorem endColdWait_outside (h : OutsideSif r s) : OutsideSif r (endColdWait s) := by
  unfold endColdWait
  split <;> exact h

@[simp] theorem inrushWrite_outside (old : StationTable) (h : OutsideSif r s) : OutsideSif r (inrushWrite old s) := by
  unfold inrushWrite
  dsimp only
  split <;> exact h

@[simp] theorem onsetA5_outside (p : AlertPayload) (h : OutsideSif r s) : OutsideSif r (onsetA5 p s) :=
  reportCondition_outside _ _ _ h

@[simp] theorem reportA5_outside (first : Bool) (before : Hzc) (h : OutsideSif r s) :
    OutsideSif r (reportA5 first before s) := by
  have zones := List.foldlRecOn (motive := OutsideSif r) zonesInOrder
    (fun s z => if (s.hzc.zones.get z).below && !(before.zones.get z).below then onsetA5 (zonePayload z s) s else s) h
    fun _ hs z _ => by split <;> simp [hs]
  have sensors := List.foldlRecOn (motive := OutsideSif r) [0, 1, 2, 3]
    (fun s t =>
      if s.hzc.faultySensors.get t && !before.faultySensors.get t then onsetA5 (.temperature (.sensor t) none) s
      else s) zones
    fun _ hs t _ => by split <;> simp [hs]
  unfold reportA5
  dsimp only
  split
  · exact sensors
  · exact reportCondition_outside _ _ _ sensors

@[simp] theorem judgeZonesWith_outside (temps : Four (Option Int)) (h : OutsideSif r s) :
    OutsideSif r (judgeZonesWith temps s) := reportA5_outside _ _ h

@[simp] theorem judgeAndRemember_outside (temps : Four (Option Int)) (h : OutsideSif r s) :
    OutsideSif r (judgeAndRemember temps s) :=
  List.foldlRecOn _ _ (judgeZonesWith_outside temps h) fun _ hs z _ => by rw [rememberOne_eq]; exact hs

@[simp] theorem judgeZones_outside (h : OutsideSif r s) : OutsideSif r (judgeZones s) := by
  unfold judgeZones
  split <;> simp [h]

@[simp] theorem heatersWork_outside (h : OutsideSif r s) : OutsideSif r (heatersWork s) :=
  List.foldlRecOn _ _ h fun _ hs z _ => by
    unfold heaterWork
    dsimp only
    repeat' split
    all_goals exact hs

/-! ### TMB -/

@[simp] theorem endEntry_outside (i : Fin 3) (st : CorrectionStatus) (h : OutsideSif r s) :
    OutsideSif r (endEntry i st s) := queueNotice_outside _ _ h

@[simp] theorem missOne_outside (old new : Nat) (i : Fin 3) (h : OutsideSif r s) : OutsideSif r (missOne old new i s) := by
  unfold missOne
  dsimp only
  split <;> simp [h]

@[simp] theorem stepOver_outside (label ns : Nat) (h : OutsideSif r s) : OutsideSif r (stepOver label ns s) :=
  List.foldlRecOn (motive := OutsideSif r) entriesInOrder _ h fun _ hs i _ => missOne_outside _ _ i hs

@[simp] theorem judgeA3_outside (h : OutsideSif r s) : OutsideSif r (judgeA3 s) := by
  unfold judgeA3
  dsimp only
  split <;> simp [h]

@[simp] theorem requestGnss_outside (h : OutsideSif r s) : OutsideSif r (requestGnss s) := by
  unfold requestGnss
  split <;> exact h

@[simp] theorem gnssWork_outside (h : OutsideSif r s) : OutsideSif r (gnssWork s) := by
  unfold gnssWork
  split <;> simp [h]

@[simp] theorem releaseGnss_outside (h : OutsideSif r s) : OutsideSif r (releaseGnss s) := by
  unfold releaseGnss enterHoldover
  dsimp only
  split <;> simp [h]

@[simp] theorem dutyRelease_outside (h : OutsideSif r s) : OutsideSif r (dutyRelease s) := by
  unfold dutyRelease
  split <;> simp [h]

@[simp] theorem dutyRequest_outside (h : OutsideSif r s) : OutsideSif r (dutyRequest s) := by
  unfold dutyRequest
  split <;> simp [h]

@[simp] theorem judgeWay_outside (h : OutsideSif r s) : OutsideSif r (judgeWay s) := by
  unfold judgeWay
  dsimp only
  repeat' split
  all_goals simp [h]

@[simp] theorem settleGnss_outside (h : OutsideSif r s) : OutsideSif r (settleGnss s) := by
  unfold settleGnss
  split <;> exact h

@[simp] theorem holdoverEntry_outside (h : OutsideSif r s) : OutsideSif r (holdoverEntry s) := by
  unfold holdoverEntry
  split <;> exact h

@[simp] theorem driftingEntry_outside (was : TimeQuality) (h : OutsideSif r s) : OutsideSif r (driftingEntry was s) := by
  unfold driftingEntry
  split <;> exact h

@[simp] theorem tmbTick_outside (h : OutsideSif r s) : OutsideSif r (tmbTick s) :=
  have hd := dutyRelease_outside (settleGnss_outside ((withTmb_outside _).2 h))
  judgeA3_outside (dutyRequest_outside (driftingEntry_outside _ (holdoverEntry_outside hd)))

@[simp] theorem lnkTick_outside (h : OutsideSif r s) : OutsideSif r (lnkTick s) := h

@[simp] theorem tickBlocks_outside (h : OutsideSif r s) : OutsideSif r (tickBlocks s) :=
  lnkTick_outside (aluTick_outside (wfsTick_outside (tmbTick_outside h)))

/-- A firing keeps the places, if what its landing does keeps them. -/
theorem fireOne_outside {land : Bool → State → State} (hl : ∀ b {u}, OutsideSif r u → OutsideSif r (land b u))
    (entered : Nat) (i : Fin 3) (h : OutsideSif r s) : OutsideSif r (fireOne land entered i s) := by
  have hc := count_outside 39 (endEntry_outside i .fired h)
  unfold fireOne
  dsimp only
  split
  · exact hc
  · exact hc
  · have hs := fun label ns => stepOver_outside label ns hc
    unfold fireDelete
    dsimp only
    split
    · exact hl _ (hs _ _)
    · exact hs _ _
  · have hs := fun label ns => stepOver_outside label ns hc
    unfold fireStep
    dsimp only
    split
    · exact hc
    · split
      · exact hl _ (hs _ _)
      · exact hs _ _

theorem fireDue_outside {land : Bool → State → State} (hl : ∀ b {u}, OutsideSif r u → OutsideSif r (land b u))
    (target : Nat) (h : OutsideSif r s) : OutsideSif r (fireDue land target s) :=
  List.foldlRecOn (motive := fun x : Nat × State => OutsideSif r x.2) entriesInOrder _ h fun _ hs i _ => by
    unfold fireNext
    split
    · exact fireOne_outside hl _ i hs
    · exact hs

@[simp] theorem crossBoundary_outside (d : Nat) (ticks : Bool) (h : OutsideSif r s) :
    OutsideSif r (crossBoundary d ticks s) := by
  induction d generalizing ticks s with
  | zero =>
    unfold crossBoundary
    split <;> simp [h]
  | succ d ih =>
    have hf := fireDue_outside (fun b _ => ih b) s.tmb.label h
    unfold crossBoundary
    dsimp only
    split
    · exact tickBlocks_outside hf
    · exact hf

@[simp] theorem enterBoundary_outside (h : OutsideSif r s) : OutsideSif r (enterBoundary s) := crossBoundary_outside _ _ h

@[simp] theorem stepTo_outside (label ns : Nat) (h : OutsideSif r s) : OutsideSif r (stepTo label ns s) := by
  have hc := count_outside 39 (stepOver_outside label ns h)
  unfold stepTo
  dsimp only
  split
  · exact enterBoundary_outside hc
  · exact hc

@[simp] theorem secondBoundary_outside (h : OutsideSif r s) : OutsideSif r (secondBoundary s) := by
  have hb : OutsideSif r (onNextBoundary s) := h
  unfold secondBoundary
  dsimp only
  repeat' split
  all_goals simp [h, hb]

@[simp] theorem stepToEdge_outside (label : Nat) (h : OutsideSif r s) : OutsideSif r (stepToEdge label s) := by
  unfold stepToEdge
  split <;> simp [h]

@[simp] theorem acquireEdge_outside (e : Int) (label lockCount : Nat) (h : OutsideSif r s) :
    OutsideSif r (acquireEdge e label lockCount s) := by
  unfold acquireEdge
  dsimp only
  repeat' split
  all_goals simp [h]

@[simp] theorem handleEdge_outside (e : Int) (label message : Nat) (h : OutsideSif r s) :
    OutsideSif r (handleEdge e label message s) := by
  unfold handleEdge
  dsimp only
  repeat' split
  all_goals simp [h]

@[simp] theorem acceptEdge_outside (e : Int) (label : Nat) (m : TimeMessage) (h : OutsideSif r s) :
    OutsideSif r (acceptEdge e label m s) := by
  have hj (f : Tmb → Tmb) :=
    judgeA3_outside (handleEdge_outside e label m.label ((withTmb_outside f).2 (count_outside 37 h)))
  unfold acceptEdge
  dsimp only
  split
  · exact hj _
  · exact stepTo_outside _ _ (hj _)

@[simp] theorem ppsEdge_outside (h : OutsideSif r s) : OutsideSif r (ppsEdge s) := by
  unfold ppsEdge
  dsimp only
  repeat' split
  all_goals simp [h]

@[simp] theorem timeMessage_outside (bytes : List Byte) (h : OutsideSif r s) : OutsideSif r (timeMessage bytes s) := by
  unfold timeMessage
  split <;> exact h

@[simp] theorem setTime_outside (label frac : Nat) (h : OutsideSif r s) : OutsideSif r (setTime label frac s) :=
  judgeA3_outside ((withTmb_outside _).2 (stepTo_outside label (frac * 100) h))

@[simp] theorem tmbRestart_outside (h : OutsideSif r s) : OutsideSif r (tmbRestart s) :=
  dutyRequest_outside (judgeA3_outside ((withTmb_outside _).2 h))

/-! ### BMN -/

@[simp] theorem gateStage_outside (h : OutsideSif r s) : OutsideSif r (gateStage s) := by
  unfold gateStage
  dsimp only
  repeat' split
  all_goals simp [h]

@[simp] theorem lnkShed_outside (wasFull : Bool) (h : OutsideSif r s) : OutsideSif r (lnkShed wasFull s) := by
  unfold lnkShed
  split
  · obtain ⟨sif, a6, counts, replies, notices, -⟩ := h
    exact ⟨sif, a6, counts, replies, notices, fun _ => Nat.zero_le _⟩
  · exact h

@[simp] theorem handLevel_outside (wasFull : Bool) (h : OutsideSif r s) : OutsideSif r (handLevel wasFull s) := by
  have hl := judgeListening_outside.2 (lnkShed_outside wasFull h)
  have ha := aluShed_outside (judgeZones_outside (judgeWay_outside hl))
  unfold handLevel
  dsimp only
  split
  · exact cancelJob_outside _ ha
  · exact ha

@[simp] theorem changeLevel_outside (new : ShedLevel) (voltage : Bool) (h : OutsideSif r s) :
    OutsideSif r (changeLevel new voltage s) := by
  unfold changeLevel reportA4
  dsimp only
  split
  · exact reportCondition_outside _ _ _ (handLevel_outside _ h)
  · exact reportCondition_outside _ _ _ (handLevel_outside _ (queueNotice_outside _ _ h))

@[simp] theorem levelStage_outside (before : Bool) (h : OutsideSif r s) : OutsideSif r (levelStage before s) := by
  unfold levelStage
  dsimp only
  split <;> simp [h]

@[simp] theorem scanToCut_outside (x : MonitorInputs) (h : OutsideSif r s) : OutsideSif r (scanToCut x s) :=
  (withBmn_outside _).2 (gateStage_outside ((withBmn_outside _).2 h))

@[simp] theorem handTemps_outside (h : OutsideSif r s) : OutsideSif r (handTemps s) := judgeAndRemember_outside _ h

@[simp] theorem batteryWrite_outside (h : OutsideSif r s) : OutsideSif r (batteryWrite s) := by
  unfold batteryWrite
  dsimp only
  split <;> exact h

/-! ### LNK -/

/-- A closed DATA frame enters a queue that stays within its 24 places (R125). -/
@[simp] theorem queueData_outside (f : DataFrame) (h : OutsideSif r s) : OutsideSif r (queueData f s) := by
  obtain ⟨sif, a6, counts, replies, notices, data⟩ := h
  unfold queueData
  split
  · refine count_outside 27 ⟨sif, a6, counts, replies, notices, fun hr => ?_⟩
    have := data hr
    split
    · simp
    · next _ xs hd =>
      have := congrArg List.length hd
      simp at this ⊢
      omega
  · refine ⟨sif, a6, counts, replies, notices, fun hr => ?_⟩
    have := data hr
    simp_all [Config.dataLimit]

@[simp] theorem closeData_outside (h : OutsideSif r s) : OutsideSif r (closeData s) := by
  unfold closeData
  split
  · exact h
  · exact queueData_outside _ h

@[simp] theorem closeFull_outside (h : OutsideSif r s) : OutsideSif r (closeFull s) := by
  unfold closeFull
  repeat' split
  all_goals simp [h]

@[simp] theorem openDataFrame_outside (d : Delivered) (h : OutsideSif r s) : OutsideSif r (openDataFrame d s) := h

@[simp] theorem packFrame_outside (d : Delivered) (h : OutsideSif r s) : OutsideSif r (packFrame d s) := by
  unfold packFrame
  repeat' split
  · exact h
  · exact closeFull_outside (openDataFrame_outside d h)
  · exact closeFull_outside (openDataFrame_outside d (closeData_outside h))
  · exact closeFull_outside h

@[simp] theorem packMissing_outside (h : OutsideSif r s) : OutsideSif r (packMissing s) := by
  unfold packMissing
  split
  · exact h
  · exact closeData_outside h

@[simp] theorem streamWrite_outside (old : Six ChannelEntry) (h : OutsideSif r s) : OutsideSif r (streamWrite old s) := by
  unfold streamWrite
  dsimp only
  repeat' split
  · exact h
  · exact closeData_outside h
  · exact closeData_outside h

@[simp] theorem radioWork_outside (h : OutsideSif r s) : OutsideSif r (radioWork s) := by
  unfold radioWork
  repeat' split
  all_goals exact h

@[simp] theorem lingerWork_outside (h : OutsideSif r s) : OutsideSif r (lingerWork s) := by
  unfold lingerWork
  repeat' split
  · exact h
  · exact switchOff_outside 0 h
  · exact h
  · exact h

@[simp] theorem completeTransmission_outside (h : OutsideSif r s) : OutsideSif r (completeTransmission s) :=
  count_outside 26 h

/-! ### What follows every step -/

@[simp] theorem judgeRequests_outside (h : OutsideSif r s) : OutsideSif r (judgeRequests s) :=
  arbitrate_outside _ (radioWork_outside h)

@[simp] theorem settleOn_outside (h : OutsideSif r s) : OutsideSif r (settleOn s) := by
  have hp := enforcePermission_outside (refreshRequests_outside.2 h)
  have hr := refreshRequests_outside.2 (heatersWork_outside (gnssWork_outside hp))
  have hw := endColdWait_outside (endSuspension_outside hr)
  unfold settleOn
  exact lingerWork_outside (judgeRequests_outside (judgeRequests_outside hw))

@[simp] theorem settle_outside (h : OutsideSif r s) : OutsideSif r (settle s) := by
  unfold settle
  split <;> simp [h]

end Sys2Proof.Machine
end

section
/-!
SUPPORT. The sample interface: what the leaving of an entry makes of SIF, and what is left of the strobe list by delivery
from its front and by a push-out (R1 to R9).
-/

namespace Sys2Proof.Machine

/-! ### What the other blocks leave of SIF -/

theorem count_sif (k : Fin 40) (s : State) : (count k s).sif = s.sif := by
  obtain ⟨q, -, h⟩ := count_eq k s
  rw [h]

theorem countTimes_sif (n : Nat) (k : Fin 40) (s : State) : (countTimes n k s).sif = s.sif := by
  induction n generalizing s with
  | zero => rfl
  | succ n ih => rw [countTimes, ih, count_sif]

theorem reportCondition_sif (cls : Fin 8) (value : Bool) (p : AlertPayload) (s : State) :
    (reportCondition cls value p s).sif = s.sif := by
  obtain ⟨a, c, q, h⟩ := reportCondition_alerts cls value p s
  rw [h]

theorem sampleInstant_sif (st : Stamp) (item : SampleItem) (s : State) : (sampleInstant st item s).sif = s.sif :=
  (sampleInstant_outside st item (.refl s)).sif

theorem writeFrame_sif (d : Delivered) (s : State) : (writeFrame d s).sif = s.sif :=
  (writeFrame_outside d (.refl s)).sif

theorem gapResetDetectors_sif (t : Time) (s : State) : (gapResetDetectors t s).sif = s.sif :=
  (gapResetDetectors_outside t (.refl s)).sif

/-! ### What the leaving of an entry makes of SIF -/

theorem onsetA6_sif (cause : DigitizerCause) (s : State) : (onsetA6 cause s).sif = { s.sif with a6 := true } :=
  reportCondition_sif 6 true _ _

theorem clearA6_sif (s : State) : (clearA6 s).sif = { s.sif with a6 := false } := by
  unfold clearA6
  split
  · rw [reportCondition_sif]
    rfl
  · next h =>
    have h : s.sif.a6 = false := by simpa using h
    rw [← h]

/-- Gap reset is reached at a run length (R8). -/
def gapReached (s : State) (run : Nat) : Bool := decide (s.tables.station.gapReset ≤ run)

/-- SIF after R8's comparison. -/
def Sif.gapJudged (reached : Bool) (f : Sif) : Sif :=
  { f with gapSignalled := f.gapSignalled || reached, a6 := f.a6 || (reached && !f.gapSignalled) }

/-- R8's comparison: gap reset is signalled where the run reaches it the first time, and nothing is done elsewhere. -/
theorem judgeGap_cases (t : Time) (s : State) :
    (gapReached s s.sif.missingRun && !s.sif.gapSignalled) = true ∧
        judgeGap t s = onsetA6 .gap (gapResetDetectors t (s.withSif fun f => { f with gapSignalled := true })) ∨
      (gapReached s s.sif.missingRun && !s.sif.gapSignalled) = false ∧ judgeGap t s = s := by
  unfold judgeGap gapReached
  split <;> simp_all

theorem Sif.gapJudged_eq_self {reached : Bool} {f : Sif} (h : (reached && !f.gapSignalled) = false) :
    f.gapJudged reached = f := by
  obtain ⟨_, _, _, _, signalled, _, _, _⟩ := f
  cases signalled <;> simp_all [Sif.gapJudged]

theorem judgeGap_sif (t : Time) (s : State) :
    (judgeGap t s).sif = s.sif.gapJudged (gapReached s s.sif.missingRun) := by
  obtain ⟨h, e⟩ | ⟨h, e⟩ := judgeGap_cases t s
  · rw [e, onsetA6_sif, gapResetDetectors_sif]
    simp_all [Sif.gapJudged]
  · rw [e, Sif.gapJudged_eq_self h]

/-! ### What a sample instant leaves alone -/

/-- `t` is `s` but for SIF, DET, EVU, WFS, ALU, the counters, the notice queue and the stream. -/
def Instants (s t : State) : Prop :=
  ∃ f d e w a c q g o p,
    t =
      { s with
        sif := f, det := d, evu := e, wfs := w, alu := a, cnt := c
        lnk := { s.lnk with notices := q, dataQueue := g, openData := o, gapPending := p } }

theorem Instants.refl (s : State) : Instants s s := ⟨_, _, _, _, _, _, _, _, _, _, rfl⟩

theorem Instants.trans {s t u : State} (h : Instants s t) (h' : Instants t u) : Instants s u := by
  obtain ⟨f, d, e, w, a, c, q, g, o, p, rfl⟩ := h
  obtain ⟨f', d', e', w', a', c', q', g', o', p', rfl⟩ := h'
  exact ⟨f', d', e', w', a', c', q', g', o', p', rfl⟩

theorem Samples.instants {s t : State} (h : Samples s t) : Instants s t := by
  obtain ⟨d, e, w, a, c, q, rfl⟩ := h
  exact ⟨s.sif, d, e, w, a, c, q, _, _, _, rfl⟩

theorem Instants.tables {s t : State} (h : Instants s t) : t.tables = s.tables := by
  obtain ⟨f, d, e, w, a, c, q, g, o, p, rfl⟩ := h
  rfl

theorem Instants.tmb {s t : State} (h : Instants s t) : t.tmb = s.tmb := by
  obtain ⟨f, d, e, w, a, c, q, g, o, p, rfl⟩ := h
  rfl

theorem Instants.supply {s t : State} (h : Instants s t) : t.supply = s.supply := by
  obtain ⟨f, d, e, w, a, c, q, g, o, p, rfl⟩ := h
  rfl

theorem Instants.gapReached {s t : State} (h : Instants s t) (run : Nat) : gapReached t run = gapReached s run := by
  rw [Machine.gapReached, Machine.gapReached, h.tables]

theorem withSif_instants (f : Sif → Sif) (s : State) : Instants s (s.withSif f) :=
  ⟨f s.sif, _, _, _, _, _, _, _, _, _, rfl⟩

theorem count_instants (k : Fin 40) (s : State) : Instants s (count k s) := (count_alerts k s).events.samples.instants

theorem countTimes_instants (n : Nat) (k : Fin 40) (s : State) : Instants s (countTimes n k s) := by
  induction n generalizing s with
  | zero => exact .refl s
  | succ n ih => exact (count_instants k s).trans (ih _)

/-- `t` is `s` but for the stream, the counters and the notice queue. -/
def Packs (s t : State) : Prop :=
  ∃ c q g o p, t = { s with cnt := c, lnk := { s.lnk with notices := q, dataQueue := g, openData := o, gapPending := p } }

theorem Packs.refl (s : State) : Packs s s := ⟨_, _, _, _, _, rfl⟩

theorem Packs.trans {s t u : State} (h : Packs s t) (h' : Packs t u) : Packs s u := by
  obtain ⟨c, q, g, o, p, rfl⟩ := h
  obtain ⟨c', q', g', o', p', rfl⟩ := h'
  exact ⟨c', q', g', o', p', rfl⟩

theorem Packs.instants {s t : State} (h : Packs s t) : Instants s t := by
  obtain ⟨c, q, g, o, p, rfl⟩ := h
  exact ⟨s.sif, s.det, s.evu, s.wfs, s.alu, c, q, g, o, p, rfl⟩

theorem Packs.wfs {s t : State} (h : Packs s t) : t.wfs = s.wfs := by
  obtain ⟨c, q, g, o, p, rfl⟩ := h
  rfl

theorem Packs.blocks {s t : State} (h : Packs s t) :
    t.sif = s.sif ∧ t.det = s.det ∧ t.evu = s.evu ∧ t.wfs = s.wfs ∧ t.alu = s.alu := by
  obtain ⟨c, q, g, o, p, rfl⟩ := h
  exact ⟨rfl, rfl, rfl, rfl, rfl⟩

theorem count_packs (k : Fin 40) (s : State) : Packs s (count k s) := by
  obtain ⟨q, -, h⟩ := count_eq k s
  exact ⟨_, q, _, _, _, h⟩

theorem queueData_packs (f : DataFrame) (s : State) : Packs s (queueData f s) := by
  have h (g : List DataFrame) : Packs s (s.withLnk fun l => { l with dataQueue := g }) := ⟨_, _, g, _, _, rfl⟩
  unfold queueData
  split
  · exact (h _).trans (count_packs 27 _)
  · exact h _

theorem closeData_packs (s : State) : Packs s (closeData s) := by
  unfold closeData
  split
  · exact .refl s
  · have h : Packs s (s.withLnk fun l => { l with openData := none }) := ⟨_, _, _, none, _, rfl⟩
    exact h.trans (queueData_packs _ _)

theorem closeFull_packs (s : State) : Packs s (closeFull s) := by
  unfold closeFull
  split
  · exact .refl s
  · split
    · exact closeData_packs s
    · exact .refl s

theorem openDataFrame_packs (d : Delivered) (s : State) : Packs s (openDataFrame d s) := ⟨_, _, _, _, _, rfl⟩

theorem packFrame_packs (d : Delivered) (s : State) : Packs s (packFrame d s) := by
  unfold packFrame
  split
  · exact .refl s
  · split
    · exact (openDataFrame_packs d s).trans (closeFull_packs _)
    · split
      · exact ((closeData_packs s).trans (openDataFrame_packs d _)).trans (closeFull_packs _)
      · exact .trans ⟨_, _, _, _, _, rfl⟩ (closeFull_packs _)

theorem packMissing_packs (s : State) : Packs s (packMissing s) := by
  unfold packMissing
  split
  · exact .refl s
  · exact (closeData_packs s).trans ⟨_, _, _, _, _, rfl⟩

theorem onsetA6_instants (cause : DigitizerCause) (s : State) : Instants s (onsetA6 cause s) :=
  (withSif_instants _ s).trans (reportCondition_alerts _ _ _ _).events.samples.instants

theorem clearA6_instants (s : State) : Instants s (clearA6 s) := by
  unfold clearA6
  split
  · exact (withSif_instants _ s).trans (reportCondition_alerts _ _ _ _).events.samples.instants
  · exact .refl s

theorem judgeGap_instants (t : Time) (s : State) : Instants s (judgeGap t s) := by
  obtain ⟨-, e⟩ | ⟨-, e⟩ := judgeGap_cases t s <;> rw [e]
  · exact ((withSif_instants _ s).trans (gapResetDetectors_samples t _).instants).trans (onsetA6_instants _ _)
  · exact .refl s

theorem handMissing_instants (st : Stamp) (s : State) : Instants s (handMissing st s) :=
  (sampleInstant_samples st none s).instants.trans (packMissing_packs _).instants

/-! ### An entry that leaves the list -/

theorem packFrame_sif (d : Delivered) (s : State) : (packFrame d s).sif = s.sif := (packFrame_packs d s).blocks.1

theorem packMissing_sif (s : State) : (packMissing s).sif = s.sif := (packMissing_packs s).blocks.1

theorem handMissing_sif (st : Stamp) (s : State) : (handMissing st s).sif = s.sif := by
  rw [handMissing, packMissing_sif, sampleInstant_sif]


/-- The run length after one more instant without a usable frame (R6, R7). -/
def longerRun (s : State) : Nat := min 255 (s.sif.missingRun + 1)

/-- The state in which a frameless entry's instant is handed on: the count, the longer run and the step carry (R7). -/
def missingNoted (e : Strobe) (s : State) : State :=
  (count 4 s).withSif fun f =>
    { f with missingRun := min 255 (f.missingRun + 1), stepCarry := f.stepCarry || e.stepFlag }

theorem missingNoted_instants (e : Strobe) (s : State) : Instants s (missingNoted e s) :=
  (count_instants 4 s).trans (withSif_instants _ _)

theorem missingNoted_sif (e : Strobe) (s : State) :
    (missingNoted e s).sif = { s.sif with missingRun := longerRun s, stepCarry := s.sif.stepCarry || e.stepFlag } := by
  rw [missingNoted, State.withSif_sif, count_sif]
  rfl

theorem missingNoted_blocks (e : Strobe) (s : State) :
    (missingNoted e s).det = s.det ∧ (missingNoted e s).evu = s.evu ∧ (missingNoted e s).wfs = s.wfs := by
  obtain ⟨q, -, h⟩ := count_eq 4 s
  rw [missingNoted, h]
  exact ⟨rfl, rfl, rfl⟩

theorem declareMissing_eq (e : Strobe) (s : State) :
    declareMissing e s = judgeGap e.time (handMissing ⟨e.time, e.tq⟩ (missingNoted e s)) := by
  unfold declareMissing missingNoted lengthenRun
  cases h : e.stepFlag <;> simp [State.withSif]

theorem declareMissing_instants (e : Strobe) (s : State) : Instants s (declareMissing e s) := by
  rw [declareMissing_eq]
  exact ((missingNoted_instants e s).trans (handMissing_instants _ _)).trans (judgeGap_instants _ _)

/-- SIF after an entry is declared missing (R7, R8). -/
theorem declareMissing_sif (e : Strobe) (s : State) :
    (declareMissing e s).sif =
      ({ s.sif with missingRun := longerRun s, stepCarry := s.sif.stepCarry || e.stepFlag } : Sif).gapJudged
        (gapReached s (longerRun s)) := by
  have hs : (handMissing ⟨e.time, e.tq⟩ (missingNoted e s)).sif =
      { s.sif with missingRun := longerRun s, stepCarry := s.sif.stepCarry || e.stepFlag } := by
    rw [handMissing_sif, missingNoted_sif]
  have hi := (missingNoted_instants e s).trans (handMissing_instants ⟨e.time, e.tq⟩ (missingNoted e s))
  rw [declareMissing_eq, judgeGap_sif, hs, hi.gapReached]

/-- The state in which a delivered frame is noted as accepted (R5). -/
def acceptedNoted (e : Strobe) (s : State) : State :=
  (count 0 s).withSif fun x => { x with lastAccepted := some e.seq, stepCarry := false }

/-- The state in which a usable frame is handed on: the clip counts, no run, no gap and no A6 (R5). -/
def usableNoted (d : Delivered) (s : State) : State :=
  clearA6 ((countTimes (clipCount d.clips) 6 s).withSif fun f => { f with missingRun := 0, gapSignalled := false })

/-- The state in which a fault-flagged frame is handed on: the counts, the longer run and the FAULT onset (R6). -/
def faultNoted (s : State) : State := onsetA6 .fault (lengthenRun (count 5 (count 4 s)))

theorem deliver_of_good {f : DigFrame} (hf : f.fault = false) (e : Strobe) (s : State) :
    deliver e f s =
      let d := deliveredOf s.sif.stepCarry e f
      packFrame d (writeFrame d
        (sampleInstant ⟨e.time, e.tq⟩ (some (f.samples, f.clips)) (usableNoted d (acceptedNoted e s)))) := by
  simp only [deliver, count_sif, hf, Bool.false_eq_true, if_false]
  rfl

theorem deliver_of_fault {f : DigFrame} (hf : f.fault = true) (e : Strobe) (s : State) :
    deliver e f s =
      let d := deliveredOf s.sif.stepCarry e f
      judgeGap e.time (packMissing (writeFrame d
        (sampleInstant ⟨e.time, e.tq⟩ none (faultNoted (acceptedNoted e s))))) := by
  simp only [deliver, count_sif, hf, if_true]
  rfl

theorem acceptedNoted_instants (e : Strobe) (s : State) : Instants s (acceptedNoted e s) :=
  (count_instants 0 s).trans (withSif_instants _ _)

theorem usableNoted_instants (d : Delivered) (s : State) : Instants s (usableNoted d s) :=
  ((countTimes_instants _ 6 s).trans (withSif_instants _ _)).trans (clearA6_instants _)

theorem faultNoted_instants (s : State) : Instants s (faultNoted s) :=
  (((count_instants 4 s).trans (count_instants 5 _)).trans (withSif_instants _ _)).trans (onsetA6_instants _ _)

theorem acceptedNoted_sif (e : Strobe) (s : State) :
    (acceptedNoted e s).sif = { s.sif with lastAccepted := some e.seq, stepCarry := false } := by
  rw [acceptedNoted, State.withSif_sif, count_sif]

theorem usableNoted_sif (d : Delivered) (s : State) :
    (usableNoted d s).sif = { s.sif with missingRun := 0, gapSignalled := false, a6 := false } := by
  rw [usableNoted, clearA6_sif, State.withSif_sif, countTimes_sif]

theorem faultNoted_sif (s : State) : (faultNoted s).sif = { s.sif with missingRun := longerRun s, a6 := true } := by
  rw [faultNoted, onsetA6_sif, lengthenRun, State.withSif_sif, count_sif, count_sif]
  rfl

/-- A sample instant handed on and its frame written. -/
theorem written_instants (d : Delivered) (st : Stamp) (item : SampleItem) (s : State) :
    Instants s (writeFrame d (sampleInstant st item s)) :=
  ((sampleInstant_samples st item s).trans (writeFrame_events d _).samples).instants

theorem deliver_instants (e : Strobe) (f : DigFrame) (s : State) : Instants s (deliver e f s) := by
  cases hf : f.fault
  · rw [deliver_of_good hf]
    exact ((acceptedNoted_instants e s).trans (usableNoted_instants _ _)).trans
      ((written_instants _ _ _ _).trans (packFrame_packs _ _).instants)
  · rw [deliver_of_fault hf]
    exact ((acceptedNoted_instants e s).trans (faultNoted_instants _)).trans
      (((written_instants _ _ _ _).trans (packMissing_packs _).instants).trans
        (judgeGap_instants _ _))

/-- SIF after the delivery of a usable frame (R5). -/
theorem deliver_sif_of_good {f : DigFrame} (hf : f.fault = false) (e : Strobe) (s : State) :
    (deliver e f s).sif =
      { s.sif with
        lastAccepted := some e.seq, stepCarry := false, missingRun := 0, gapSignalled := false, a6 := false } := by
  rw [deliver_of_good hf]
  dsimp only
  rw [packFrame_sif, writeFrame_sif, sampleInstant_sif, usableNoted_sif, acceptedNoted_sif]

/-- SIF after the delivery of a fault-flagged frame (R6, R8). -/
theorem deliver_sif_of_fault {f : DigFrame} (hf : f.fault = true) (e : Strobe) (s : State) :
    (deliver e f s).sif =
      ({ s.sif with
          lastAccepted := some e.seq, stepCarry := false, missingRun := longerRun s, a6 := true } : Sif).gapJudged
        (gapReached s (longerRun s)) := by
  have hi := ((acceptedNoted_instants e s).trans (faultNoted_instants _)).trans
    ((written_instants (deliveredOf s.sif.stepCarry e f) ⟨e.time, e.tq⟩ none _).trans (packMissing_packs _).instants)
  rw [deliver_of_fault hf]
  dsimp only
  rw [judgeGap_sif, packMissing_sif, writeFrame_sif, sampleInstant_sif, faultNoted_sif, acceptedNoted_sif]
  have hr : longerRun (acceptedNoted e s) = longerRun s := by rw [longerRun, acceptedNoted_sif]; rfl
  rw [hr]
  exact congrArg (fun b => Sif.gapJudged b _) (hi.gapReached _)

/-- What every leaving keeps of SIF: the list, the next sequence and the rate. -/
theorem declareMissing_list (e : Strobe) (s : State) :
    (declareMissing e s).sif.strobes = s.sif.strobes ∧ (declareMissing e s).sif.nextSeq = s.sif.nextSeq ∧
      (declareMissing e s).sif.rate = s.sif.rate ∧ (declareMissing e s).sif.lastAccepted = s.sif.lastAccepted := by
  rw [declareMissing_sif]
  exact ⟨rfl, rfl, rfl, rfl⟩

/-- A delivery keeps the list, the next sequence and the rate, and its sequence is the last accepted one. -/
theorem deliver_list (e : Strobe) (f : DigFrame) (s : State) :
    (deliver e f s).sif.strobes = s.sif.strobes ∧ (deliver e f s).sif.nextSeq = s.sif.nextSeq ∧
      (deliver e f s).sif.rate = s.sif.rate ∧ (deliver e f s).sif.lastAccepted = some e.seq := by
  cases hf : f.fault
  · rw [deliver_sif_of_good hf]
    exact ⟨rfl, rfl, rfl, rfl⟩
  · rw [deliver_sif_of_fault hf]
    exact ⟨rfl, rfl, rfl, rfl⟩

/-! ### Delivery from the front, and the push-out -/

theorem deliverFront_of_nil (n : Nat) {s : State} (hs : s.sif.strobes = []) : deliverFront n s = s := by
  cases n with
  | zero => rfl
  | succ n => simp [deliverFront, hs]

/-- A frameless front entry ends the delivery. -/
theorem deliverFront_of_frameless (n : Nat) {s : State} {e : Strobe} {rest : List Strobe}
    (hs : s.sif.strobes = e :: rest) (he : e.frame = none) : deliverFront n s = s := by
  cases n with
  | zero => rfl
  | succ n => simp [deliverFront, hs, he]

/-- A front entry with its frame is delivered, and the delivery goes on from the next. -/
theorem deliverFront_of_frame (n : Nat) {s : State} {e : Strobe} {rest : List Strobe} {f : DigFrame}
    (hs : s.sif.strobes = e :: rest) (he : e.frame = some f) :
    deliverFront (n + 1) s = deliverFront n (deliver e f (withStrobes rest s)) := by
  simp [deliverFront, hs, he, withStrobes]

/-- Delivery from the front takes the leading entries that hold their frames off the list (R4). -/
theorem deliverFront_list {l : List Strobe} {n : Nat} {s : State} (hs : s.sif.strobes = l) (hn : l.length ≤ n) :
    (deliverFront n s).sif.strobes = l.dropWhile (fun x => x.frame.isSome) ∧
      (deliverFront n s).sif.nextSeq = s.sif.nextSeq := by
  induction l generalizing n s with
  | nil => simp [deliverFront_of_nil n hs, hs]
  | cons e rest ih =>
    cases he : e.frame with
    | none => simp [deliverFront_of_frameless n hs he, hs, he]
    | some f =>
      obtain ⟨n, rfl⟩ := Nat.exists_eq_add_one_of_ne_zero (Nat.ne_of_gt ((Nat.succ_pos _).trans_le hn))
      obtain ⟨hl, hq, -⟩ := deliver_list e f (withStrobes rest s)
      obtain ⟨il, iq⟩ := ih hl (Nat.le_of_succ_le_succ hn)
      rw [deliverFront_of_frame n hs he, il, iq, hq]
      exact ⟨by simp [he], rfl⟩

theorem leave_list (e : Strobe) (s : State) :
    (leave e s).sif.strobes = s.sif.strobes ∧ (leave e s).sif.nextSeq = s.sif.nextSeq := by
  unfold leave
  split
  · exact ⟨(deliver_list e _ s).1, (deliver_list e _ s).2.1⟩
  · exact ⟨(declareMissing_list e s).1, (declareMissing_list e s).2.1⟩

/-- A strobe that finds a full list pushes its front entry out, and delivery goes on from the front (R2). -/
theorem pushOut_of_full {e : Strobe} {rest : List Strobe} {s : State} (hs : s.sif.strobes = e :: rest)
    (full : rest.length = 3) : pushOut s = deliverFront Config.strobeLimit (leave e (withStrobes rest s)) := by
  unfold pushOut
  rw [if_neg (by simp [hs, full, Config.strobeLimit])]
  split
  · next h => cases hs.symm.trans h
  · next h =>
    cases hs.symm.trans h
    rfl

/-- A push-out from a full list takes the front entry and the followers that hold their frames (R2, R4). -/
theorem pushOut_list {e : Strobe} {rest : List Strobe} {s : State} (hs : s.sif.strobes = e :: rest)
    (full : rest.length = 3) :
    (pushOut s).sif.strobes = rest.dropWhile (fun x => x.frame.isSome) ∧ (pushOut s).sif.nextSeq = s.sif.nextSeq := by
  obtain ⟨hl, hn⟩ := leave_list e (withStrobes rest s)
  obtain ⟨dl, dn⟩ := deliverFront_list (n := Config.strobeLimit) hl (by simp [withStrobes, full, Config.strobeLimit])
  rw [pushOut_of_full hs full, dl, dn, hn]
  exact ⟨rfl, rfl⟩

/-- A list with room stands as it is. -/
theorem pushOut_of_room {s : State} (h : s.sif.strobes.length < 4) : pushOut s = s := if_pos h

/-! ### The strobe list in sequence (R1, R2, R4) -/

/-- The list keeps its places and bears the sequence numbers just given. -/
def Sif.InSequence (f : Sif) : Prop := f.StrobesInv ∧ f.SequenceInv

/-- The numbers of a tail of the list are those it had. -/
theorem Sif.SequenceInv.of_suffix {f : Sif} (h : f.SequenceInv) {g : Sif} (hs : g.strobes <:+ f.strobes)
    (hn : g.nextSeq = f.nextSeq) : g.SequenceInv := by
  obtain ⟨before, hb⟩ := hs
  intro i hi
  have hj : before.length + i < f.strobes.length := by simp [← hb, hi]
  have e : f.strobes[before.length + i] = g.strobes[i] := by simp [← hb]
  rw [← e, h _ hj, hn, ← hb, List.length_append]
  congr 2
  omega

/-- An entry with the next sequence number at the back keeps the sequence. -/
theorem Sif.SequenceInv.append {f : Sif} (h : f.SequenceInv) {e : Strobe}
    (he : e.seq = f.nextSeq) :
    ({ f with nextSeq := f.nextSeq + 1, strobes := f.strobes ++ [e] } : Sif).SequenceInv := by
  intro i hi
  dsimp only at hi ⊢
  rw [List.length_append, List.length_singleton] at hi ⊢
  by_cases hlt : i < f.strobes.length
  · rw [List.getElem_append_left hlt, h i hlt]
    bv_omega
  · obtain rfl : i = f.strobes.length := by omega
    simp [he]

/-- The list after a delivery from its front has no frame at its front, and keeps its sequence. -/
theorem Sif.InSequence.delivered {f g : Sif} (len : f.strobes.length ≤ 4) (h : f.SequenceInv)
    (hs : g.strobes = f.strobes.dropWhile (fun x => x.frame.isSome)) (hn : g.nextSeq = f.nextSeq) : g.InSequence := by
  have suffix : g.strobes <:+ f.strobes := hs ▸ List.dropWhile_suffix _
  refine ⟨⟨suffix.length_le.trans len, fun e he => ?_⟩, h.of_suffix suffix hn⟩
  have := List.head?_dropWhile_not (fun x : Strobe => x.frame.isSome) f.strobes
  simpa [← hs, Option.mem_def.mp he] using this

/-- A strobe keeps the list in sequence: the push-out first, then the new entry (R1, R2). -/
theorem strobeInstant_inSequence {s : State} (h : s.sif.InSequence) : (strobeInstant s).sif.InSequence := by
  obtain ⟨⟨len, front⟩, seq⟩ := h
  have hp : (pushOut s).sif.InSequence ∧ (pushOut s).sif.strobes.length < 4 ∧ (pushOut s).sif.nextSeq = s.sif.nextSeq := by
    by_cases room : s.sif.strobes.length < 4
    · rw [pushOut_of_room room]
      exact ⟨⟨⟨len, front⟩, seq⟩, room, rfl⟩
    · obtain ⟨e, rest, hs⟩ : ∃ e rest, s.sif.strobes = e :: rest :=
        List.exists_cons_of_length_pos (by omega)
      have full : rest.length = 3 := by simp [hs] at len room; omega
      obtain ⟨hl, hn⟩ := pushOut_list hs full
      have tail : ({ s.sif with strobes := rest } : Sif).SequenceInv :=
        seq.of_suffix (hs ▸ List.suffix_cons e rest) rfl
      exact ⟨.delivered (f := { s.sif with strobes := rest }) (by simp [full]) tail hl hn,
        by rw [hl]; exact (List.length_dropWhile_le _ _).trans_lt (by omega), hn⟩
  obtain ⟨⟨⟨plen, pfront⟩, pseq⟩, room, hn⟩ := hp
  refine ⟨⟨by simp [strobeInstant]; omega, fun x hx => ?_⟩, pseq.append hn.symm⟩
  cases hq : (pushOut s).sif.strobes with
  | nil =>
    have hx : newStrobe s = x := by simpa [strobeInstant, hq] using hx
    rw [← hx]
    rfl
  | cons y ys => exact pfront x (by simpa [strobeInstant, hq] using hx)

/-- A frame stored in the list changes no sequence number. -/
theorem storeFrame_sequence {s : State} (f : DigFrame) (h : s.sif.SequenceInv) : (storeFrame f s).sif.SequenceInv := by
  intro i hi
  have hi' : i < s.sif.strobes.length := by simpa [storeFrame] using hi
  have := h i hi'
  simp only [storeFrame, State.withSif_sif, List.getElem_map, List.length_map]
  split <;> exact this

/-- A digitizer frame keeps the list in sequence (R4). -/
theorem digitizerFrame_inSequence (bytes : List Byte) {s : State} (h : s.sif.InSequence) :
    (digitizerFrame bytes s).sif.InSequence := by
  unfold digitizerFrame
  split
  · rwa [count_sif]
  · next f _ =>
    unfold matchFrame
    split
    · split
      · rwa [count_sif]
      · obtain ⟨⟨len, -⟩, seq⟩ := h
        have len : (storeFrame f s).sif.strobes.length ≤ 4 := by simpa [storeFrame] using len
        obtain ⟨hl, hn⟩ := deliverFront_list (n := Config.strobeLimit) rfl len
        exact .delivered len (storeFrame_sequence f seq) hl hn
    · split <;> rwa [count_sif]

/-! ### LNK's queues within their places (R125 to R127) -/

theorem count_queues (k : Fin 40) {s : State} (h : QueuesBounded s) : QueuesBounded (count k s) := by
  obtain ⟨q, hq, e⟩ := count_eq k s
  obtain ⟨replies, notices, data⟩ := h
  rw [e]
  exact ⟨replies, hq notices, data⟩

theorem withSif_queues (f : Sif → Sif) {s : State} (h : QueuesBounded s) : QueuesBounded (s.withSif f) := h

theorem countTimes_queues (n : Nat) (k : Fin 40) {s : State} (h : QueuesBounded s) : QueuesBounded (countTimes n k s) := by
  induction n generalizing s with
  | zero => exact h
  | succ n ih =>
    rw [countTimes]
    exact ih (count_queues k h)

theorem reportCondition_queues (cls : Fin 8) (value : Bool) (p : AlertPayload) {s : State} (h : QueuesBounded s) :
    QueuesBounded (reportCondition cls value p s) := (reportCondition_outside_noted cls value p s).queues h

theorem onsetA6_queues (cause : DigitizerCause) {s : State} (h : QueuesBounded s) : QueuesBounded (onsetA6 cause s) :=
  reportCondition_queues 6 true _ (withSif_queues _ h)

theorem judgeGap_queues (t : Time) {s : State} (h : QueuesBounded s) : QueuesBounded (judgeGap t s) := by
  obtain ⟨-, e⟩ | ⟨-, e⟩ := judgeGap_cases t s <;> rw [e]
  · have hs := withSif_queues (fun f => { f with gapSignalled := true }) h
    exact onsetA6_queues .gap ((gapResetDetectors_outside t (.refl _)).queues hs)
  · exact h

theorem clearA6_queues {s : State} (h : QueuesBounded s) : QueuesBounded (clearA6 s) := by
  unfold clearA6
  split
  · exact reportCondition_queues 6 false _ h
  · exact h

theorem declareMissing_queues (e : Strobe) {s : State} (h : QueuesBounded s) : QueuesBounded (declareMissing e s) := by
  have hn : QueuesBounded (missingNoted e s) := withSif_queues _ (count_queues 4 h)
  rw [declareMissing_eq]
  exact judgeGap_queues _ ((packMissing_outside (sampleInstant_outside _ none (.refl (missingNoted e s)))).queues hn)

theorem deliver_queues (e : Strobe) (f : DigFrame) {s : State} (h : QueuesBounded s) : QueuesBounded (deliver e f s) := by
  have ha : QueuesBounded (acceptedNoted e s) := withSif_queues _ (count_queues 0 h)
  cases hf : f.fault
  · rw [deliver_of_good hf]
    have hu : QueuesBounded (usableNoted (deliveredOf s.sif.stepCarry e f) (acceptedNoted e s)) :=
      clearA6_queues (withSif_queues _ (countTimes_queues _ 6 ha))
    exact (packFrame_outside _ (writeFrame_outside _ (sampleInstant_outside _ _ (.refl _)))).queues hu
  · rw [deliver_of_fault hf]
    have hu : QueuesBounded (faultNoted (acceptedNoted e s)) :=
      onsetA6_queues .fault (withSif_queues _ (count_queues 5 (count_queues 4 ha)))
    exact judgeGap_queues _ ((packMissing_outside (writeFrame_outside _ (sampleInstant_outside _ none (.refl _)))).queues hu)

theorem deliverFront_queues (n : Nat) {s : State} (h : QueuesBounded s) : QueuesBounded (deliverFront n s) := by
  induction n generalizing s with
  | zero => exact h
  | succ n ih =>
    unfold deliverFront
    split
    · exact h
    · split
      · exact h
      · exact ih (deliver_queues _ _ h)

theorem strobeInstant_queues {s : State} (h : QueuesBounded s) : QueuesBounded (strobeInstant s) := by
  have hp : QueuesBounded (pushOut s) := by
    unfold pushOut
    split
    · exact h
    · split
      · exact h
      · unfold leave
        split
        · exact deliverFront_queues _ (deliver_queues _ _ h)
        · exact deliverFront_queues _ (declareMissing_queues _ h)
  exact hp

theorem digitizerFrame_queues (bytes : List Byte) {s : State} (h : QueuesBounded s) :
    QueuesBounded (digitizerFrame bytes s) := by
  unfold digitizerFrame
  split
  · exact count_queues 1 h
  · next f _ =>
    unfold matchFrame
    split
    · split
      · exact count_queues 3 h
      · exact deliverFront_queues _ h
    · split <;> exact count_queues _ h

end Sys2Proof.Machine
end

section
/-!
SUPPORT. Every step keeps the strobe list in sequence and LNK's queues within their places: the commands of the centres, the
receiver, the scan, the supply, and the step of each row.
-/

namespace Sys2Proof.Machine

variable {r s : State}

/-- `s` keeps what `r` keeps of the strobe list's order (R1, R2, R4) and of LNK's places (R125 to R127). -/
structure Orderly (r s : State) : Prop where
  strobes : r.sif.InSequence → s.sif.InSequence
  queues : QueuesBounded r → QueuesBounded s

theorem Orderly.refl (s : State) : Orderly s s := ⟨id, id⟩

theorem Orderly.trans {t : State} (h : Orderly r s) (h' : Orderly s t) : Orderly r t :=
  ⟨h'.strobes ∘ h.strobes, h'.queues ∘ h.queues⟩

theorem OutsideSif.orderly (h : OutsideSif r s) : Orderly r s := ⟨fun hr => h.sif ▸ hr, h.queues⟩

/-- A state with an empty strobe list, no reply, no DATA frame and eight notices at most is in order whatever was before. -/
theorem Orderly.of_empty (strobes : s.sif.strobes = []) (replies : s.lnk.replies = []) (data : s.lnk.dataQueue = [])
    (notices : s.lnk.notices.length ≤ 8) : Orderly r s where
  strobes _ := ⟨by simp [Sif.StrobesInv, strobes], fun i hi => by simp [strobes] at hi⟩
  queues _ := by simp [QueuesBounded, replies, data, notices]

theorem settle_orderly (h : Orderly r s) : Orderly r (settle s) := h.trans (settle_outside (.refl s)).orderly

theorem count_orderly (k : Fin 40) (h : Orderly r s) : Orderly r (count k s) :=
  ⟨fun hr => by rw [count_sif]; exact h.strobes hr, fun hr => count_queues k (h.queues hr)⟩

theorem strobeInstant_orderly (h : Orderly r s) : Orderly r (strobeInstant s) :=
  ⟨strobeInstant_inSequence ∘ h.strobes, strobeInstant_queues ∘ h.queues⟩

theorem digitizerFrame_orderly (bytes : List Byte) (h : Orderly r s) : Orderly r (digitizerFrame bytes s) :=
  ⟨digitizerFrame_inSequence bytes ∘ h.strobes, digitizerFrame_queues bytes ∘ h.queues⟩

/-! ### The commands of the centres (chapter 10) -/

theorem grantHold_outside (n centre seconds : Nat) (h : OutsideSif r s) : OutsideSif r (grantHold n centre seconds s) := by
  unfold grantHold
  dsimp only
  repeat' split
  all_goals simp [h]

theorem cmdHold_outside (n minutes centre : Nat) (h : OutsideSif r s) : OutsideSif r (cmdHold n minutes centre s).state := by
  unfold cmdHold
  dsimp only
  repeat' split
  case isFalse.isFalse => exact grantHold_outside _ _ _ h
  all_goals exact h

theorem cmdRelease_outside (n centre : Nat) (h : OutsideSif r s) : OutsideSif r (cmdRelease n centre s).state := by
  unfold cmdRelease
  repeat' split
  · exact h
  · exact cancelJobOn_outside _ _ h
  · exact h

theorem cmdWaveRequest_outside (n offset count centre : Nat) (tag : Byte) (h : OutsideSif r s) :
    OutsideSif r (cmdWaveRequest n offset count centre tag s).state := by
  unfold cmdWaveRequest
  dsimp only
  repeat' split
  all_goals exact h

theorem cmdWaveCancel_outside (centre : Nat) (h : OutsideSif r s) : OutsideSif r (cmdWaveCancel centre s).state := by
  unfold cmdWaveCancel
  repeat' split
  · exact h
  · exact h
  · exact cancelJob_outside _ h

theorem cmdAlertAck_outside (id centre : Nat) (h : OutsideSif r s) : OutsideSif r (cmdAlertAck id centre s).state := by
  unfold cmdAlertAck
  dsimp only
  repeat' split
  · exact h
  · exact h
  · exact startRecheck_outside _ (count_outside 19 h)
  · exact h

theorem cmdTimeSet_outside (label fraction : Nat) (h : OutsideSif r s) :
    OutsideSif r (cmdTimeSet label fraction s).state := by
  unfold cmdTimeSet
  split
  · exact setTime_outside _ _ h
  · exact h

theorem cmdLoadTest_outside (load seconds : Nat) (h : OutsideSif r s) : OutsideSif r (cmdLoadTest load seconds s).state := by
  unfold cmdLoadTest
  dsimp only
  repeat' split
  all_goals exact h

theorem eachIndex_outside {f : Nat → State → State} (hf : ∀ i {u}, OutsideSif r u → OutsideSif r (f i u)) (first n : Nat)
    (h : OutsideSif r s) : OutsideSif r (eachIndex f first n s) := by
  induction n generalizing first s with
  | zero => exact h
  | succ n ih => exact ih (first + 1) (hf first h)

/-- What stored entries do in their blocks leaves SIF alone: the sample rate waits for a restart (R177, R179). -/
theorem actWrite_outside (id : TableId) (first n : Nat) (old : Tables) (h : OutsideSif r s) :
    OutsideSif r (actWrite id first n old s) := by
  cases id with
  | station => exact closeFull_outside (inrushWrite_outside _ h)
  | channel => exact streamWrite_outside _ (eachIndex_outside (fun i _ hu => detWrite_outside _ _ hu) _ _ h)
  | time => exact judgeWay_outside h
  | alert => exact eachIndex_outside (fun i _ hu => aluWrite_outside _ _ hu) _ _ h
  | load =>
    unfold actWrite
    dsimp only
    split
    · exact judgeZones_outside h
    · exact h
  | zone => exact judgeZones_outside h
  | battery => exact judgeZones_outside (batteryWrite_outside h)
  | event | correction | countermask => exact h

theorem cmdTableWrite_outside (table first n : Nat) (entries : List Byte) (h : OutsideSif r s) :
    OutsideSif r (cmdTableWrite table first n entries s).state := by
  unfold cmdTableWrite
  dsimp only
  repeat' split
  · exact h
  · exact h
  · exact h
  · exact actWrite_outside _ _ _ _ h

theorem cmdSave_outside (centre : Nat) (h : OutsideSif r s) : OutsideSif r (cmdSave centre s).state := by
  unfold cmdSave
  split <;> exact h

theorem saveComplete_outside (readBack : List Byte) (h : OutsideSif r s) : OutsideSif r (saveComplete readBack s) := by
  unfold saveComplete
  split
  · exact h
  · dsimp only
    split <;> exact queueNotice_outside _ _ h

theorem saveNoAnswer_outside (written : Nat) (h : OutsideSif r s) : OutsideSif r (saveNoAnswer written s) := by
  unfold saveNoAnswer
  split
  · exact h
  · exact queueNotice_outside _ _ h

theorem cmdEventRead_state (n : Nat) (s : State) : (cmdEventRead n s).state = s := by
  unfold cmdEventRead
  split <;> rfl

theorem cmdTableRead_state (table first n : Nat) (s : State) : (cmdTableRead table first n s).state = s := by
  unfold cmdTableRead
  split <;> rfl

theorem cmdCounterRead_state (first n : Nat) (s : State) : (cmdCounterRead first n s).state = s := by
  unfold cmdCounterRead
  split <;> rfl

/-- Every command but COUNTER_CLEAR leaves SIF and its counters alone. -/
theorem perform_outside (c : Command) (centre : Nat) (tag : Byte) (hc : ∀ f n, c ≠ .counterClear f n)
    (h : OutsideSif r s) : OutsideSif r (perform c centre tag s).state := by
  cases c with
  | tableWrite t f n es => exact cmdTableWrite_outside t f n es h
  | tableRead t f n => exact (cmdTableRead_state t f n s).symm ▸ h
  | counterRead f n => exact (cmdCounterRead_state f n s).symm ▸ h
  | counterClear f n => exact absurd rfl (hc f n)
  | timeSet l f => exact cmdTimeSet_outside l f h
  | alertAck i => exact cmdAlertAck_outside i centre h
  | eventRead e => exact (cmdEventRead_state e s).symm ▸ h
  | hold e m => exact cmdHold_outside e m centre h
  | release e => exact cmdRelease_outside e centre h
  | waveRequest e o n => exact cmdWaveRequest_outside e o n centre tag h
  | waveCancel => exact cmdWaveCancel_outside centre h
  | loadTest l n => exact cmdLoadTest_outside l n h
  | save => exact cmdSave_outside centre h
  | emptyPayload | unknownKind _ | badLength _ | status | alertList | eventList | restart => exact h

/-- COUNTER_CLEAR changes the counters alone (R190). -/
theorem cmdCounterClear_orderly (first n : Nat) (h : Orderly r s) : Orderly r (cmdCounterClear first n s).state := by
  refine h.trans ?_
  unfold cmdCounterClear
  generalize clearCounters first n s.cnt = v
  split <;> exact ⟨id, id⟩

theorem perform_orderly (c : Command) (centre : Nat) (tag : Byte) (h : Orderly r s) :
    Orderly r (perform c centre tag s).state := by
  by_cases hc : ∃ f n, c = .counterClear f n
  · obtain ⟨f, n, rfl⟩ := hc
    rw [perform]
    exact cmdCounterClear_orderly f n h
  · exact h.trans (perform_outside c centre tag (fun f n e => hc ⟨f, n, e⟩) (.refl s)).orderly

/-- A reply fills a place that has been reserved (R126). -/
theorem fillReply_orderly (x : Reply) (h : Orderly r s) : Orderly r (fillReply x s) := by
  refine h.trans ⟨id, fun ⟨replies, notices, data⟩ => ⟨?_, notices, data⟩⟩
  unfold fillReply
  simp only [State.withLnk_lnk]
  split
  · simp
  · next p hp =>
    have := List.length_pos_of_mem (List.mem_of_getLast? hp)
    simp
    omega

/-- LNK's restart leaves the START notice alone in the queues (R138). -/
theorem lnkRestart_queues (straps : Byte) (s : State) :
    (lnkRestart straps s).lnk.replies = [] ∧ (lnkRestart straps s).lnk.dataQueue = [] ∧
      (lnkRestart straps s).lnk.notices.length = 1 := ⟨rfl, rfl, rfl⟩

/-- SIF's restart empties the strobe list, and the restarts after it leave it so (R12). -/
theorem warmRestart_strobes (straps : Byte) (s : State) : (warmRestart straps s).sif.strobes = [] := by
  have h := tmbRestart_outside (ldaRestart_outside.2 (.refl (detReset (sifRestart (wfsRestart (evuRestart s))))))
  exact congrArg Sif.strobes h.sif

/-- A warm restart empties the strobe list and LNK's queues (R12, R138). -/
theorem warmRestart_orderly (straps : Byte) (r s : State) : Orderly r (warmRestart straps s) := by
  have hs := warmRestart_strobes straps s
  unfold warmRestart at hs ⊢
  dsimp only at hs ⊢
  generalize tmbRestart (ldaRestart (detReset (sifRestart (wfsRestart (evuRestart s))))) = u at hs ⊢
  obtain ⟨replies, data, notices⟩ := lnkRestart_queues straps { u with cmd := { u.cmd with save := none } }
  exact .of_empty hs replies data (le_of_eq_of_le notices (by decide))

/-- CMD's execution of a command (R172, R182). -/
theorem execute_orderly (straps : Byte) (c : Command) (centre : Nat) (tag : Byte) (place : Bool) (h : Orderly r s) :
    Orderly r (execute straps c centre tag place s) := by
  have hp := perform_orderly c centre tag h
  have hc : Orderly r (countStatus (perform c centre tag s).status (perform c centre tag s).state) := by
    unfold countStatus
    split <;> exact count_orderly _ hp
  unfold execute
  dsimp only
  split
  · exact warmRestart_orderly straps r _
  · split
    · exact fillReply_orderly _ hc
    · exact hc

/-- A command from a centre: a place is reserved only while there is one (R126). -/
theorem takeCommand_orderly (straps centre tag : Byte) (broadcast : Bool) (c : Command) (h : Orderly r s) :
    Orderly r (takeCommand straps centre tag broadcast c s) := by
  unfold takeCommand
  split
  · exact count_orderly 25 h
  · split
    · split
      · exact execute_orderly straps c _ tag false h
      · exact count_orderly 23 h
    · split
      · exact count_orderly 24 h
      · next room =>
        refine execute_orderly straps c _ tag true (h.trans ⟨id, fun ⟨_, notices, data⟩ => ⟨?_, notices, data⟩⟩)
        simp [Config.replyLimit] at room ⊢
        omega

/-! ### The downstream line (section 7.6) -/

theorem setReceiver_orderly (x : Receiver) (h : Orderly r s) : Orderly r (setReceiver x s) := h.trans ⟨id, id⟩

theorem judgeFrame_orderly (straps : Byte) (bytes : List Byte) (h : Orderly r s) :
    Orderly r (judgeFrame straps bytes s) := by
  unfold judgeFrame
  dsimp only
  split
  · exact count_orderly 25 h
  · split
    · exact h
    · exact settle_orderly (takeCommand_orderly _ _ _ _ _ h)

theorem receiveInFrame_orderly (straps : Byte) (bytes : List Byte) (h : Orderly r s) :
    Orderly r (receiveInFrame straps bytes s) := by
  unfold receiveInFrame
  split
  · exact setReceiver_orderly _ h
  · exact count_orderly 25 (setReceiver_orderly _ h)
  · exact judgeFrame_orderly straps bytes (setReceiver_orderly _ h)

theorem loseInFrame_orderly (bytes : List Byte) (h : Orderly r s) : Orderly r (loseInFrame bytes s) := by
  unfold loseInFrame
  split <;> exact setReceiver_orderly _ h

theorem receiveByte_orderly (straps b : Byte) (h : Orderly r s) : Orderly r (receiveByte straps b s) := by
  unfold receiveByte
  split
  · exact setReceiver_orderly _ h
  · split <;> exact setReceiver_orderly _ h
  · exact receiveInFrame_orderly straps _ h
  · split <;> exact setReceiver_orderly _ h
  · exact loseInFrame_orderly _ h

theorem receiveTimeout_orderly (h : Orderly r s) : Orderly r (receiveTimeout s) := by
  unfold receiveTimeout
  split
  · exact h
  · split
    · exact count_orderly 25 (setReceiver_orderly _ h)
    · exact setReceiver_orderly _ h

theorem receiveBytes_orderly (straps : Byte) (bytes : List Byte) (h : Orderly r s) :
    Orderly r (receiveBytes straps bytes s) := by
  have hb : Orderly r (bytes.foldl (fun s b => receiveByte straps b s) (receiveTimeout s)) :=
    List.foldlRecOn bytes _ (receiveTimeout_orderly h) fun _ hs b _ => receiveByte_orderly straps b hs
  unfold receiveBytes
  dsimp only
  split
  · exact hb
  · exact hb.trans ⟨id, id⟩

/-! ### The transmitter, the scan and the supply -/

/-- The transmitter takes a frame without a change of the queues. -/
theorem startSending_orderly (f : UpFrame) (h : Orderly r s) : Orderly r (startSending f s) := h.trans ⟨id, id⟩

theorem sendAlert_orderly (x : AlertInstance) (s : State) : Orderly s (sendAlert x s) :=
  startSending_orderly _ (count_orderly 18 ⟨id, id⟩)

/-- The frame that LNK begins leaves its queue (R119, R120). -/
theorem beginFrame_orderly (h : Orderly r s) : Orderly r (beginFrame s) := by
  refine h.trans ?_
  unfold beginFrame
  split
  · next x _ => exact sendAlert_orderly x s
  · split
    · refine ⟨id, fun ⟨replies, notices, data⟩ => ⟨?_, notices, data⟩⟩
      simp [startSending]
      omega
    · split
      · next hn =>
        refine ⟨id, fun ⟨replies, notices, data⟩ => ⟨replies, ?_, data⟩⟩
        simp [startSending, hn] at notices ⊢
        omega
      · split
        · exact (advanceJob_outside (.refl s)).orderly.trans ⟨id, id⟩
        · split
          · next hd =>
            refine ⟨id, fun ⟨replies, notices, data⟩ => ⟨replies, notices, ?_⟩⟩
            simp [startSending, hd] at data ⊢
            omega
          · exact .refl s

theorem radioReady_outside (h : OutsideSif r s) : OutsideSif r (radioReady s) := h

theorem powerDown_orderly (supply : Supply) (disconnect : Bool) (r s : State) :
    Orderly r (powerDown supply disconnect s) := .of_empty rfl rfl rfl (Nat.zero_le _)

theorem coldStart_orderly (straps : Byte) (answers : Bool) (r s : State) : Orderly r (coldStart straps answers s) := by
  unfold coldStart
  split <;> exact .of_empty rfl rfl rfl (by simp [queueNotice, coldBlocks, Cold.lnk])

/-- A scan (R139), the power-down at CUTOFF included (R146). -/
theorem runScan_orderly (x : MonitorInputs) (h : Orderly r s) : Orderly r (runScan x s) := by
  unfold runScan scan
  dsimp only
  split
  · exact .of_empty rfl rfl rfl (Nat.zero_le _)
  · have hd : OutsideSif s (dueScan s) := (withBmn_outside _).2 (runToOsc_outside _ (.refl s))
    have hl := handTemps_outside (levelStage_outside (dueScan s).bmn.override (scanToCut_outside x hd))
    exact h.trans hl.orderly

/-! ### The forms of a step -/

section forms
variable {f : State → State} {t : State}

theorem stepOf_orderly (h : stepOf f s = .next t) (hf : ∀ u, Orderly u (f u)) : Orderly s t := by
  cases h
  split
  · exact settle_orderly (hf s)
  · exact .refl s

theorem stepWhen_orderly {due : State → Bool} (h : stepWhen due f s = .next t) (hf : ∀ u, Orderly u (f u)) :
    Orderly s t := by
  cases h
  split
  · exact settle_orderly (hf s)
  · exact .refl s

theorem stepIf_orderly {happens : State → State → Bool} (h : stepIf happens f s = .next t)
    (hf : ∀ u, Orderly u (f u)) : Orderly s t := by
  cases h
  split
  · exact settle_orderly (hf s)
  · exact .refl s

theorem stepAfter_orderly {after : Nat} (h : stepAfter after f s = .next t) (hf : ∀ u, Orderly u (f u)) : Orderly s t :=
  stepOf_orderly h fun u => ((passTime_outside after).2 (.refl u)).orderly.trans (hf (passTime after u))

end forms

theorem runStrobe_orderly (s : State) : Orderly s (runStrobe s) := by
  unfold runStrobe
  split
  · exact strobeInstant_orderly (runToStation_outside s.tmb.strobeNext (.refl s)).orderly
  · exact .refl s

theorem runSecond_orderly (s : State) : Orderly s (runSecond s) :=
  (secondBoundary_outside (runToStation_outside Config.second (.refl s))).orderly

theorem stepInstant_orderly {p : Instant → Bool} {via : InstantStep} {t : State}
    (h : stepInstant p via s = .next t) : Orderly s t := by
  refine stepWhen_orderly h fun u => ?_
  cases via with
  | strobe => exact runStrobe_orderly u
  | frame after bytes => exact digitizerFrame_orderly bytes ((passTime_outside after).2 (.refl u)).orderly

theorem stepTick_orderly {p : State → Bool} {t : State} (h : stepTick p s = .next t) : Orderly s t :=
  stepWhen_orderly h runSecond_orderly

theorem fromCentreWith_orderly {straps : Byte} {src : Sender} {c : Command} {t : State}
    (h : fromCentreWith straps src c s = .next t) : Orderly s t :=
  stepAfter_orderly h fun u => takeCommand_orderly _ _ _ _ _ (.refl u)

/-! ### Every command -/

/-- Every command keeps the strobe list in sequence and LNK's queues within their places. -/
theorem exec_orderly {c : Instr} {t : State} (h : exec c s = .next t) : Orderly s t := by
  cases c with
  | powerOn straps answers =>
    cases h
    exact settle_orderly (coldStart_orderly straps answers s s)
  | supplyLoss =>
    cases h
    exact powerDown_orderly .off _ s s
  | strobe => exact stepWhen_orderly h runStrobe_orderly
  | digitizerFrame after bytes => exact stepAfter_orderly h fun u => digitizerFrame_orderly bytes (.refl u)
  | warmUpComplete _ _ | forcedTriggerOff _ _ | blankingEnd _ _ | contributionEnd _ _ | forcedClosing _ | eventClose _
  | quietTailEnd _ | segmentComplete _ => exact stepInstant_orderly h
  | secondTick => exact stepOf_orderly h runSecond_orderly
  | holdExpiry _ | reCheckEnd _ | repeatDue _ | holdoverEntry | driftingEntry | restartAgeExpiry | gnssSettled
  | dutyRelease | refixRequest | refixBoundCrossed | listenPeriod | listenWindowEnd => exact stepTick_orderly h
  | timeMessage _ bytes => exact stepAfter_orderly h fun u => (timeMessage_outside bytes (.refl u)).orderly
  | ppsEdge _ => exact stepAfter_orderly h fun u => (ppsEdge_outside (.refl u)).orderly
  | frameBegin => exact stepWhen_orderly h fun u => beginFrame_orderly (.refl u)
  | transmissionComplete =>
    change execTransmissionComplete s = _ at h
    exact stepWhen_orderly h fun u => (completeTransmission_outside ((passTime_outside _).2 (.refl u))).orderly
  | warmUpExpiry =>
    change execWarmUpExpiry s = _ at h
    exact stepWhen_orderly h fun u => (radioReady_outside ((passTime_outside _).2 (.refl u))).orderly
  | lingerExpiry =>
    change execLingerExpiry s = _ at h
    exact stepWhen_orderly h fun u => (switchOff_outside 0 ((passTime_outside _).2 (.refl u))).orderly
  | downstreamFrame after bytes => exact stepAfter_orderly h fun u => receiveBytes_orderly _ bytes (.refl u)
  | receiveTimeout =>
    change execReceiveTimeout s = _ at h
    exact stepWhen_orderly h fun u => receiveTimeout_orderly ((passTime_outside _).2 (.refl u)).orderly
  | payloadLengthAbove96 after header =>
    change execPayloadLengthAbove96 after header s = _ at h
    exact stepWhen_orderly h fun u => receiveBytes_orderly _ _ ((passTime_outside _).2 (.refl u)).orderly
  | scan x => exact stepOf_orderly h fun u => runScan_orderly x (.refl u)
  | fullRecalibration x =>
    change execFullRecalibration x s = _ at h
    exact stepIf_orderly h fun u => runScan_orderly x (.refl u)
  | cutoff x =>
    change execCutoff x s = _ at h
    exact stepIf_orderly h fun u => runScan_orderly x (.refl u)
  | voltageOverride x =>
    change execVoltageOverride x s = _ at h
    exact stepWhen_orderly h fun u => runScan_orderly x (.refl u)
  | overrideRelease x =>
    change execOverrideRelease x s = _ at h
    exact stepWhen_orderly h fun u => runScan_orderly x (.refl u)
  | spacingExpiry =>
    change execSpacingExpiry s = _ at h
    exact stepWhen_orderly h fun u => (runToOsc_outside _ (.refl u)).orderly
  | inrushAgeExpiry =>
    change execInrushAgeExpiry s = _ at h
    exact stepWhen_orderly h fun u => (runToOsc_outside _ (.refl u)).orderly
  | inrushSuspensionEnd =>
    change execInrushSuspensionEnd s = _ at h
    exact stepWhen_orderly h fun u => (endSuspension_outside (runToOsc_outside _ (.refl u))).orderly
  | coldStartWaitEnd =>
    change execColdStartWaitEnd s = _ at h
    exact stepWhen_orderly h fun u => (endColdWait_outside (runToOsc_outside _ (.refl u))).orderly
  | burstEnd l =>
    change execBurstEnd l s = _ at h
    exact stepWhen_orderly h fun u => (switchOff_outside l ((passTime_outside _).2 (.refl u))).orderly
  | restEnd l =>
    change execRestEnd l s = _ at h
    exact stepWhen_orderly h fun u => ((endRest_outside l).2 ((passTime_outside _).2 (.refl u))).orderly
  | saveComplete _ bytes => exact stepAfter_orderly h fun u => (saveComplete_outside bytes (.refl u)).orderly
  | saveNoAnswer _ n => exact stepAfter_orderly h fun u => (saveNoAnswer_outside n (.refl u)).orderly
  | hold _ _ _ | release _ _ | waveRequest _ _ _ _ | waveCancel _ | alertAck _ _ | alertList _ | loadTest _ _ _
  | status _ | tableWriteStation _ _ _ _ | tableWriteChannel _ _ _ _ | tableWriteEvent _ _ _ _
  | tableWriteTime _ _ _ _ | tableWriteCorrection _ _ _ _ | tableWriteAlert _ _ _ _ | tableWriteLoad _ _ _ _
  | tableWriteZone _ _ _ _ | tableWriteBattery _ _ _ _ | tableWriteCountermask _ _ _ _ | tableRead _ _ _ _
  | counterRead _ _ _ | counterClear _ _ _ | timeSet _ _ _ | eventList _ | eventRead _ _ | save _ | restart _ =>
    exact fromCentreWith_orderly h

/-- The command at the front of the queue is taken from it and executed; with none the state stands. -/
theorem step_cases {s t : State} (h : step s = .next t) :
    t = s ∨ ∃ c rest, s.pending = c :: rest ∧ exec c { s with pending := rest } = .next t := by
  unfold step at h
  split at h
  · cases h
    exact .inl rfl
  · next c rest hp => exact .inr ⟨c, rest, hp, h⟩

theorem step_orderly {s t : State} (h : step s = .next t) : Orderly s t := by
  obtain e | ⟨c, rest, -, h⟩ := step_cases h
  · exact e ▸ .refl s
  · have hp : Orderly s { s with pending := rest } := ⟨id, id⟩
    exact hp.trans (exec_orderly h)

end Sys2Proof.Machine
end

section
/-! PROOF. O52: the strobe list and LNK's queues at every step. -/

namespace Sys2Proof.Machine

/-- Settles O52: every command's step is orderly (`exec_orderly`), and so is the taking of a command from the queue. -/
theorem stepKeepsStrobeListAndLinkQueues : Obligations.StepKeepsStrobeListAndLinkQueues :=
  ⟨fun _ _ inv seq h => (step_orderly h).strobes ⟨inv, seq⟩, fun _ _ hq h => (step_orderly h).queues hq⟩

end Sys2Proof.Machine
end

section
/-! PROOF. O59: the state after reset. -/

namespace Sys2Proof.Machine

/-- Every detector starts from zero averages (R61). -/
theorem reset_detectorRanges : DetectorRanges State.reset := by
  refine ⟨fun c => ?_, fun e he => by cases he⟩
  have h : State.reset.det.get c = Cold.detector true := Six.get_fill _ c
  rw [h]
  decide

/-- No record and no hold stands after reset (R79, R97). -/
theorem reset_eventInv : EventInv State.reset where
  records := by decide
  numbers := .nil
  next := by intro r hr; cases hr
  range := by decide
  open_ := by intro r hr; cases hr
  current := by intro n hn; cases hn
  idle := by decide
  holds := by decide
  held := by intro h hh; cases hh
  one := .nil

/-- Every segment is FREE after reset (R97). -/
theorem reset_segment_free {x : Segment} (hx : x ∈ State.reset.wfs.segments) : x.state = .free := by
  rw [List.eq_of_mem_replicate hx]
  rfl

theorem reset_segmentInv : SegmentInv State.reset where
  total := List.length_replicate
  kept := by
    have h : State.reset.wfs.segments.filter (·.state == .kept) = [] :=
      List.filter_eq_nil_iff.mpr fun x hx => by simp [reset_segment_free hx]
    simp [keptCount, h]
  owned x hx h := by simp [reset_segment_free hx] at h
  counted r hr := by cases hr
  writing i x hx := by
    have hf := reset_segment_free (List.mem_of_getElem? hx)
    simp [hf, State.reset, Cold.wfs]
  writer i hi := by cases hi
  claimed n hn := by cases hn

theorem reset_stationClassInv : StationClassInv State.reset.alu := fun cls _ =>
  ⟨Nat.zero_le 1, fun _ x hx => by cases hx⟩

/-- No load is ON after reset: L0 is REQUESTED and the others are OFF (R170, R137). -/
theorem reset_load_not_on (l : Fin 8) : (State.reset.lda.loads.get l).state ≠ .on := by
  revert l
  decide

/-- No zone is critical before the first hand-over (R170). -/
theorem reset_criticalInv : CriticalInv State.reset := fun z hz => by
  have h : State.reset.hzc.zones.get z = ⟨none, false, false, false⟩ := Six.get_fill _ z
  simp [h] at hz

/-- The correction entries are EMPTY after reset (R185). -/
theorem reset_armedAhead : ArmedAhead State.reset := by
  unfold ArmedAhead
  decide

/-- Settles O59: each block's start values meet its invariant. -/
theorem resetMeetsEveryInvariant : Obligations.ResetMeetsEveryInvariant :=
  ⟨⟨by decide, fun _ he => by cases he⟩, fun i hi => absurd hi (Nat.not_lt_zero i), reset_detectorRanges,
    ⟨by decide, by decide⟩, reset_eventInv, reset_segmentInv,
    ⟨by decide, .nil, .nil, fun _ hx => (List.not_mem_nil hx).elim, by decide⟩, reset_stationClassInv,
    ⟨by decide, by decide, by decide⟩, ⟨by decide, by decide⟩, ⟨by decide, fun _ hw => by cases hw⟩,
    fun l hl => absurd hl (reset_load_not_on l), reset_criticalInv, fun _ hl => (List.not_mem_nil hl).elim, reset_armedAhead⟩

end Sys2Proof.Machine
end

section
/-!
SUPPORT. What the leaving of an entry counts and reports (R5 to R9): SIF's counters and the condition A6 after an entry is
declared missing or delivered, and after a delivery from the front.
-/

namespace Sys2Proof.Machine

variable {r s : State}

/-! ### SIF's counters and A6's condition -/

theorem reportCondition_counter (cls : Fin 8) (value : Bool) (p : AlertPayload) (s : State) (k : Fin 40)
    (hk : k.val < 7) : (reportCondition cls value p s).cnt[k] = s.cnt[k] :=
  (reportCondition_outside_noted cls value p s).counter k hk

/-- A report of A6 leaves the condition recorded (R99). -/
theorem reportCondition_a6 (value : Bool) (p : AlertPayload) (s : State) :
    (reportCondition 6 value p s).alu.conds.get 6 = ⟨value, some p⟩ := by
  rw [(reportCondition_outside_noted 6 value p s).condition]
  simp [conditionNoted, Eight.get_set]

theorem onsetA6_counter (cause : DigitizerCause) (s : State) (k : Fin 40) (hk : k.val < 7) :
    (onsetA6 cause s).cnt[k] = s.cnt[k] := reportCondition_counter 6 true _ _ k hk

theorem onsetA6_condition (cause : DigitizerCause) (s : State) :
    (onsetA6 cause s).alu.conds.get 6 = ⟨true, some (.digitizer cause s.sif.missingRun)⟩ := reportCondition_a6 true _ _

theorem clearA6_counter (s : State) (k : Fin 40) (hk : k.val < 7) : (clearA6 s).cnt[k] = s.cnt[k] := by
  unfold clearA6
  split
  · exact reportCondition_counter 6 false _ _ k hk
  · rfl

/-- The gap reset is signalled now (R8): the run reaches it, the first time in it. -/
def gapNow (s : State) (run : Nat) : Bool := gapReached s run && !s.sif.gapSignalled

theorem judgeGap_of_gap (t : Time) (h : gapNow s s.sif.missingRun = true) :
    judgeGap t s = onsetA6 .gap (gapResetDetectors t (s.withSif fun f => { f with gapSignalled := true })) := by
  obtain ⟨-, e⟩ | ⟨h', -⟩ := judgeGap_cases t s
  · exact e
  · simp [gapNow, h'] at h

theorem judgeGap_of_no_gap (t : Time) (h : gapNow s s.sif.missingRun = false) : judgeGap t s = s := by
  obtain ⟨h', -⟩ | ⟨-, e⟩ := judgeGap_cases t s
  · simp [gapNow, h'] at h
  · exact e

theorem judgeGap_counter (t : Time) (s : State) (k : Fin 40) (hk : k.val < 7) : (judgeGap t s).cnt[k] = s.cnt[k] := by
  cases h : gapNow s s.sif.missingRun
  · rw [judgeGap_of_no_gap t h]
  · rw [judgeGap_of_gap t h, onsetA6_counter _ _ k hk]
    exact (gapResetDetectors_outside t (.refl _)).counter k hk

/-- A gap reset leaves A6 true with cause GAP (R8, R9). -/
theorem judgeGap_condition (t : Time) (h : gapNow s s.sif.missingRun = true) :
    (judgeGap t s).alu.conds.get 6 = ⟨true, some (.digitizer .gap s.sif.missingRun)⟩ := by
  rw [judgeGap_of_gap t h, onsetA6_condition, gapResetDetectors_sif]
  rfl

theorem handMissing_outside (st : Stamp) (s : State) : OutsideSif s (handMissing st s) :=
  packMissing_outside (sampleInstant_outside st none (.refl s))

/-- A missing entry counts in K4 (R7). -/
theorem declareMissing_counter (e : Strobe) (s : State) (k : Fin 40) (hk : k.val < 7) :
    (declareMissing e s).cnt[k] = (count 4 s).cnt[k] := by
  rw [declareMissing_eq, judgeGap_counter _ _ k hk, (handMissing_outside _ _).counter k hk]
  rfl

theorem usableNoted_counter (d : Delivered) (s : State) (k : Fin 40) (hk : k.val < 7) :
    (usableNoted d s).cnt[k] = (countTimes (clipCount d.clips) 6 s).cnt[k] := by
  rw [usableNoted, clearA6_counter _ k hk, State.withSif_cnt]

theorem faultNoted_counter (s : State) (k : Fin 40) (hk : k.val < 7) :
    (faultNoted s).cnt[k] = (count 5 (count 4 s)).cnt[k] := by
  rw [faultNoted, onsetA6_counter _ _ k hk, lengthenRun, State.withSif_cnt]

/-- A usable frame counts in K0, and in K6 for each clip flag (R5). -/
theorem deliver_counter_of_good {f : DigFrame} (hf : f.fault = false) (e : Strobe) (s : State) (k : Fin 40)
    (hk : k.val < 7) :
    (deliver e f s).cnt[k] =
      if k = 0 then s.cnt[k] + 1 else if k = 6 then s.cnt[k] + BitVec.ofNat 32 (clipCount f.clips) else s.cnt[k] := by
  have ho := packFrame_outside (deliveredOf s.sif.stepCarry e f) (writeFrame_outside (deliveredOf s.sif.stepCarry e f)
    (sampleInstant_outside ⟨e.time, e.tq⟩ (some (f.samples, f.clips))
      (.refl (usableNoted (deliveredOf s.sif.stepCarry e f) (acceptedNoted e s)))))
  rw [deliver_of_good hf]
  refine (ho.counter k hk).trans ?_
  rw [usableNoted_counter _ _ k hk, countTimes_getElem, acceptedNoted, State.withSif_cnt, count_getElem, count_getElem]
  by_cases h0 : k = 0
  · simp [h0]
  · by_cases h6 : k = 6
    · simp [h6]
      rfl
    · simp [h0, h6, Ne.symm h0, Ne.symm h6]

/-- A fault-flagged frame counts in K0, K4 and K5 (R6). -/
theorem deliver_counter_of_fault {f : DigFrame} (hf : f.fault = true) (e : Strobe) (s : State) (k : Fin 40)
    (hk : k.val < 7) :
    (deliver e f s).cnt[k] = if k = 0 ∨ k = 4 ∨ k = 5 then s.cnt[k] + 1 else s.cnt[k] := by
  have ho := packMissing_outside (writeFrame_outside (deliveredOf s.sif.stepCarry e f)
    (sampleInstant_outside ⟨e.time, e.tq⟩ none (.refl (faultNoted (acceptedNoted e s)))))
  rw [deliver_of_fault hf]
  refine (judgeGap_counter _ _ k hk).trans ((ho.counter k hk).trans ?_)
  rw [faultNoted_counter _ k hk, acceptedNoted]
  simp only [count_getElem, State.withSif_cnt]
  by_cases h0 : k = 0
  · simp [h0]
  · by_cases h4 : k = 4
    · simp [h4]
    · by_cases h5 : k = 5
      · simp [h5]
      · simp [h0, h4, h5, Ne.symm h0, Ne.symm h4, Ne.symm h5]

/-- K0 counts every delivery, K4 and K5 the fault-flagged ones. -/
theorem deliver_counters (e : Strobe) (f : DigFrame) (s : State) :
    (deliver e f s).cnt[0] = s.cnt[0] + 1 ∧
      (deliver e f s).cnt[4] = s.cnt[4] + (if f.fault then 1 else 0) ∧
      (deliver e f s).cnt[5] = s.cnt[5] + (if f.fault then 1 else 0) := by
  cases hf : f.fault
  · have h := deliver_counter_of_good hf e s
    exact ⟨h 0 (by decide), by simpa using h 4 (by decide), by simpa using h 5 (by decide)⟩
  · have h := deliver_counter_of_fault hf e s
    exact ⟨h 0 (by decide), h 4 (by decide), h 5 (by decide)⟩

theorem faultNoted_condition (s : State) :
    (faultNoted s).alu.conds.get 6 = ⟨true, some (.digitizer .fault (longerRun s))⟩ := by
  have hr : (lengthenRun (count 5 (count 4 s))).sif.missingRun = longerRun s := by
    rw [lengthenRun, State.withSif_sif, count_sif, count_sif]
    rfl
  rw [faultNoted, onsetA6_condition, hr]

/-- The state that R8's comparison of a missing entry finds. -/
theorem handMissing_run (e : Strobe) (s : State) :
    (handMissing ⟨e.time, e.tq⟩ (missingNoted e s)).sif.missingRun = longerRun s := by
  rw [handMissing_sif, missingNoted_sif]

theorem handMissing_gapNow (e : Strobe) (h : gapNow s (longerRun s) = true) :
    gapNow (handMissing ⟨e.time, e.tq⟩ (missingNoted e s))
      (handMissing ⟨e.time, e.tq⟩ (missingNoted e s)).sif.missingRun = true := by
  have hi := (missingNoted_instants e s).trans (handMissing_instants ⟨e.time, e.tq⟩ (missingNoted e s))
  rwa [handMissing_run, gapNow, hi.gapReached, handMissing_sif, missingNoted_sif]

/-- Gap reset by a missing entry leaves A6 true with cause GAP and the run (R8, R9). -/
theorem declareMissing_condition (e : Strobe) (h : gapNow s (longerRun s) = true) :
    (declareMissing e s).alu.conds.get 6 = ⟨true, some (.digitizer .gap (longerRun s))⟩ := by
  rw [declareMissing_eq, judgeGap_condition _ (handMissing_gapNow e h), handMissing_run]

/-- A fault-flagged frame leaves A6 true, with cause GAP where its run reaches the gap reset and FAULT otherwise (R6, R8;
log entry 8). -/
theorem deliver_condition_of_fault {f : DigFrame} (hf : f.fault = true) (e : Strobe) (s : State) :
    (deliver e f s).alu.conds.get 6 =
      ⟨true, some (.digitizer (if gapNow s (longerRun s) then .gap else .fault) (longerRun s))⟩ := by
  have ho := packMissing_outside (writeFrame_outside (deliveredOf s.sif.stepCarry e f)
    (sampleInstant_outside ⟨e.time, e.tq⟩ none (.refl (faultNoted (acceptedNoted e s)))))
  have hi := ((acceptedNoted_instants e s).trans (faultNoted_instants _)).trans
    ((written_instants (deliveredOf s.sif.stepCarry e f) ⟨e.time, e.tq⟩ none _).trans (packMissing_packs _).instants)
  rw [deliver_of_fault hf]
  dsimp only at ho hi ⊢
  generalize packMissing _ = u at ho hi ⊢
  have hl : longerRun (acceptedNoted e s) = longerRun s := by rw [longerRun, acceptedNoted_sif]; rfl
  have hr : u.sif.missingRun = longerRun s := by rw [ho.sif, faultNoted_sif, hl]
  have hg : gapNow u (longerRun s) = gapNow s (longerRun s) := by
    rw [gapNow, gapNow, hi.gapReached, ho.sif, faultNoted_sif, acceptedNoted_sif]
  cases h : gapNow s (longerRun s)
  · rw [judgeGap_of_no_gap _ (by rw [hr, hg, h]), ho.condition, faultNoted_condition, hl]
    rfl
  · rw [judgeGap_condition _ (by rw [hr, hg, h]), hr]
    rfl

/-! ### A delivery from the front -/

/-- The leading entries of a list that hold their frames. -/
abbrev readyOf (l : List Strobe) : List Strobe := l.takeWhile fun x => x.frame.isSome

/-- Those whose frame is fault-flagged. -/
abbrev faultyOf (l : List Strobe) : List Strobe := l.filter fun x => (x.frame.map (·.fault)).getD false

/-- One more count of `n` further ones. -/
theorem add_one_add_ofNat (x : BitVec 32) (n : Nat) : x + 1 + BitVec.ofNat 32 n = x + BitVec.ofNat 32 (n + 1) := by
  rw [BitVec.ofNat_add, BitVec.add_assoc, BitVec.add_comm 1]
  rfl

/-- A delivery from the front counts each of the leading frames, and the last of them is the last accepted one. -/
theorem deliverFront_counts {l : List Strobe} {n : Nat} {s : State} (hs : s.sif.strobes = l) (hn : l.length ≤ n) :
    (deliverFront n s).sif.lastAccepted = ((readyOf l).getLast?.map (·.seq)).or s.sif.lastAccepted ∧
      (deliverFront n s).cnt[0] = s.cnt[0] + BitVec.ofNat 32 (readyOf l).length ∧
      (deliverFront n s).cnt[4] = s.cnt[4] + BitVec.ofNat 32 (faultyOf (readyOf l)).length ∧
      (deliverFront n s).cnt[5] = s.cnt[5] + BitVec.ofNat 32 (faultyOf (readyOf l)).length := by
  induction l generalizing n s with
  | nil => simp [deliverFront_of_nil n hs]
  | cons e rest ih =>
    cases he : e.frame with
    | none => simp [deliverFront_of_frameless n hs he, he]
    | some f =>
      obtain ⟨n, rfl⟩ := Nat.exists_eq_add_one_of_ne_zero (Nat.ne_of_gt ((Nat.succ_pos _).trans_le hn))
      obtain ⟨hl, -, -, ha⟩ := deliver_list e f (withStrobes rest s)
      obtain ⟨c0, c4, c5⟩ := deliver_counters e f (withStrobes rest s)
      obtain ⟨ia, i0, i4, i5⟩ := ih hl (Nat.le_of_succ_le_succ hn)
      rw [deliverFront_of_frame n hs he, ia, i0, i4, i5, c0, c4, c5, ha]
      have hr : readyOf (e :: rest) = e :: readyOf rest := by simp [he]
      have hw : (withStrobes rest s).cnt = s.cnt := rfl
      rw [hr, hw, List.getLast?_cons]
      refine ⟨?_, ?_, ?_, ?_⟩
      · cases (readyOf rest).getLast? <;> rfl
      · exact add_one_add_ofNat _ _
      all_goals
        cases hf : f.fault
        · simp [faultyOf, he, hf]
        · have hy : faultyOf (e :: readyOf rest) = e :: faultyOf (readyOf rest) := by simp [he, hf]
          rw [hy]
          exact add_one_add_ofNat _ _

end Sys2Proof.Machine
end

section
/-!
SUPPORT. What a sample instant makes of the detectors, EVU's trigger marks and the waveform store (R41, R54, R55, R63,
R82), as far as SIF's laws speak of them.
-/

namespace Sys2Proof.Machine

variable {r s : State}

/-! ### The detectors -/

theorem countTriggerOn_alerts (x : DetResult) (c : Fin 6) (s : State) : Alerts s (countTriggerOn x c s) := by
  unfold countTriggerOn
  split
  · exact count_alerts _ s
  · exact .refl s

/-- The counts of the trigger-ons change no block that the batch reads. -/
theorem bankWork_alerts (item : SampleItem) (s : State) :
    Alerts { s with det := (bankInstant item s).map (·.det) } (bankWork item s) := by
  unfold bankWork
  exact fold_keeps Alerts.refl Alerts.trans (fun u c => countTriggerOn_alerts _ c u) channels _

/-- A detector after an instant, but for its blank remaining (R41). -/
theorem sampleInstant_det (st : Stamp) (item : SampleItem) (s : State) (c : Fin 6) :
    ((sampleInstant st item s).det.get c).unblanked = ((bankInstant item s).get c).det.unblanked := by
  obtain ⟨a, n, q, hb⟩ := bankWork_alerts item s
  obtain ⟨e, w, a', n', q', he⟩ := evuBatch_events (bankBatch st item s) (bankWork item s)
  have h : (evuBatch (bankBatch st item s) (bankWork item s)).det.get c = ((bankInstant item s).get c).det := by
    rw [he, hb]
    exact Six.get_map _ _ c
  rw [sampleInstant, decreaseBlanks, Six.get_map, h]
  rfl

/-- At a missing instant a detector's averages stand (R54). -/
theorem detectorInstant_missing_averages (e : ChannelEntry) (rate : Nat) (d : Detector) :
    (detectorInstant e rate none d).det.baseline = d.baseline ∧ (detectorInstant e rate none d).det.sta = d.sta ∧
      (detectorInstant e rate none d).det.lta = d.lta ∧ (detectorInstant e rate none d).det.awaiting = d.awaiting := by
  unfold detectorInstant
  dsimp only
  repeat' split
  all_goals exact ⟨rfl, rfl, rfl, rfl⟩

/-- A missing instant turns no detector OFF and none on. -/
theorem detectorInstant_missing_off (e : ChannelEntry) (rate : Nat) (d : Detector) :
    (detectorInstant e rate none d).det.state = .off ↔ d.state = .off := by
  unfold detectorInstant
  dsimp only
  repeat' split
  all_goals simp_all

/-- A TRIGGERED detector stays so at a missing instant, or reports its forced trigger-off (R50, R54). -/
theorem detectorInstant_missing_triggered (e : ChannelEntry) (rate : Nat) {d : Detector} (h : d.state = .triggered) :
    (detectorInstant e rate none d).det.state = .triggered ∧ (detectorInstant e rate none d).change = none ∨
      (detectorInstant e rate none d).change = some false := by
  unfold detectorInstant
  dsimp only
  repeat' split
  all_goals simp_all

theorem bankInstant_get (item : SampleItem) (s : State) (c : Fin 6) :
    (bankInstant item s).get c =
      detectorInstant (s.tables.channel.get c) s.sif.rate (item.map fun i => (i.1.get c, i.2.get c)) (s.det.get c) :=
  Six.get_ofFn _ c

/-! ### EVU's trigger marks and the waveform store -/

/-- `s` has `r`'s trigger marks and waveform store. -/
def Calm (r s : State) : Prop := s.evu.triggered = r.evu.triggered ∧ s.wfs = r.wfs

theorem Calm.refl (s : State) : Calm s s := ⟨rfl, rfl⟩

theorem Calm.alerts {t : State} (h : Calm r s) (ha : Alerts s t) : Calm r t := by
  obtain ⟨a, c, q, rfl⟩ := ha
  exact h

@[simp] theorem raiseEvent_calm (cls : Fin 8) (p : AlertPayload) (h : Calm r s) : Calm r (raiseEvent cls p s) :=
  h.alerts (raiseEvent_alerts cls p s)

@[simp] theorem updateRecord_calm (n : Nat) (f : EventRecord → EventRecord) : Calm r (updateRecord n f s) ↔ Calm r s := .rfl

@[simp] theorem updateCurrent_calm (f : EventRecord → EventRecord) (h : Calm r s) : Calm r (updateCurrent f s) := by
  unfold updateCurrent
  split <;> simp [h]

@[simp] theorem withEvu_calm (f : Evu → Evu) (hf : (f s.evu).triggered = s.evu.triggered) :
    Calm r (s.withEvu f) ↔ Calm r s := by
  simp [Calm, hf]

@[simp] theorem endContributions_calm : Calm r (endContributions s) ↔ Calm r s := .rfl

@[simp] theorem evaluateOpen_calm (h : Calm r s) : Calm r (evaluateOpen s) := by
  unfold evaluateOpen
  split <;> simp [h]

@[simp] theorem closeRecord_calm (st : Stamp) (f : EndReason → EndReason) (h : Calm r s) : Calm r (closeRecord st f s) := by
  unfold closeRecord
  dsimp only
  repeat' split
  all_goals simp [h]

@[simp] theorem closeEvent_calm (st : Stamp) (h : Calm r s) : Calm r (closeEvent st s) :=
  closeRecord_calm _ _ ((withEvu_calm _ rfl).2 h)

@[simp] theorem forceClosing_calm (h : Calm r s) : Calm r (forceClosing s) :=
  (updateCurrent_calm _ ((withEvu_calm _ rfl).2 h)).alerts (count_alerts 14 _)

@[simp] theorem takeMagnitude_calm (c : Fin 6) (m : Nat) (t : Time) (h : Calm r s) : Calm r (takeMagnitude c m t s) := by
  unfold takeMagnitude
  split <;> simp [h]

@[simp] theorem takeCrossing_calm (c : Fin 6) (m : Nat) (t : Time) (h : Calm r s) : Calm r (takeCrossing c m t s) := by
  unfold takeCrossing
  repeat' split
  all_goals simp [h]

@[simp] theorem takeReport_calm (b : Batch) (c : Fin 6) (h : Calm r s) : Calm r (takeReport b c s) := by
  unfold takeReport
  dsimp only
  repeat' split
  all_goals simp [h]

@[simp] theorem flagDegraded_calm (b : Batch) (h : Calm r s) : Calm r (flagDegraded b s) := by
  unfold flagDegraded
  split <;> simp [h]

@[simp] theorem advanceAge_calm (fresh : Bool) (h : Calm r s) : Calm r (advanceAge fresh s) := by
  unfold advanceAge
  dsimp only
  repeat' split
  all_goals simp [h]

@[simp] theorem advancePost_calm (fresh : Bool) (st : Stamp) (h : Calm r s) : Calm r (advancePost fresh st s) := by
  unfold advancePost
  dsimp only
  repeat' split
  all_goals simp [h]

@[simp] theorem advanceTail_calm (fresh : Bool) (h : Calm r s) : Calm r (advanceTail fresh s) := by
  unfold advanceTail
  repeat' split
  all_goals simp [h]

/-- Step 4 of a batch (R63), as a batch comes to it. -/
def phaseJudged (b : Batch) (s : State) : State := evaluatePhase b.stamp (endContributions (batchChanges b s))

/-- Step 5 of a batch leaves the trigger marks and the waveform store alone. -/
theorem evuBatch_calm (b : Batch) (s : State) : Calm (phaseJudged b s) (evuBatch b s) := by
  have h5 := flagDegraded_calm b
    (List.foldlRecOn channels (fun s c => takeReport b c s) (.refl (phaseJudged b s)) fun _ hs c _ => takeReport_calm b c hs)
  exact advanceTail_calm _ (advancePost_calm _ _ (advanceAge_calm _ h5))

/-! ### A declaration keeps the trigger marks -/

/-- `t` is `s` but for the Event Table, WFS, ALU, the counters and the notice queue. -/
def Stores (s t : State) : Prop :=
  ∃ l w a c q,
    t = { s with evu := { s.evu with table := l }, wfs := w, alu := a, cnt := c, lnk := { s.lnk with notices := q } }

theorem Stores.refl (s : State) : Stores s s := ⟨_, _, _, _, _, rfl⟩

theorem Stores.trans {s t u : State} (h : Stores s t) (h' : Stores t u) : Stores s u := by
  obtain ⟨l, w, a, c, q, rfl⟩ := h
  obtain ⟨l', w', a', c', q', rfl⟩ := h'
  exact ⟨l', w', a', c', q', rfl⟩

theorem Stores.triggered {s t : State} (h : Stores s t) : t.evu.triggered = s.evu.triggered := by
  obtain ⟨l, w, a, c, q, rfl⟩ := h
  rfl

theorem Alerts.stores {s t : State} (h : Alerts s t) : Stores s t := by
  obtain ⟨a, c, q, rfl⟩ := h
  exact ⟨_, _, a, c, q, rfl⟩

theorem withWfs_stores (f : Wfs → Wfs) (s : State) : Stores s (s.withWfs f) := ⟨_, _, _, _, _, rfl⟩

theorem updateRecord_stores (n : Nat) (f : EventRecord → EventRecord) (s : State) : Stores s (updateRecord n f s) :=
  ⟨_, _, _, _, _, rfl⟩

theorem updateWave_stores (n : Nat) (f : Waveform → Waveform) (s : State) : Stores s (updateWave n f s) :=
  updateRecord_stores n _ s

theorem cancelJobOn_stores (n : Nat) (c : CancelCause) (s : State) : Stores s (cancelJobOn n c s) := by
  have h : Stores s (cancelJob c s) := by
    unfold cancelJob
    split
    · exact .refl s
    · exact (withWfs_stores _ s).trans (queueNotice_alerts _ _ _).stores
  unfold cancelJobOn
  split
  · exact .refl s
  · split
    · exact h
    · exact .refl s

theorem releaseWave_stores (n : Nat) (s : State) : Stores s (releaseWave n s) :=
  ((withWfs_stores _ s).trans (updateRecord_stores _ _ _)).trans (cancelJobOn_stores _ _ _)

theorem markKept_stores (i n : Nat) (s : State) : Stores s (markKept i n s) :=
  (withWfs_stores _ s).trans (updateRecord_stores _ _ _)

theorem markPartial_stores (i n : Nat) (s : State) : Stores s (markPartial i n s) :=
  (((withWfs_stores _ s).trans (updateRecord_stores _ _ _)).trans (withWfs_stores _ _)).trans (count_alerts 15 _).stores

theorem keepSegment_stores (i n : Nat) (s : State) : Stores s (keepSegment i n s) := by
  unfold keepSegment
  split
  · exact markKept_stores i n s
  · split
    · exact (((releaseWave_stores _ s).trans (updateRecord_stores _ _ _)).trans (count_alerts 16 _).stores).trans
        (markKept_stores _ _ _)
    · exact markPartial_stores i n s

theorem keepEach_stores (n : Nat) (l : List Nat) (s : State) : Stores s (keepEach n l s) := by
  induction l generalizing s with
  | nil => exact .refl s
  | cons i l ih =>
    unfold keepEach
    dsimp only
    split
    · exact (keepSegment_stores i n s).trans (ih _)
    · exact keepSegment_stores i n s

theorem keepPreEvent_stores (n : Nat) (t : Time) (s : State) : Stores s (keepPreEvent n t s) := by
  have h := (updateWave_stores n (fun _ => ⟨none, 0, .kept⟩) s).trans
    (withWfs_stores (fun w => { w with claim := some n }) _)
  unfold keepPreEvent
  dsimp only
  repeat' split
  · exact h
  · exact h.trans (keepEach_stores _ _ _)
  · exact h
  · exact h.trans (keepEach_stores _ _ _)

theorem removeOldest_stores (s : State) : Stores s (removeOldest s) := by
  unfold removeOldest
  split
  · exact .refl s
  · exact (releaseWave_stores _ s).trans ⟨_, _, _, _, _, rfl⟩

theorem declareEvent_triggered (st : Stamp) (s : State) : (declareEvent st s).evu.triggered = s.evu.triggered := by
  have h : Stores s (if Config.recordLimit ≤ s.evu.table.length then removeOldest s else s) := by
    split
    · exact removeOldest_stores s
    · exact .refl s
  unfold declareEvent
  dsimp only
  generalize (if Config.recordLimit ≤ s.evu.table.length then removeOldest s else s) = u at h ⊢
  rw [((count_alerts 13 _).stores.trans (raiseEvent_alerts 0 _ _).stores).triggered, (keepPreEvent_stores _ _ _).triggered]
  exact h.triggered

theorem evaluatePhase_triggered (st : Stamp) (s : State) : (evaluatePhase st s).evu.triggered = s.evu.triggered := by
  unfold evaluatePhase
  split
  · split
    · exact declareEvent_triggered st s
    · rfl
  · exact (evaluateOpen_calm (.refl s)).1
  · rfl

/-! ### The trigger marks after a batch (R64) -/

theorem updateCurrent_triggered (f : EventRecord → EventRecord) (s : State) :
    (updateCurrent f s).evu.triggered = s.evu.triggered := (updateCurrent_calm f (.refl s)).1

theorem takeTriggerOn_triggered (c : Fin 6) (st : Stamp) (s : State) :
    (takeTriggerOn c st s).evu.triggered = s.evu.triggered.set c true := by
  unfold takeTriggerOn
  dsimp only
  rw [updateCurrent_triggered]
  split_ifs
  · rw [updateCurrent_triggered]
    rfl
  · rfl

theorem takeTriggerOff_triggered (c : Fin 6) (t : Time) (s : State) :
    (takeTriggerOff c t s).evu.triggered = s.evu.triggered.set c false := by
  rw [takeTriggerOff, updateCurrent_triggered]
  rfl

/-- A trigger change sets its channel's mark. -/
theorem takeChange_triggered (b : Batch) (c j : Fin 6) (s : State) :
    (takeChange b c s).evu.triggered.get j =
      if j = c then (b.changes.get c).getD (s.evu.triggered.get c) else s.evu.triggered.get j := by
  unfold takeChange
  split
  · next h =>
    rw [h]
    split
    · next hj => rw [hj, Option.getD_none]
    · rfl
  · next h => rw [h, takeTriggerOn_triggered, Six.get_set, Option.getD_some]
  · next h => rw [h, takeTriggerOff_triggered, Six.get_set, Option.getD_some]

theorem takeChanges_triggered (b : Batch) (l : List (Fin 6)) (j : Fin 6) (s : State) :
    (l.foldl (fun s c => takeChange b c s) s).evu.triggered.get j =
      if j ∈ l then (b.changes.get j).getD (s.evu.triggered.get j) else s.evu.triggered.get j := by
  induction l generalizing s with
  | nil => simp
  | cons c l ih =>
    rw [List.foldl_cons, ih, takeChange_triggered]
    by_cases h : j = c
    · subst h
      cases b.changes.get j <;> simp
    · simp [h]

/-- After a batch each channel is marked as its last change says (R64). -/
theorem evuBatch_triggered (b : Batch) (s : State) (j : Fin 6) :
    (evuBatch b s).evu.triggered.get j = (b.changes.get j).getD (s.evu.triggered.get j) := by
  have hj : j ∈ channels := by revert j; decide
  rw [(evuBatch_calm b s).1, phaseJudged, evaluatePhase_triggered]
  have h := takeChanges_triggered b channels j (advanceWindows s)
  rw [if_pos hj] at h
  exact h

end Sys2Proof.Machine
end

section
/-!
SUPPORT. An instant at which no event is declared leaves the waveform store alone but for its frame (R67, R82), and a
gap reset re-warms the detectors (R55).
-/

namespace Sys2Proof.Machine

variable {r s : State}

/-! ### The vote without a trigger-on (R65, R67) -/

/-- The weight of a contribution; 0 of none. -/
def weightOf (k : Option Contribution) : Nat := (k.map (·.weight)).getD 0

theorem weightSum_eq (l : Six (Option Contribution)) : weightSum l = (l.toList.map weightOf).sum := by
  have h : ∀ k : Option Contribution, (match k with | none => 0 | some k => k.weight) = weightOf k := by
    rintro (_ | _) <;> rfl
  exact congrArg List.sum (List.map_congr_left fun k _ => h k)

theorem weightSum_mono {v w : Six (Option Contribution)} (h : ∀ c, weightOf (v.get c) ≤ weightOf (w.get c)) :
    weightSum v ≤ weightSum w := by
  have := h 0
  have := h 1
  have := h 2
  have := h 3
  have := h 4
  have := h 5
  simp only [Six.get] at *
  simp only [weightSum_eq, Six.toList, List.map_cons, List.map_nil, List.sum_cons, List.sum_nil]
  omega

/-- A change of the current record changes the Event Table alone. -/
theorem updateCurrent_eq (f : EventRecord → EventRecord) (s : State) :
    ∃ l, updateCurrent f s = { s with evu := { s.evu with table := l } } := by
  unfold updateCurrent
  split
  · exact ⟨_, rfl⟩
  · exact ⟨_, rfl⟩

theorem takeTriggerOff_evu (c : Fin 6) (t : Time) (s : State) :
    (takeTriggerOff c t s).evu.phase = s.evu.phase ∧
      (takeTriggerOff c t s).evu.contrib =
        s.evu.contrib.set c ((s.evu.contrib.get c).map fun k => { k with lastOff := some t }) := by
  obtain ⟨l, h⟩ := updateCurrent_eq (fun r => { r with contributors := offContributors c t r.contributors })
    (s.withEvu fun e =>
      { e with
        triggered := e.triggered.set c false
        contrib := e.contrib.set c ((e.contrib.get c).map fun k => { k with lastOff := some t }) })
  rw [takeTriggerOff, h]
  exact ⟨rfl, rfl⟩

theorem updateCurrent_phase (f : EventRecord → EventRecord) (s : State) : (updateCurrent f s).evu.phase = s.evu.phase := by
  obtain ⟨l, h⟩ := updateCurrent_eq f s
  rw [h]

theorem updateCurrent_wfs (f : EventRecord → EventRecord) (s : State) : (updateCurrent f s).wfs = s.wfs :=
  (updateCurrent_calm f (.refl s)).2

theorem takeTriggerOn_phase (c : Fin 6) (st : Stamp) (h : s.evu.phase ≠ .idle) :
    (takeTriggerOn c st s).evu.phase ≠ .idle := by
  unfold takeTriggerOn
  dsimp only
  rw [updateCurrent_phase]
  split_ifs
  · rw [updateCurrent_phase]
    exact EventPhase.noConfusion
  · exact h

theorem takeTriggerOn_wfs (c : Fin 6) (st : Stamp) (s : State) : (takeTriggerOn c st s).wfs = s.wfs := by
  unfold takeTriggerOn
  dsimp only
  rw [updateCurrent_wfs]
  split_ifs
  · rw [updateCurrent_wfs]
    rfl
  · rfl

theorem takeTriggerOff_wfs (c : Fin 6) (t : Time) (s : State) : (takeTriggerOff c t s).wfs = s.wfs := by
  rw [takeTriggerOff, updateCurrent_wfs]
  rfl

/-- A trigger change ends no event in progress. -/
theorem takeChange_phase (b : Batch) (c : Fin 6) (h : s.evu.phase ≠ .idle) : (takeChange b c s).evu.phase ≠ .idle := by
  unfold takeChange
  split
  · exact h
  · exact takeTriggerOn_phase c _ h
  · rwa [(takeTriggerOff_evu c _ s).1]

theorem takeChange_wfs (b : Batch) (c : Fin 6) (s : State) : (takeChange b c s).wfs = s.wfs := by
  unfold takeChange
  split
  · rfl
  · exact takeTriggerOn_wfs c _ s
  · exact takeTriggerOff_wfs c _ s

/-- A channel without a trigger-on changes no weight. -/
theorem takeChange_weight {b : Batch} {c : Fin 6} (hb : b.changes.get c ≠ some true) (j : Fin 6) (s : State) :
    weightOf ((takeChange b c s).evu.contrib.get j) = weightOf (s.evu.contrib.get j) := by
  unfold takeChange
  split
  · rfl
  · next h => exact absurd h hb
  · rw [(takeTriggerOff_evu c _ s).2, Six.get_set]
    split
    · next hj =>
      rw [hj]
      cases s.evu.contrib.get c <;> rfl
    · rfl

/-- The batch declares no event: one is in progress, or no channel triggers on and the weights do not reach V (R67). -/
def Declines (b : Batch) (s : State) : Prop :=
  s.evu.phase ≠ .idle ∨ (∀ c, b.changes.get c ≠ some true) ∧ weightSum s.evu.contrib < s.tables.event.threshold

theorem batchChanges_wfs (b : Batch) (s : State) : (batchChanges b s).wfs = s.wfs :=
  List.foldlRecOn (motive := fun u : State => u.wfs = s.wfs) channels _ rfl fun u hu c _ => (takeChange_wfs b c u).trans hu

theorem batchChanges_tables (b : Batch) (s : State) : (batchChanges b s).tables = s.tables := by
  obtain ⟨e, w, a, c, q, h⟩ := (advanceWindows_events s).trans (takeChanges_events b channels (advanceWindows s))
  rw [batchChanges, h]

theorem advanceWindows_weight (s : State) (j : Fin 6) :
    weightOf ((advanceWindows s).evu.contrib.get j) = weightOf (s.evu.contrib.get j) := by
  rw [advanceWindows, State.withEvu_evu, Six.get_map]
  cases s.evu.contrib.get j <;> rfl

theorem batchChanges_weight {b : Batch} (hb : ∀ c, b.changes.get c ≠ some true) (s : State) (j : Fin 6) :
    weightOf ((batchChanges b s).evu.contrib.get j) = weightOf (s.evu.contrib.get j) :=
  List.foldlRecOn (motive := fun u : State => weightOf (u.evu.contrib.get j) = weightOf (s.evu.contrib.get j)) channels _
    (advanceWindows_weight s j) fun u hu c _ => (takeChange_weight (hb c) j u).trans hu

/-- The vote sum is at most the weights of the contributions that were there (R65). -/
theorem endContributions_voteSum (s : State) : (endContributions s).evu.voteSum ≤ weightSum s.evu.contrib := by
  refine weightSum_mono fun c => ?_
  rw [Six.get_ofFn]
  split
  · exact Nat.zero_le _
  · next h =>
    rw [h]
    split
    · exact Nat.zero_le _
    · exact le_rfl

/-- A batch that declares no event leaves the waveform store alone up to its judgement. -/
theorem phaseJudged_wfs {b : Batch} (h : Declines b s) : (phaseJudged b s).wfs = s.wfs := by
  have hw : (endContributions (batchChanges b s)).wfs = s.wfs := batchChanges_wfs b s
  have hv : (endContributions (batchChanges b s)).evu.phase = .idle →
      (endContributions (batchChanges b s)).evu.voteSum < (endContributions (batchChanges b s)).tables.event.threshold := by
    obtain hp | ⟨hb, hv⟩ := h
    · have h' : (batchChanges b s).evu.phase ≠ .idle :=
        List.foldlRecOn (motive := fun u : State => u.evu.phase ≠ .idle) channels _ hp
          fun u hu c _ => takeChange_phase b c hu
      exact fun h => absurd h h'
    · intro _
      show _ < (batchChanges b s).tables.event.threshold
      rw [batchChanges_tables]
      exact ((endContributions_voteSum _).trans (weightSum_mono fun c => (batchChanges_weight hb s c).le)).trans_lt hv
  unfold phaseJudged evaluatePhase
  split
  · next hp => rwa [if_neg (Nat.not_le.mpr (hv hp))]
  · rw [(evaluateOpen_calm (.refl _)).2, hw]
  · exact hw

theorem evuBatch_wfs {b : Batch} (h : Declines b s) : (evuBatch b s).wfs = s.wfs :=
  (evuBatch_calm b s).2.trans (phaseJudged_wfs h)

/-- A sample instant at which no event is declared leaves the waveform store alone (R67). -/
theorem sampleInstant_wfs (st : Stamp) {item : SampleItem} (h : NoDeclaration item s) :
    (sampleInstant st item s).wfs = s.wfs := by
  obtain ⟨a, n, q, hb⟩ := bankWork_alerts item s
  have hd : Declines (bankBatch st item s) (bankWork item s) := by
    rw [hb]
    exact h.imp id fun ⟨hq, hv⟩ => ⟨fun c => by rw [bankBatch, Six.get_map]; exact hq c, hv⟩
  have hw : (bankWork item s).wfs = s.wfs := by rw [hb]
  exact (evuBatch_wfs hd).trans hw

/-- What an instant's declaration is judged from: the detectors, their rate, EVU and the tables. -/
theorem NoDeclaration.congr {t : State} {item : SampleItem} (h : NoDeclaration item s) (det : t.det = s.det)
    (rate : t.sif.rate = s.sif.rate) (evu : t.evu = s.evu) (tables : t.tables = s.tables) : NoDeclaration item t := by
  have hb : bankInstant item t = bankInstant item s := by rw [bankInstant, bankInstant, det, rate, tables]
  unfold NoDeclaration NoTriggerOn QuietAt at *
  rwa [hb, evu, tables]

/-! ### The writer's frame (R82) -/

/-- The frame goes into the segment that is being written, where it does not fill it. -/
theorem writeFrame_segment (d : Delivered) {i : Nat} (hw : s.wfs.writer = some i) (hi : i < s.wfs.segments.length)
    (room : (segmentAt s i).count + 1 < 2048) : segmentAt (writeFrame d s) i = Segment.store d (segmentAt s i) := by
  have hs : segmentAt (updateSegment i (Segment.store d) s) i = Segment.store d (segmentAt s i) := by
    simp [segmentAt, updateSegment, List.getD_eq_getElem?_getD, hi]
  unfold writeFrame
  simp only [hw, Option.isNone_some, Bool.false_eq_true, if_false, hs]
  rw [if_neg (by simp [Segment.store, Config.segmentFrames]; omega), hs]

/-! ### Gap reset (R55) -/

theorem offBatchTriggerOff_wfs (c : Fin 6) (t : Time) (s : State) : (offBatchTriggerOff c t s).wfs = s.wfs := by
  rw [offBatchTriggerOff, (evaluateOpen_calm (.refl _)).2]
  exact takeTriggerOff_wfs c t s

theorem offBatchTriggerOff_triggered (c : Fin 6) (t : Time) (s : State) :
    (offBatchTriggerOff c t s).evu.triggered = s.evu.triggered.set c false := by
  rw [offBatchTriggerOff, (evaluateOpen_calm (.refl _)).1]
  exact takeTriggerOff_triggered c t s

theorem offBatchTriggerOff_det (c : Fin 6) (t : Time) (s : State) : (offBatchTriggerOff c t s).det = s.det := by
  obtain ⟨e, w, a, n, q, h⟩ := offBatchTriggerOff_events c t s
  rw [h]

/-- Gap reset at one channel: its detector re-warms unless it is OFF, and a TRIGGERED one is told to EVU. -/
theorem gapResetChannel_eq (t : Time) (c : Fin 6) (s : State) :
    (∀ j, (gapResetChannel t c s).det.get j =
        if j = c ∧ (s.det.get c).state ≠ .off then (s.det.get c).rewarm else s.det.get j) ∧
      (∀ j, (gapResetChannel t c s).evu.triggered.get j =
        if j = c ∧ (s.det.get c).state = .triggered then false else s.evu.triggered.get j) ∧
      (gapResetChannel t c s).wfs = s.wfs := by
  have hd (j : Fin 6) : (updateDetector c Detector.rewarm s).det.get j =
      if j = c then (s.det.get c).rewarm else s.det.get j :=
    Six.get_set _ _ _ _
  unfold gapResetChannel
  dsimp only
  split
  · next h => simp [h]
  · next h =>
    split
    · next ht =>
      refine ⟨fun j => ?_, fun j => ?_, offBatchTriggerOff_wfs _ _ _⟩
      · rw [offBatchTriggerOff_det, hd]
        simp [h]
      · rw [offBatchTriggerOff_triggered, Six.get_set]
        simp [ht, updateDetector]
    · next ht =>
      refine ⟨fun j => ?_, fun j => ?_, rfl⟩
      · rw [hd]
        simp [h]
      · simp [ht, updateDetector]

/-- Gap reset over a list of channels. -/
theorem gapResetChannels_eq (t : Time) (l : List (Fin 6)) (s : State) :
    (∀ j, (l.foldl (fun s c => gapResetChannel t c s) s).det.get j =
        if j ∈ l ∧ (s.det.get j).state ≠ .off then (s.det.get j).rewarm else s.det.get j) ∧
      (∀ j, (l.foldl (fun s c => gapResetChannel t c s) s).evu.triggered.get j =
        if j ∈ l ∧ (s.det.get j).state = .triggered then false else s.evu.triggered.get j) ∧
      (l.foldl (fun s c => gapResetChannel t c s) s).wfs = s.wfs := by
  induction l generalizing s with
  | nil => simp
  | cons c l ih =>
    obtain ⟨hd, ht, hw⟩ := gapResetChannel_eq t c s
    obtain ⟨id, it, iw⟩ := ih (gapResetChannel t c s)
    refine ⟨fun j => ?_, fun j => ?_, iw.trans hw⟩
    · rw [List.foldl_cons, id, hd]
      by_cases hj : j = c
      · subst hj
        cases ho : (s.det.get j).state <;> simp [ho, Detector.rewarm]
      · simp [hj]
    · rw [List.foldl_cons, it, hd, ht]
      by_cases hj : j = c
      · subst hj
        cases ho : (s.det.get j).state <;> simp [ho, Detector.rewarm]
      · simp [hj]

theorem gapResetDetectors_det (t : Time) (s : State) (c : Fin 6) :
    (gapResetDetectors t s).det.get c =
      if (s.det.get c).state = .off then s.det.get c else (s.det.get c).rewarm := by
  have hc : c ∈ channels := by revert c; decide
  rw [gapResetDetectors, (gapResetChannels_eq t channels s).1 c]
  by_cases h : (s.det.get c).state = .off <;> simp [h, hc]

theorem gapResetDetectors_triggered (t : Time) (s : State) (c : Fin 6) :
    (gapResetDetectors t s).evu.triggered.get c =
      if (s.det.get c).state = .triggered then false else s.evu.triggered.get c := by
  have hc : c ∈ channels := by revert c; decide
  rw [gapResetDetectors, (gapResetChannels_eq t channels s).2.1 c]
  by_cases h : (s.det.get c).state = .triggered <;> simp [h, hc]

theorem gapResetDetectors_wfs (t : Time) (s : State) : (gapResetDetectors t s).wfs = s.wfs :=
  (gapResetChannels_eq t channels s).2.2

/-! ### The comparison with the gap reset, in the other blocks -/

theorem onsetA6_blocks (cause : DigitizerCause) (s : State) :
    (onsetA6 cause s).det = s.det ∧ (onsetA6 cause s).evu = s.evu ∧ (onsetA6 cause s).wfs = s.wfs := by
  obtain ⟨a, c, q, h⟩ := reportCondition_alerts 6 true (.digitizer cause s.sif.missingRun)
    (s.withSif fun f => { f with a6 := true })
  rw [onsetA6, h]
  exact ⟨rfl, rfl, rfl⟩

theorem judgeGap_wfs (t : Time) (s : State) : (judgeGap t s).wfs = s.wfs := by
  obtain ⟨-, e⟩ | ⟨-, e⟩ := judgeGap_cases t s
  · rw [e, (onsetA6_blocks _ _).2.2, gapResetDetectors_wfs]
    rfl
  · rw [e]

/-- The comparison leaves the detectors' averages alone (R55). -/
theorem judgeGap_averages (t : Time) (s : State) (c : Fin 6) :
    ((judgeGap t s).det.get c).baseline = (s.det.get c).baseline ∧ ((judgeGap t s).det.get c).sta = (s.det.get c).sta ∧
      ((judgeGap t s).det.get c).lta = (s.det.get c).lta ∧ ((judgeGap t s).det.get c).awaiting = (s.det.get c).awaiting := by
  obtain ⟨-, e⟩ | ⟨-, e⟩ := judgeGap_cases t s
  · rw [e, (onsetA6_blocks _ _).1, gapResetDetectors_det]
    split <;> exact ⟨rfl, rfl, rfl, rfl⟩
  · rw [e]
    exact ⟨rfl, rfl, rfl, rfl⟩

/-- A gap reset re-warms every detector that is not OFF, and tells EVU of a TRIGGERED one (R8, R55). -/
theorem judgeGap_rewarms (t : Time) (h : gapNow s s.sif.missingRun = true) (c : Fin 6) :
    (judgeGap t s).det.get c = (if (s.det.get c).state = .off then s.det.get c else (s.det.get c).rewarm) ∧
      (judgeGap t s).evu.triggered.get c =
        if (s.det.get c).state = .triggered then false else s.evu.triggered.get c := by
  rw [judgeGap_of_gap t h, (onsetA6_blocks _ _).1, (onsetA6_blocks _ _).2.1, gapResetDetectors_det,
    gapResetDetectors_triggered]
  exact ⟨rfl, rfl⟩

/-! ### A missing entry in DET and EVU (R7, R54, R55) -/

/-- What two detectors share that differ in blank remaining alone. -/
theorem unblanked_fields {d d' : Detector} (h : d.unblanked = d'.unblanked) :
    (d.baseline = d'.baseline ∧ d.sta = d'.sta ∧ d.lta = d'.lta ∧ d.awaiting = d'.awaiting) ∧
      d.state = d'.state ∧ d.warm = d'.warm ∧ d.rearm = d'.rearm ∧ d.timer = d'.timer := by
  simp only [Detector.unblanked, Detector.mk.injEq] at h
  tauto

/-- EVU's trigger marks after an instant are what the bank reported (R64). -/
theorem sampleInstant_triggered (st : Stamp) (item : SampleItem) (s : State) (c : Fin 6) :
    (sampleInstant st item s).evu.triggered.get c =
      (((bankInstant item s).get c).change).getD (s.evu.triggered.get c) := by
  obtain ⟨a, n, q, hb⟩ := bankWork_alerts item s
  have he : (bankWork item s).evu = s.evu := by rw [hb]
  have h := evuBatch_triggered (bankBatch st item s) (bankWork item s) c
  rw [he] at h
  exact h.trans (by rw [bankBatch, Six.get_map])

/-- The detectors' averages stand at a missing instant (R54). -/
theorem sampleInstant_missing_averages (st : Stamp) (s : State) (c : Fin 6) :
    ((sampleInstant st none s).det.get c).baseline = (s.det.get c).baseline ∧
      ((sampleInstant st none s).det.get c).sta = (s.det.get c).sta ∧
      ((sampleInstant st none s).det.get c).lta = (s.det.get c).lta ∧
      ((sampleInstant st none s).det.get c).awaiting = (s.det.get c).awaiting := by
  obtain ⟨⟨hb, hx, hl, hw⟩, -⟩ := unblanked_fields (sampleInstant_det st none s c)
  rw [bankInstant_get, Option.map_none] at hb hx hl hw
  obtain ⟨ib, ix, il, iw⟩ := detectorInstant_missing_averages (s.tables.channel.get c) s.sif.rate (s.det.get c)
  exact ⟨hb.trans ib, hx.trans ix, hl.trans il, hw.trans iw⟩

/-- The averages, state and mark that a missing instant leaves as it is handed on: the averages stand (R54), no detector is
turned OFF or on, and one that was TRIGGERED is so still or EVU has its trigger-off. -/
theorem handMissing_detectors (st : Stamp) (s : State) (c : Fin 6) :
    let d := (handMissing st s).det.get c
    (d.baseline = (s.det.get c).baseline ∧ d.sta = (s.det.get c).sta ∧ d.lta = (s.det.get c).lta ∧
        d.awaiting = (s.det.get c).awaiting) ∧
      (d.state = .off ↔ (s.det.get c).state = .off) ∧
      ((s.det.get c).state = .triggered → d.state = .triggered ∨ (handMissing st s).evu.triggered.get c = false) := by
  obtain ⟨-, hd, he, -⟩ := (packMissing_packs (sampleInstant st none s)).blocks
  obtain ⟨-, hs, -⟩ := unblanked_fields (sampleInstant_det st none s c)
  have ht := sampleInstant_triggered st none s c
  rw [bankInstant_get, Option.map_none] at hs ht
  unfold handMissing
  dsimp only
  rw [hd, he, hs, ht]
  refine ⟨sampleInstant_missing_averages st s c, detectorInstant_missing_off _ _ _, fun h => ?_⟩
  obtain ⟨hs, -⟩ | hc := detectorInstant_missing_triggered (s.tables.channel.get c) s.sif.rate h
  · exact .inl hs
  · exact .inr (by rw [hc]; rfl)

/-- The detectors' averages stand when an entry is declared missing (R54). -/
theorem declareMissing_averages (e : Strobe) (s : State) (c : Fin 6) :
    ((declareMissing e s).det.get c).baseline = (s.det.get c).baseline ∧
      ((declareMissing e s).det.get c).sta = (s.det.get c).sta ∧ ((declareMissing e s).det.get c).lta = (s.det.get c).lta ∧
      ((declareMissing e s).det.get c).awaiting = (s.det.get c).awaiting := by
  obtain ⟨⟨hb, hx, hl, hw⟩, -⟩ := handMissing_detectors ⟨e.time, e.tq⟩ (missingNoted e s) c
  obtain ⟨jb, jx, jl, jw⟩ := judgeGap_averages e.time (handMissing ⟨e.time, e.tq⟩ (missingNoted e s)) c
  have hn : (missingNoted e s).det = s.det := (missingNoted_blocks e s).1
  rw [declareMissing_eq, jb, jx, jl, jw, hb, hx, hl, hw, hn]
  exact ⟨rfl, rfl, rfl, rfl⟩

/-- Where the missing run reaches the gap reset, every detector that is not OFF is WARMING from the start, and a
TRIGGERED one is told to EVU (R8, R55). -/
theorem declareMissing_rewarms (e : Strobe) (h : gapNow s (longerRun s) = true) (c : Fin 6) :
    let d := (declareMissing e s).det.get c
    ((s.det.get c).state = .off → d.state = .off) ∧
      ((s.det.get c).state ≠ .off → d.state = .warming ∧ d.warm = 0 ∧ d.rearm = false ∧ d.timer = 0) ∧
      ((s.det.get c).state = .triggered → (declareMissing e s).evu.triggered.get c = false) := by
  obtain ⟨-, ho, ht⟩ := handMissing_detectors ⟨e.time, e.tq⟩ (missingNoted e s) c
  obtain ⟨hd, he⟩ := judgeGap_rewarms e.time (handMissing_gapNow e h) c
  rw [(missingNoted_blocks e s).1] at ho ht
  dsimp only
  rw [declareMissing_eq, hd, he]
  generalize (handMissing ⟨e.time, e.tq⟩ (missingNoted e s)).det.get c = d at ho ht ⊢
  refine ⟨fun h => ?_, fun h => ?_, fun h => ?_⟩
  · rw [if_pos (ho.2 h)]
    exact ho.2 h
  · rw [if_neg (mt ho.1 h)]
    exact ⟨rfl, rfl, rfl, rfl⟩
  · split
    · rfl
    · next hn => exact (ht h).resolve_left hn

end Sys2Proof.Machine
end

section
/-!
SUPPORT. What the passing of time and the work that follows every step leave of the sample path (R1 to R9, R128, R155), and a
strobe as a push-out and the placing of its entry.
-/

namespace Sys2Proof.Machine

variable {s : State}

/-! ### The passing of time -/

/-- `t` is `s` at a later moment: the oscillator, station time within its second and the timers that the oscillator
measures. -/
def Elapses (s t : State) : Prop :=
  ∃ o n r w l x a b c,
    t =
      { s with
        osc := o, tmb := { s.tmb with ns := n, residue := r, slew := w }, lda := l
        lnk := { s.lnk with tx := x, warmLeft := a, lingerLeft := b, rxLeft := c } }

theorem passTime_elapses (dt : Nat) (s : State) : Elapses s (passTime dt s) := by
  obtain ⟨n, r, w, h⟩ := Tmb.run_eq dt s.tmb
  exact ⟨_, n, r, w, _, _, _, _, _, by rw [passTime, h]⟩

theorem runToStation_elapses (ns : Nat) (s : State) : Elapses s (runToStation ns s) := by
  unfold runToStation
  split
  · exact passTime_elapses _ s
  · exact ⟨_, _, _, _, _, _, _, _, _, rfl⟩

theorem Elapses.cnt {t : State} (h : Elapses s t) : t.cnt = s.cnt := by
  obtain ⟨o, n, r, w, l, x, a, b, c, rfl⟩ := h
  rfl

/-- `t` is `s` at a later moment with `l` as its strobe list, as far as SIF, DET, EVU, WFS, the tables and the counters
go. -/
structure Listed (l : List Strobe) (s t : State) : Prop where
  sif : t.sif = { s.sif with strobes := l }
  det : t.det = s.det
  evu : t.evu = s.evu
  wfs : t.wfs = s.wfs
  tables : t.tables = s.tables
  cnt : t.cnt = s.cnt

theorem Elapses.listed {t : State} (h : Elapses s t) (l : List Strobe) : Listed l s (withStrobes l t) := by
  obtain ⟨o, n, r, w, l, x, a, b, c, rfl⟩ := h
  exact ⟨rfl, rfl, rfl, rfl, rfl, rfl⟩

theorem Listed.kept {l : List Strobe} {t : State} (h : Listed l s t) :
    t.sif.strobes = l ∧ t.sif.nextSeq = s.sif.nextSeq ∧ t.sif.lastAccepted = s.sif.lastAccepted ∧
      t.sif.gapSignalled = s.sif.gapSignalled ∧ t.sif.a6 = s.sif.a6 := by
  rw [h.sif]
  exact ⟨rfl, rfl, rfl, rfl, rfl⟩

theorem Listed.longerRun {l : List Strobe} {t : State} (h : Listed l s t) : longerRun t = longerRun s := by
  rw [Machine.longerRun, h.sif, Machine.longerRun]

/-! ### What the sample path is seen by -/

/-- `t` shows of the sample path what `s` shows: SIF, WFS and ALU whole, the stream's queue, EVU's contributions and
trigger marks, TMB's strobe times, the detectors but for blank remaining, and K0 to K6. -/
structure SamePath (s t : State) : Prop where
  sif : t.sif = s.sif
  wfs : t.wfs = s.wfs
  alu : t.alu = s.alu
  dataQueue : t.lnk.dataQueue = s.lnk.dataQueue
  contrib : t.evu.contrib = s.evu.contrib
  triggered : t.evu.triggered = s.evu.triggered
  strobeNext : t.tmb.strobeNext = s.tmb.strobeNext
  stepMark : t.tmb.stepMark = s.tmb.stepMark
  detectors : ∀ c, (t.det.get c).unblanked = (s.det.get c).unblanked
  counters : ∀ k : Fin 40, k.val < 7 → t.cnt[k] = s.cnt[k]

theorem Elapses.samePath {s t : State} (h : Elapses s t) : SamePath s t := by
  obtain ⟨o, n, r, w, l, x, a, b, c, rfl⟩ := h
  exact ⟨rfl, rfl, rfl, rfl, rfl, rfl, rfl, rfl, fun _ => rfl, fun _ _ => rfl⟩

theorem settle_butSwitching (s : State) : (settle s).butSwitching = s.butSwitching := by
  unfold settle
  split
  · simp [settleOn]
  · rfl

/-- The work that follows a step leaves the sample path alone. -/
theorem settle_samePath (s : State) : SamePath s (settle s) := by
  have h := settle_butSwitching s
  obtain ⟨-, -, -, hf, hw, ha, -⟩ := butSwitching_fields h
  have ht := butSwitching_tmb h
  have hl := butSwitching_lnk h
  have he := butSwitching_evu h
  simp only [Tmb.mk.injEq] at ht
  simp only [Lnk.mk.injEq] at hl
  simp only [Evu.mk.injEq] at he
  exact {
    sif := hf, wfs := hw, alu := ha
    dataQueue := by tauto
    contrib := by tauto
    triggered := by tauto
    strobeNext := by tauto
    stepMark := by tauto
    detectors := butSwitching_det h
    counters := fun k hk => (settle_outside (.refl s)).counter k hk }

theorem SamePath.trans {s t u : State} (h : SamePath s t) (h' : SamePath t u) : SamePath s u where
  sif := h'.sif.trans h.sif
  wfs := h'.wfs.trans h.wfs
  alu := h'.alu.trans h.alu
  dataQueue := h'.dataQueue.trans h.dataQueue
  contrib := h'.contrib.trans h.contrib
  triggered := h'.triggered.trans h.triggered
  strobeNext := h'.strobeNext.trans h.strobeNext
  stepMark := h'.stepMark.trans h.stepMark
  detectors := fun c => (h'.detectors c).trans (h.detectors c)
  counters := fun k hk => (h'.counters k hk).trans (h.counters k hk)

theorem SamePath.averages {s t : State} (h : SamePath s t) (c : Fin 6) :
    (t.det.get c).baseline = (s.det.get c).baseline ∧ (t.det.get c).sta = (s.det.get c).sta ∧
      (t.det.get c).lta = (s.det.get c).lta ∧ (t.det.get c).awaiting = (s.det.get c).awaiting :=
  (unblanked_fields (h.detectors c)).1

/-! ### A list without frames -/

/-- Of a list of frameless entries nothing is delivered. -/
theorem deliverFront_of_all_frameless {l : List Strobe} (hs : s.sif.strobes = l) (h : ∀ x ∈ l, x.frame = none) (n : Nat) :
    deliverFront n s = s := by
  cases l with
  | nil => exact deliverFront_of_nil n hs
  | cons x xs => exact deliverFront_of_frameless n hs (h x (by simp))

/-! ### A strobe is a push-out and the placing of its entry -/

/-- The entry `e` at the back of the list, the next sequence, and TMB's next strobe instant (R1). -/
def placeStrobe (e : Strobe) (s : State) : State :=
  (s.withSif fun f => { f with nextSeq := f.nextSeq + 1, strobes := f.strobes ++ [e] }).withTmb fun t =>
    { t with stepMark := false, strobeNext := t.strobeNext + Config.second / s.sif.rate }

theorem strobeInstant_eq (s : State) : strobeInstant s = placeStrobe (newStrobe s) (pushOut s) := rfl

theorem placeStrobe_sif (e : Strobe) (s : State) :
    (placeStrobe e s).sif = { s.sif with nextSeq := s.sif.nextSeq + 1, strobes := s.sif.strobes ++ [e] } := rfl

theorem placeStrobe_det (e : Strobe) (s : State) : (placeStrobe e s).det = s.det := rfl

theorem placeStrobe_evu (e : Strobe) (s : State) : (placeStrobe e s).evu = s.evu := rfl

theorem placeStrobe_alu (e : Strobe) (s : State) : (placeStrobe e s).alu = s.alu := rfl

theorem placeStrobe_cnt (e : Strobe) (s : State) : (placeStrobe e s).cnt = s.cnt := rfl

theorem newStrobe_elapsed {s t : State} (h : Elapses s t) : newStrobe t = newStrobe s := by
  obtain ⟨o, n, r, w, l, x, a, b, c, rfl⟩ := h
  rfl

/-- A strobe that is due is given where station time has run to it. -/
theorem exec_strobe_of_due {s : State} (hs : s.supply = .on) (due : s.tmb.strobeNext < Config.second) :
    ∃ u, Elapses s u ∧ exec .strobe s = .next (settle (placeStrobe (newStrobe s) (pushOut u))) := by
  have hd : strobeDue s = true := decide_eq_true due
  have hu := runToStation_elapses s.tmb.strobeNext s
  refine ⟨_, hu, (stepWhen_of_due hs hd).trans ?_⟩
  rw [runStrobe, if_pos hd, strobeInstant_eq, newStrobe_elapsed hu]

end Sys2Proof.Machine
end

section
/-!
PROOF. What a strobe does (O9): it appends an entry, and pushes the front out of a full list.
-/

namespace Sys2Proof.Machine

variable {s : State} {e : Strobe} {rest : List Strobe}

/-! ### The front entry of a full list -/

theorem leave_of_frameless (empty : e.frame = none) (s : State) : leave e s = declareMissing e s := by
  rw [leave, empty]

/-- A strobe finds a full list with a frameless front: time passes, the front entry is declared missing, delivery goes on
behind it, and the new entry is placed (R1, R2, R7). -/
theorem exec_strobe_of_full (h : FrontPushedOut e rest s) :
    ∃ w t, Listed rest s w ∧ exec .strobe s = .next t ∧
      SamePath (placeStrobe (newStrobe s) (deliverFront Config.strobeLimit (declareMissing e w))) t := by
  obtain ⟨u, hu, he⟩ := exec_strobe_of_due h.supply h.due
  rw [pushOut_of_full (hu.samePath.sif ▸ h.strobes) h.full, leave_of_frameless h.empty] at he
  exact ⟨withStrobes rest u, _, hu.listed rest, he, settle_samePath _⟩

/-- With no frame behind it, nothing is delivered. -/
theorem exec_strobe_of_frameless (h : FrontPushedOut e rest s) (behind : ∀ x ∈ rest, x.frame = none) :
    ∃ w t, Listed rest s w ∧ exec .strobe s = .next t ∧ SamePath (placeStrobe (newStrobe s) (declareMissing e w)) t := by
  obtain ⟨w, t, hw, he, ht⟩ := exec_strobe_of_full h
  rw [deliverFront_of_all_frameless ((declareMissing_list e w).1.trans hw.kept.1) behind] at ht
  exact ⟨w, t, hw, he, ht⟩

/-- SIF after a push-out whose run stays below the gap reset (R8). -/
theorem declareMissing_below_gapReset (h : longerRun s < s.tables.station.gapReset) (e : Strobe) :
    (declareMissing e s).sif.gapSignalled = s.sif.gapSignalled ∧ (declareMissing e s).sif.a6 = s.sif.a6 := by
  rw [declareMissing_sif]
  simp [Sif.gapJudged, gapReached, h]

/-- SIF after a push-out whose run is at the gap reset (R8, R9). -/
theorem declareMissing_at_gapReset (h : s.tables.station.gapReset ≤ longerRun s) (e : Strobe) :
    (declareMissing e s).sif.gapSignalled = true ∧
      (s.sif.gapSignalled = false → (declareMissing e s).sif.a6 = true ∧ gapNow s (longerRun s) = true) := by
  rw [declareMissing_sif]
  simp only [Sif.gapJudged, gapNow, gapReached, h, decide_true, Bool.or_true, Bool.true_and, true_and]
  exact fun first => by simp [first]

/-- The counters after a push-out: K4 counts it (R7). -/
theorem Listed.declareMissing_counters {w : State} (hw : Listed rest s w) (e : Strobe) :
    (declareMissing e w).cnt[0] = s.cnt[0] ∧ (declareMissing e w).cnt[4] = s.cnt[4] + 1 ∧
      (declareMissing e w).cnt[5] = s.cnt[5] := by
  have hc (k : Fin 40) (hk : k.val < 7) :
      (declareMissing e w).cnt[k] = if 4 = k then s.cnt[(4 : Fin 40)] + 1 else s.cnt[k] := by
    rw [declareMissing_counter e w k hk, count_getElem, hw.cnt]
  exact ⟨hc 0 (by decide), hc 4 (by decide), hc 5 (by decide)⟩

/-- The gap reset by a push-out, seen after the work that follows: A6 with cause GAP, and the detectors' re-warm (R8,
R55). -/
theorem Listed.gapReset {w t : State} {x : Strobe} (hw : Listed rest s w)
    (ht : SamePath (placeStrobe x (declareMissing e w)) t) (now : gapNow w (Machine.longerRun w) = true) :
    t.alu.conds.get 6 = ⟨true, some (.digitizer .gap (Machine.longerRun s))⟩ ∧
      ∀ c,
        ((s.det.get c).state = .off → (t.det.get c).state = .off) ∧
          ((s.det.get c).state ≠ .off →
            (t.det.get c).state = .warming ∧ (t.det.get c).warm = 0 ∧ (t.det.get c).rearm = false ∧
              (t.det.get c).timer = 0) ∧
          ((s.det.get c).state = .triggered → t.evu.triggered.get c = false) := by
  refine ⟨by rw [ht.alu, placeStrobe_alu, declareMissing_condition e now, hw.longerRun], fun c => ?_⟩
  obtain ⟨-, hs, hm, hr, hx⟩ := unblanked_fields (ht.detectors c)
  rw [placeStrobe_det] at hs hm hr hx
  rw [ht.triggered, placeStrobe_evu, hs, hm, hr, hx, ← hw.det]
  exact declareMissing_rewarms e now c

/-! ### The statement -/

/-- Settles O9: a strobe is a push-out and the placing of its entry, after time has run to it and before the work that
follows every step, and both of these leave the sample path alone. -/
theorem strobeAppendsEntryAndPushesFrontOut : Obligations.StrobeAppendsEntryAndPushesFrontOut := by
  refine ⟨fun s hs due room => ?room, fun s e rest hs due hl full empty => ?full, fun s e rest h => ?followers,
    fun s late => ?waits⟩
  case room =>
    obtain ⟨u, hu, he⟩ := exec_strobe_of_due hs due
    have hr : pushOut u = u := pushOut_of_room (hu.samePath.sif ▸ room)
    rw [hr] at he
    have ht := settle_samePath (placeStrobe (newStrobe s) u)
    obtain ⟨o, n, r, w, l, x, a, b, c, rfl⟩ := hu
    exact ⟨_, he, ht.sif, ht.strobeNext, ht.stepMark, ht.wfs, ht.alu, ht.dataQueue, ht.contrib, fun c =>
      have ⟨⟨hb, hx, hl, _⟩, hd, _⟩ := unblanked_fields (ht.detectors c)
      ⟨hd, hb, hx, hl⟩⟩
  case full =>
    obtain ⟨w, t, hw, he, ht⟩ := exec_strobe_of_frameless ⟨hs, due, hl, full, empty e (by simp)⟩
      fun x hx => empty x (by simp [hx])
    obtain ⟨c0, c4, -⟩ := hw.declareMissing_counters e
    have hc := ht.counters
    rw [placeStrobe_cnt] at hc
    have ha := ht.averages
    simp only [placeStrobe_det, declareMissing_averages, hw.det] at ha
    have hf := ht.sif
    rw [placeStrobe_sif] at hf
    have hm := declareMissing_sif e w
    rw [hw.sif, hw.longerRun] at hm
    refine ⟨t, newStrobe s, he, by rw [hf, hm]; rfl, rfl, rfl, by rw [hf, hm]; rfl, by rw [hf, hm]; rfl,
      by rw [hf, hm]; rfl, by rw [hf, hm]; rfl, (hc 4 (by decide)).trans c4,
      (hc 0 (by decide)).trans c0, ha, fun below => ?_, fun reached => ?_⟩
    · have hg := declareMissing_below_gapReset (by rwa [hw.longerRun, hw.tables]) e
      obtain ⟨-, -, -, wg, wa⟩ := hw.kept
      rwa [hf, ← wg, ← wa]
    · obtain ⟨signalled, onset⟩ := declareMissing_at_gapReset (by rwa [hw.longerRun, hw.tables]) e
      refine ⟨by rwa [hf], fun first => ?_⟩
      obtain ⟨ha6, now⟩ := onset (by rwa [hw.sif])
      exact ⟨by rwa [hf], hw.gapReset ht now⟩
  case followers =>
    obtain ⟨w, t, hw, he, ht⟩ := exec_strobe_of_full h
    obtain ⟨ms, mn, -, ma⟩ := declareMissing_list e w
    obtain ⟨ws, wn, wa, -⟩ := hw.kept
    have hn : rest.length ≤ Config.strobeLimit := by rw [h.full]; decide
    obtain ⟨ds, dn⟩ := deliverFront_list (ms.trans ws) hn
    obtain ⟨da, c0, c4, c5⟩ := deliverFront_counts (ms.trans ws) hn
    obtain ⟨h0, h4, h5⟩ := hw.declareMissing_counters e
    rw [h0] at c0
    rw [h4] at c4
    rw [h5] at c5
    have hc := ht.counters
    rw [placeStrobe_cnt] at hc
    have hf := ht.sif
    rw [placeStrobe_sif] at hf
    refine ⟨t, newStrobe s, he, by rw [hf, ds], rfl, rfl, by rw [hf, dn, mn, wn], ?_, ?_, ?_, ?_⟩
    · rw [hf, da, ma, wa]
      cases (readyOf rest).getLast? <;> rfl
    · exact (hc 0 (by decide)).trans c0
    · exact (hc 4 (by decide)).trans c4
    · exact (hc 5 (by decide)).trans c5
  case waits =>
    exact stepWhen_of_not_due (decide_eq_false (Nat.not_lt.mpr late))

end Sys2Proof.Machine
end

section
/-!
PROOF. What the arrival of a digitizer frame does (O10): it is matched by its sequence number, stored, and delivered from the
front.
-/

namespace Sys2Proof.Machine

variable {s : State} {e : Strobe} {rest : List Strobe} {f : DigFrame}

/-! ### What a delivery hands on -/

theorem Alerts.blocks {t : State} (h : Alerts s t) : t.det = s.det ∧ t.evu = s.evu ∧ t.wfs = s.wfs := by
  obtain ⟨a, c, q, rfl⟩ := h
  exact ⟨rfl, rfl, rfl⟩

theorem countTimes_blocks (n : Nat) (k : Fin 40) (s : State) :
    (countTimes n k s).det = s.det ∧ (countTimes n k s).evu = s.evu ∧ (countTimes n k s).wfs = s.wfs := by
  induction n generalizing s with
  | zero => exact ⟨rfl, rfl, rfl⟩
  | succ n ih =>
    obtain ⟨hd, he, hw⟩ := (count_alerts k s).blocks
    obtain ⟨id, ie, iw⟩ := ih (count k s)
    exact ⟨id.trans hd, ie.trans he, iw.trans hw⟩

theorem clearA6_blocks (s : State) : (clearA6 s).det = s.det ∧ (clearA6 s).evu = s.evu ∧ (clearA6 s).wfs = s.wfs := by
  unfold clearA6
  split
  · exact (reportCondition_alerts 6 false _ _).blocks
  · exact ⟨rfl, rfl, rfl⟩

theorem acceptedNoted_blocks (e : Strobe) (s : State) :
    (acceptedNoted e s).det = s.det ∧ (acceptedNoted e s).evu = s.evu ∧ (acceptedNoted e s).wfs = s.wfs :=
  (count_alerts 0 s).blocks

theorem usableNoted_blocks (d : Delivered) (s : State) :
    (usableNoted d s).det = s.det ∧ (usableNoted d s).evu = s.evu ∧ (usableNoted d s).wfs = s.wfs := by
  obtain ⟨hd, he, hw⟩ := clearA6_blocks
    ((countTimes (clipCount d.clips) 6 s).withSif fun f => { f with missingRun := 0, gapSignalled := false })
  obtain ⟨cd, ce, cw⟩ := countTimes_blocks (clipCount d.clips) 6 s
  exact ⟨hd.trans cd, he.trans ce, hw.trans cw⟩

theorem lengthenRun_blocks (s : State) :
    (lengthenRun s).det = s.det ∧ (lengthenRun s).evu = s.evu ∧ (lengthenRun s).wfs = s.wfs := ⟨rfl, rfl, rfl⟩

theorem faultNoted_blocks (s : State) :
    (faultNoted s).det = s.det ∧ (faultNoted s).evu = s.evu ∧ (faultNoted s).wfs = s.wfs := by
  obtain ⟨hd, he, hw⟩ := onsetA6_blocks .fault (lengthenRun (count 5 (count 4 s)))
  obtain ⟨ld, le, lw⟩ := lengthenRun_blocks (count 5 (count 4 s))
  obtain ⟨cd, ce, cw⟩ := ((count_alerts 4 s).trans (count_alerts 5 _)).blocks
  rw [faultNoted, hd, he, hw, ld, le, lw, cd, ce, cw]
  exact ⟨rfl, rfl, rfl⟩

/-- The instant of a usable frame is judged as at the state it is delivered in. -/
theorem NoDeclaration.of_usable {item : SampleItem} (h : NoDeclaration item s) (d : Delivered) (e : Strobe) :
    NoDeclaration item (usableNoted d (acceptedNoted e s)) := by
  obtain ⟨hd, he, -⟩ := usableNoted_blocks d (acceptedNoted e s)
  obtain ⟨ad, ae, -⟩ := acceptedNoted_blocks e s
  exact h.congr (hd.trans ad) (by rw [usableNoted_sif, acceptedNoted_sif]) (he.trans ae)
    ((acceptedNoted_instants e s).trans (usableNoted_instants d _)).tables

theorem NoDeclaration.of_fault {item : SampleItem} (h : NoDeclaration item s) (e : Strobe) :
    NoDeclaration item (faultNoted (acceptedNoted e s)) := by
  obtain ⟨hd, he, -⟩ := faultNoted_blocks (acceptedNoted e s)
  obtain ⟨ad, ae, -⟩ := acceptedNoted_blocks e s
  exact h.congr (hd.trans ad) (by rw [faultNoted_sif, acceptedNoted_sif]) (he.trans ae)
    ((acceptedNoted_instants e s).trans (faultNoted_instants _)).tables

theorem segmentAt_congr {t : State} (h : t.wfs = s.wfs) (i : Nat) : segmentAt t i = segmentAt s i := by
  rw [segmentAt, h, segmentAt]

/-- The writer takes the frame of an instant at which no event is declared (R82). -/
theorem writeFrame_sampleInstant {st : Stamp} {item : SampleItem} {t : State} (quiet : NoDeclaration item t)
    (same : t.wfs = s.wfs) (d : Delivered) {i : Nat} (hw : s.wfs.writer = some i) (hi : i < s.wfs.segments.length)
    (room : (segmentAt s i).count + 1 < 2048) :
    segmentAt (writeFrame d (sampleInstant st item t)) i = Segment.store d (segmentAt s i) := by
  have h : (sampleInstant st item t).wfs = s.wfs := (sampleInstant_wfs st quiet).trans same
  rw [writeFrame_segment d (by rw [h, hw]) (by rwa [h]) (by rwa [segmentAt_congr h]), segmentAt_congr h]

/-- The writer takes a delivered frame whole (R5, R6, R82). -/
theorem deliver_segment (e : Strobe) (f : DigFrame)
    (quiet : NoDeclaration (if f.fault then none else some (f.samples, f.clips)) s) {i : Nat}
    (hw : s.wfs.writer = some i) (hi : i < s.wfs.segments.length) (room : (segmentAt s i).count + 1 < 2048) :
    segmentAt (deliver e f s) i = Segment.store (deliveredOf s.sif.stepCarry e f) (segmentAt s i) := by
  obtain ⟨-, -, ha⟩ := acceptedNoted_blocks e s
  cases hf : f.fault
  · rw [hf] at quiet
    obtain ⟨-, -, hu⟩ := usableNoted_blocks (deliveredOf s.sif.stepCarry e f) (acceptedNoted e s)
    rw [deliver_of_good hf]
    dsimp only
    rw [segmentAt_congr (packFrame_packs _ _).wfs]
    exact writeFrame_sampleInstant (quiet.of_usable _ e) (hu.trans ha) _ hw hi room
  · rw [hf] at quiet
    obtain ⟨-, -, hu⟩ := faultNoted_blocks (acceptedNoted e s)
    rw [deliver_of_fault hf]
    dsimp only
    rw [segmentAt_congr (judgeGap_wfs _ _), segmentAt_congr (packMissing_packs _).wfs]
    exact writeFrame_sampleInstant (quiet.of_fault e) (hu.trans ha) _ hw hi room

theorem writeFrame_det (d : Delivered) (s : State) : (writeFrame d s).det = s.det := by
  obtain ⟨e, w, a, c, q, h⟩ := writeFrame_events d s
  rw [h]

/-- The detectors' averages stand at a fault-flagged frame (R6, R54). -/
theorem deliver_averages_of_fault (hf : f.fault = true) (e : Strobe) (s : State) (c : Fin 6) :
    ((deliver e f s).det.get c).baseline = (s.det.get c).baseline ∧ ((deliver e f s).det.get c).sta = (s.det.get c).sta ∧
      ((deliver e f s).det.get c).lta = (s.det.get c).lta := by
  have hn : (faultNoted (acceptedNoted e s)).det = s.det :=
    (faultNoted_blocks _).1.trans (acceptedNoted_blocks e s).1
  rw [deliver_of_fault hf]
  dsimp only
  obtain ⟨jb, jx, jl, -⟩ := judgeGap_averages e.time (packMissing (writeFrame (deliveredOf s.sif.stepCarry e f)
    (sampleInstant ⟨e.time, e.tq⟩ none (faultNoted (acceptedNoted e s))))) c
  obtain ⟨-, hd, -⟩ := (packMissing_packs (writeFrame (deliveredOf s.sif.stepCarry e f)
    (sampleInstant ⟨e.time, e.tq⟩ none (faultNoted (acceptedNoted e s))))).blocks
  obtain ⟨hb, hx, hl, -⟩ := sampleInstant_missing_averages ⟨e.time, e.tq⟩ (faultNoted (acceptedNoted e s)) c
  rw [jb, jx, jl, hd, writeFrame_det, hb, hx, hl, hn]
  exact ⟨rfl, rfl, rfl⟩

/-! ### The arrival of a frame -/

/-- A frame that matches no entry only counts (R4). -/
theorem matchFrame_of_unknown (h : s.sif.strobes.find? (·.seq == f.seq) = none) :
    matchFrame f s = if s.sif.lastAccepted = some f.seq then count 3 s else count 2 s := by
  rw [matchFrame, h]

/-- A frame that matches an entry is stored in it and delivered from the front, or counts where the entry has one (R4). -/
theorem matchFrame_of_known (h : s.sif.strobes.find? (·.seq == f.seq) = some e) :
    matchFrame f s = if e.frame.isSome then count 3 s else deliverFront Config.strobeLimit (storeFrame f s) := by
  rw [matchFrame, h]

theorem exec_digitizerFrame {after : Nat} {bytes : List Byte} (hs : s.supply = .on) :
    exec (.digitizerFrame after bytes) s = .next (settle (digitizerFrame bytes (passTime after s))) :=
  congrArg Host.Outcome.next (if_pos hs)

/-- A frame that only counts leaves SIF and WFS alone. -/
theorem counted_samePath {u t : State} {k : Fin 40} (hu : Elapses s u) (ht : SamePath (count k u) t) :
    t.sif = s.sif ∧ t.wfs = s.wfs ∧
      ∀ j : Fin 40, j.val < 7 → t.cnt[j] = if k = j then s.cnt[k] + 1 else s.cnt[j] := by
  obtain ⟨-, -, hw⟩ := (count_alerts k u).blocks
  refine ⟨ht.sif.trans ((count_sif k u).trans hu.samePath.sif), ht.wfs.trans (hw.trans hu.samePath.wfs), fun j hj => ?_⟩
  rw [ht.counters j hj, count_getElem, hu.cnt]

/-- Where the front entry has no frame and another sequence, the frame is stored and nothing is delivered (R4). -/
theorem storeFrame_behind (h : ∀ front ∈ s.sif.strobes.head?, front.frame = none ∧ front.seq ≠ f.seq) (n : Nat) :
    deliverFront n (storeFrame f s) = storeFrame f s := by
  cases hl : s.sif.strobes with
  | nil => exact deliverFront_of_nil n (by simp [storeFrame, hl])
  | cons front rest =>
    obtain ⟨empty, other⟩ := h front (by simp [hl])
    obtain ⟨r, hr⟩ : ∃ r, (storeFrame f s).sif.strobes = front :: r := by simp [storeFrame, hl, other]
    exact deliverFront_of_frameless n hr empty

/-- A frame that matches no entry counts in K3 for the last accepted sequence, and in K2 otherwise (R4). -/
theorem unknownFrame_counted {u t : State} (hu : Elapses s u) (hm : s.sif.strobes.find? (·.seq == f.seq) = none)
    (ht : SamePath (matchFrame f u) t) :
    t.sif = s.sif ∧ t.wfs = s.wfs ∧
      if s.sif.lastAccepted = some f.seq then t.cnt[3] = s.cnt[3] + 1 ∧ t.cnt[2] = s.cnt[2]
      else t.cnt[2] = s.cnt[2] + 1 ∧ t.cnt[3] = s.cnt[3] := by
  have hq := hu.samePath.sif
  rw [matchFrame_of_unknown (by rwa [hq]), hq] at ht
  split at ht
  · next last =>
    obtain ⟨hf, hw, hc⟩ := counted_samePath hu ht
    rw [if_pos last]
    exact ⟨hf, hw, hc 3 (by decide), hc 2 (by decide)⟩
  · next other =>
    obtain ⟨hf, hw, hc⟩ := counted_samePath hu ht
    rw [if_neg other]
    exact ⟨hf, hw, hc 2 (by decide), hc 3 (by decide)⟩

/-- A frame for a frameless entry behind a frameless front is stored in it, and nothing else of the sample path moves
(R4). -/
theorem frame_stored_behind {u t : State} {front : Strobe} (hu : Elapses s u)
    (hm : s.sif.strobes.find? (·.seq == f.seq) = some e) (empty : ¬ e.frame.isSome) (hfront : front ∈ s.sif.strobes.head?)
    (frameless : front.frame = none) (other : front.seq ≠ f.seq) (ht : SamePath (matchFrame f u) t) :
    t.wfs = s.wfs ∧ t.cnt[0] = s.cnt[0] ∧
      t.sif = { s.sif with
        strobes := s.sif.strobes.map fun x => if x.seq = f.seq then { x with frame := some f } else x } := by
  have hq := hu.samePath.sif
  have hb : ∀ x ∈ u.sif.strobes.head?, x.frame = none ∧ x.seq ≠ f.seq := by
    rw [hq]
    intro x hx
    rw [Option.mem_unique hx hfront]
    exact ⟨frameless, other⟩
  rw [matchFrame_of_known (by rwa [hq]), if_neg empty, storeFrame_behind hb] at ht
  refine ⟨ht.wfs.trans hu.samePath.wfs, (ht.counters 0 (by decide)).trans (hu.samePath.counters 0 (by decide)), ?_⟩
  rw [ht.sif, storeFrame, State.withSif_sif, hq]

/-- The frame of the front entry is delivered, and delivery goes on behind it (R4, R5). -/
theorem digitizerFrame_front {bytes : List Byte} (hd : decodeDigFrame bytes = some f) (hs : s.sif.strobes = e :: rest)
    (empty : e.frame = none) (sequence : e.seq = f.seq) (behind : ∀ x ∈ rest, x.seq ≠ f.seq) :
    digitizerFrame bytes s = deliverFront 3 (deliver e f (withStrobes rest s)) := by
  have hm : rest.map (fun x => if x.seq = f.seq then { x with frame := some f } else x) = rest :=
    (List.map_congr_left (g := id) fun x hx => if_neg (behind x hx)).trans rest.map_id
  have hl : (storeFrame f s).sif.strobes = { e with frame := some f } :: rest := by
    simp only [storeFrame, State.withSif_sif, hs, List.map_cons, if_pos sequence, hm]
  have hw : withStrobes rest (storeFrame f s) = withStrobes rest s := rfl
  have hf : s.sif.strobes.find? (·.seq == f.seq) = some e := by simp [hs, sequence]
  rw [digitizerFrame, hd]
  dsimp only
  rw [matchFrame_of_known hf, if_neg (by simp [empty]), deliverFront_of_frame 3 hl rfl, hw]
  rfl

/-- The front entry's frame arrives: time passes, the frame is delivered, and delivery goes on behind it (R4). -/
theorem exec_frontArrival (after : Nat) {bytes : List Byte} (hs : s.supply = .on) (hd : decodeDigFrame bytes = some f)
    (hl : s.sif.strobes = e :: rest) (empty : e.frame = none) (sequence : e.seq = f.seq)
    (behind : ∀ x ∈ rest, x.seq ≠ f.seq) :
    ∃ w t, Listed rest s w ∧ exec (.digitizerFrame after bytes) s = .next t ∧
      SamePath (deliverFront 3 (deliver e f w)) t := by
  have hu := passTime_elapses after s
  refine ⟨withStrobes rest (passTime after s), _, hu.listed rest, exec_digitizerFrame hs, ?_⟩
  rw [digitizerFrame_front hd (hu.samePath.sif ▸ hl) empty sequence behind]
  exact settle_samePath _

/-- With no frame waiting behind it, nothing else is delivered. -/
theorem exec_frontFrame (after : Nat) {bytes : List Byte} (h : FrontFrame bytes f e rest s) :
    ∃ w t, Listed rest s w ∧ exec (.digitizerFrame after bytes) s = .next t ∧ SamePath (deliver e f w) t := by
  obtain ⟨w, t, hw, he, ht⟩ := exec_frontArrival after h.supply h.decoded h.strobes h.empty h.sequence
    fun x hx => (h.behind x hx).2
  rw [deliverFront_of_all_frameless ((deliver_list e f w).1.trans hw.kept.1) fun x hx => (h.behind x hx).1] at ht
  exact ⟨w, t, hw, he, ht⟩

/-- The delivered frame of the front entry in the writer's segment, seen after the work that follows (R82). -/
theorem Listed.delivered_segment {w t : State} (hw : Listed rest s w) (ht : SamePath (deliver e f w) t)
    (quiet : NoDeclaration (if f.fault then none else some (f.samples, f.clips)) s) {i : Nat}
    (hi : s.wfs.writer = some i) (hlen : i < s.wfs.segments.length) (room : (segmentAt s i).count + 1 < 2048) :
    segmentAt t i = Segment.store (deliveredOf s.sif.stepCarry e f) (segmentAt s i) := by
  have same := segmentAt_congr hw.wfs i
  rw [← hw.wfs] at hi hlen
  have hd := deliver_segment e f (quiet.congr hw.det (by rw [hw.sif]) hw.evu hw.tables) hi hlen (by rwa [same])
  rw [segmentAt_congr ht.wfs, hd, same, hw.sif]

/-! ### The statement -/

/-- Settles O10: time passes, the frame is matched, and the work that follows leaves the sample path alone. -/
theorem digitizerFrameIsMatchedAndDelivered : Obligations.DigitizerFrameIsMatchedAndDelivered := by
  refine ⟨fun after bytes s hs => ?matched, fun after bytes f e rest s h => ?good,
    fun after bytes f e rest s hs hd hl empty sequence len behind => ?followers, fun after bytes f e rest s h hf => ?fault⟩
  case matched =>
    have hu := passTime_elapses after s
    have ht := settle_samePath (digitizerFrame bytes (passTime after s))
    refine ⟨_, exec_digitizerFrame hs, ?_⟩
    generalize settle _ = t at ht ⊢
    cases hd : decodeDigFrame bytes with
    | none =>
      rw [digitizerFrame, hd] at ht
      obtain ⟨hf, hw, hc⟩ := counted_samePath hu ht
      exact ⟨hf, hc 1 (by decide), hw⟩
    | some f =>
      rw [digitizerFrame, hd] at ht
      dsimp only at ht ⊢
      cases hm : s.sif.strobes.find? (·.seq == f.seq) with
      | none => exact unknownFrame_counted hu hm ht
      | some e =>
        dsimp only
        split
        · next full =>
          rw [matchFrame_of_known (hu.samePath.sif ▸ hm), if_pos full] at ht
          obtain ⟨hf, hw, hc⟩ := counted_samePath hu ht
          exact ⟨hf, hc 3 (by decide), hw⟩
        · next empty =>
          intro front hfront frameless other
          exact frame_stored_behind hu hm empty hfront frameless other ht
  case good =>
    obtain ⟨w, t, hw, he, ht⟩ := exec_frontFrame after h.toFrontFrame
    have hc (k : Fin 40) (hk : k.val < 7) := (ht.counters k hk).trans (deliver_counter_of_good h.good e w k hk)
    rw [hw.cnt] at hc
    refine ⟨t, he, ?_, hc 0 (by decide), hc 6 (by decide), hc 4 (by decide), hc 5 (by decide),
      fun i hi hlen room quiet => ?_⟩
    · rw [ht.sif, deliver_sif_of_good h.good, hw.sif]
    · rw [hw.delivered_segment ht (by rwa [h.good]) hi hlen room, deliveredOf, h.good]
  case followers =>
    obtain ⟨w, t, hw, he, ht⟩ := exec_frontArrival after hs hd hl empty sequence behind
    obtain ⟨ds, -, -, da⟩ := deliver_list e f w
    obtain ⟨d0, -⟩ := deliver_counters e f w
    obtain ⟨fs, -⟩ := deliverFront_list (ds.trans hw.kept.1) len
    obtain ⟨fa, f0, -⟩ := deliverFront_counts (ds.trans hw.kept.1) len
    refine ⟨t, he, by rw [ht.sif, fs], ?_, ?_⟩
    · rw [ht.sif, fa, da, List.getLast?_cons]
      cases (readyOf rest).getLast? <;> rfl
    · refine (ht.counters 0 (by decide)).trans (f0.trans ?_)
      rw [d0, hw.cnt]
      exact add_one_add_ofNat _ _
  case fault =>
    obtain ⟨w, t, hw, he, ht⟩ := exec_frontFrame after h
    have hc (k : Fin 40) (hk : k.val < 7) := (ht.counters k hk).trans (deliver_counter_of_fault hf e w k hk)
    rw [hw.cnt] at hc
    refine ⟨t, he, ?_, hc 0 (by decide), hc 4 (by decide), hc 5 (by decide), hc 6 (by decide), ?_, fun c => ?_,
      fun i hi hlen room quiet => ?_⟩
    · rw [ht.sif, deliver_sif_of_fault hf, hw.sif, hw.longerRun, gapReached, hw.tables]
      rfl
    · obtain ⟨-, -, -, hg, -⟩ := hw.kept
      rw [ht.alu, deliver_condition_of_fault hf, hw.longerRun, gapNow, gapReached, hw.tables, hg]
      simp [longerRun]
    · obtain ⟨hb, hx, hl, -⟩ := ht.averages c
      rw [hb, hx, hl, ← hw.det]
      exact deliver_averages_of_fault hf e w c
    · rw [hw.delivered_segment ht (by rwa [hf]) hi hlen room, deliveredOf, hf]

end Sys2Proof.Machine
end

section
/-!
SUPPORT. The parts of the state that the detectors' ranges, F, Q and R, the marks of inserted seconds and the correction
entries are judged by, as one view: `State.guarded`. One law for each operation that leaves the view as it is.
-/

namespace Sys2Proof.Machine

variable {s t : State}

/-- A detector's baseline and averages (R42, R44). -/
def Detector.averages (d : Detector) : Int × Int × Int := (d.baseline, d.sta, d.lta)

/-- F, the label, the marks of inserted seconds and whether one is being repeated (R17, R30). -/
def Tmb.course (t : Tmb) : Int × Nat × List Nat × Bool := (t.freq, t.label, t.marks, t.repeating)

/-- What the ranges and the invariants of station time speak of. -/
def State.guarded (s : State) : List Strobe × Six (Int × Int × Int) × (Int × Nat × List Nat × Bool) × (Nat × Nat) × Tables :=
  (s.sif.strobes, s.det.map Detector.averages, s.tmb.course, (s.bmn.q, s.bmn.r), s.tables)

theorem guarded_fields (h : t.guarded = s.guarded) :
    t.sif.strobes = s.sif.strobes ∧ (∀ c, (t.det.get c).averages = (s.det.get c).averages) ∧ t.tmb.course = s.tmb.course ∧
      (t.bmn.q = s.bmn.q ∧ t.bmn.r = s.bmn.r) ∧ t.tables = s.tables := by
  simp only [State.guarded, Prod.mk.injEq] at h
  obtain ⟨strobes, det, course, charge, tables⟩ := h
  refine ⟨strobes, fun c => ?_, course, charge, tables⟩
  rw [← Six.get_map Detector.averages, det, Six.get_map]

/-! ### Views that are finer -/

theorem Alerts.guarded (h : Alerts s t) : t.guarded = s.guarded := by
  obtain ⟨a, c, q, rfl⟩ := h
  rfl

theorem Events.guarded (h : Events s t) : t.guarded = s.guarded := by
  obtain ⟨e, w, a, c, q, rfl⟩ := h
  rfl

theorem Packs.guarded (h : Packs s t) : t.guarded = s.guarded := by
  obtain ⟨c, q, g, o, p, rfl⟩ := h
  rfl

theorem guarded_of_butSwitching (h : t.butSwitching = s.butSwitching) : t.guarded = s.guarded := by
  obtain ⟨-, -, -, sif, -, -, bmn, -, -, tables, -⟩ := butSwitching_fields h
  have det : t.det.map Detector.averages = s.det.map Detector.averages := by
    refine Six.ext_get fun c => ?_
    rw [Six.get_map, Six.get_map]
    have e := congrArg Detector.averages (butSwitching_det h c)
    exact e
  have course : t.tmb.course = s.tmb.course := by
    have e := congrArg Tmb.course (butSwitching_tmb h)
    exact e
  simp only [State.guarded, sif, bmn, tables, det, course]

@[simp] theorem settle_guarded (s : State) : (settle s).guarded = s.guarded :=
  guarded_of_butSwitching (settle_butSwitching s)

@[simp] theorem switchOff_guarded (l : Fin 8) (s : State) : (switchOff l s).guarded = s.guarded :=
  guarded_of_butSwitching (switchOff_butSwitching l s)

@[simp] theorem count_guarded (k : Fin 40) (s : State) : (count k s).guarded = s.guarded := (count_alerts k s).guarded

@[simp] theorem countTimes_guarded (n : Nat) (k : Fin 40) (s : State) : (countTimes n k s).guarded = s.guarded := by
  induction n generalizing s with
  | zero => rfl
  | succ n ih => rw [countTimes, ih, count_guarded]

@[simp] theorem queueNotice_guarded (b : NoticeBody) (d : Nat) (s : State) : (queueNotice b d s).guarded = s.guarded := rfl

@[simp] theorem reportCondition_guarded (cls : Fin 8) (value : Bool) (p : AlertPayload) (s : State) :
    (reportCondition cls value p s).guarded = s.guarded := (reportCondition_alerts cls value p s).guarded

/-! ### Time passing, and changes of one block -/

@[simp] theorem passTime_guarded (dt : Nat) (s : State) : (passTime dt s).guarded = s.guarded := by
  obtain ⟨n, r, w, h⟩ := Tmb.run_eq dt s.tmb
  have course : (s.tmb.run dt).course = s.tmb.course := by rw [h]; rfl
  simp only [State.guarded, passTime_sif, passTime_det, passTime_tmb, passTime_bmn, passTime_tables, course]

@[simp] theorem runToOsc_guarded (n : Nat) (s : State) : (runToOsc n s).guarded = s.guarded := passTime_guarded _ s

@[simp] theorem runToStation_guarded (ns : Nat) (s : State) : (runToStation ns s).guarded = s.guarded := by
  unfold runToStation
  split
  · exact passTime_guarded _ s
  · rfl

@[simp] theorem withLda_guarded (f : Lda → Lda) (s : State) : (s.withLda f).guarded = s.guarded := rfl
@[simp] theorem withHzc_guarded (f : Hzc → Hzc) (s : State) : (s.withHzc f).guarded = s.guarded := rfl
@[simp] theorem withLnk_guarded (f : Lnk → Lnk) (s : State) : (s.withLnk f).guarded = s.guarded := rfl
@[simp] theorem withWfs_guarded (f : Wfs → Wfs) (s : State) : (s.withWfs f).guarded = s.guarded := rfl
@[simp] theorem withAlu_guarded (f : Alu → Alu) (s : State) : (s.withAlu f).guarded = s.guarded := rfl

theorem withTmb_guarded_congr {f g : Tmb → Tmb} (h : (f s.tmb).course = (g s.tmb).course) :
    (s.withTmb f).guarded = (s.withTmb g).guarded := by
  simp only [State.guarded, State.withTmb_sif, State.withTmb_det, State.withTmb_tmb, State.withTmb_bmn, State.withTmb_tables, h]

theorem withTmb_guarded {f : Tmb → Tmb} (h : (f s.tmb).course = s.tmb.course) : (s.withTmb f).guarded = s.guarded :=
  withTmb_guarded_congr (g := id) h

/-! ### LDA and HZC -/

@[simp] theorem endRest_guarded (l : Fin 8) (s : State) : (endRest l s).guarded = s.guarded :=
  guarded_of_butSwitching (endRest_butSwitching l s)

@[simp] theorem placeRequest_guarded (l : Fin 8) (x : Request) (s : State) : (placeRequest l x s).guarded = s.guarded :=
  guarded_of_butSwitching (placeRequest_butSwitching l x s)

@[simp] theorem withdrawRequest_guarded (l : Fin 8) (s : State) : (withdrawRequest l s).guarded = s.guarded :=
  guarded_of_butSwitching (withdrawRequest_butSwitching l s)

@[simp] theorem refreshRequests_guarded (s : State) : (refreshRequests s).guarded = s.guarded := withLda_guarded _ s
@[simp] theorem ldaRestart_guarded (s : State) : (ldaRestart s).guarded = s.guarded := withLda_guarded _ s

@[simp] theorem endSuspension_guarded (s : State) : (endSuspension s).guarded = s.guarded :=
  guarded_of_butSwitching (endSuspension_butSwitching s)

@[simp] theorem endColdWait_guarded (s : State) : (endColdWait s).guarded = s.guarded :=
  guarded_of_butSwitching (endColdWait_butSwitching s)

@[simp] theorem inrushWrite_guarded (old : StationTable) (s : State) : (inrushWrite old s).guarded = s.guarded := by
  unfold inrushWrite
  dsimp only
  split <;> rfl

/-- A fold of steps that leave the view leaves it. -/
theorem foldl_guarded {α : Type} {f : State → α → State} (hf : ∀ s x, (f s x).guarded = s.guarded) (l : List α) (s : State) :
    (l.foldl f s).guarded = s.guarded :=
  fold_keeps (R := fun s t => t.guarded = s.guarded) (fun _ => rfl) (fun h h' => h'.trans h) hf l s

@[simp] theorem onsetA5_guarded (p : AlertPayload) (s : State) : (onsetA5 p s).guarded = s.guarded := by simp [onsetA5]

@[simp] theorem reportA5_guarded (first : Bool) (before : Hzc) (s : State) : (reportA5 first before s).guarded = s.guarded := by
  have zones (l : List (Fin 6)) (s : State) := foldl_guarded (l := l) (s := s)
    (f := fun s z => if (s.hzc.zones.get z).below && !(before.zones.get z).below then onsetA5 (zonePayload z s) s else s)
    (by intro s z; split <;> simp)
  have sensors (l : List (Fin 4)) (s : State) := foldl_guarded (l := l) (s := s)
    (f := fun s t => if s.hzc.faultySensors.get t && !before.faultySensors.get t then
      onsetA5 (.temperature (.sensor t) none) s else s)
    (by intro s z; split <;> simp)
  unfold reportA5
  dsimp only
  split
  · rw [sensors, zones]
  · rw [reportCondition_guarded, withHzc_guarded, sensors, zones]

@[simp] theorem judgeAndRemember_guarded (temps : Four (Option Int)) (s : State) :
    (judgeAndRemember temps s).guarded = s.guarded := by
  unfold judgeAndRemember
  rw [foldl_guarded fun s z => by rw [rememberOne_eq]; exact withLda_guarded _ s]
  simp [judgeZonesWith]

@[simp] theorem judgeZones_guarded (s : State) : (judgeZones s).guarded = s.guarded := by
  unfold judgeZones
  split
  · rfl
  · exact judgeAndRemember_guarded _ s

/-! ### LNK -/

@[simp] theorem judgeListening_guarded (s : State) : (judgeListening s).guarded = s.guarded := rfl
@[simp] theorem judgeAddress_guarded (s : State) : (judgeAddress s).guarded = s.guarded := rfl
@[simp] theorem lnkTick_guarded (s : State) : (lnkTick s).guarded = s.guarded := rfl
@[simp] theorem lnkRestart_guarded (straps : Byte) (s : State) : (lnkRestart straps s).guarded = s.guarded := rfl
@[simp] theorem fillReply_guarded (x : Reply) (s : State) : (fillReply x s).guarded = s.guarded := rfl
@[simp] theorem radioReady_guarded (s : State) : (radioReady s).guarded = s.guarded := rfl

@[simp] theorem lnkShed_guarded (wasFull : Bool) (s : State) : (lnkShed wasFull s).guarded = s.guarded := by
  unfold lnkShed
  split <;> rfl

@[simp] theorem closeFull_guarded (s : State) : (closeFull s).guarded = s.guarded := (closeFull_packs s).guarded

@[simp] theorem streamWrite_guarded (old : Six ChannelEntry) (s : State) : (streamWrite old s).guarded = s.guarded := by
  unfold streamWrite
  dsimp only
  split
  · rfl
  · split <;> exact (closeData_packs s).guarded

@[simp] theorem completeTransmission_guarded (s : State) : (completeTransmission s).guarded = s.guarded := by
  simp [completeTransmission]

@[simp] theorem beginFrame_guarded (s : State) : (beginFrame s).guarded = s.guarded := by
  unfold beginFrame
  split
  · simp [sendAlert, startSending]
  · split
    · rfl
    · split
      · rfl
      · split
        · have h : Events s (advanceJob s) := by
            unfold advanceJob
            split
            · exact .refl s
            · exact withWfs_events _ s
          simp [startSending, h.guarded]
        · split <;> rfl

/-! ### TMB's work without a change of the label -/

@[simp] theorem judgeA3_guarded (s : State) : (judgeA3 s).guarded = s.guarded := by
  unfold judgeA3
  dsimp only
  split
  · rfl
  · rw [reportCondition_guarded]
    rfl

@[simp] theorem requestGnss_guarded (s : State) : (requestGnss s).guarded = s.guarded := by
  unfold requestGnss
  split <;> simp

@[simp] theorem enterHoldover_guarded (s : State) : (enterHoldover s).guarded = s.guarded := withTmb_guarded rfl

@[simp] theorem releaseGnss_guarded (s : State) : (releaseGnss s).guarded = s.guarded := by
  unfold releaseGnss
  dsimp only
  rw [switchOff_guarded]
  split <;> rfl

@[simp] theorem dutyRelease_guarded (s : State) : (dutyRelease s).guarded = s.guarded := by
  unfold dutyRelease
  split <;> simp

@[simp] theorem dutyRequest_guarded (s : State) : (dutyRequest s).guarded = s.guarded := by
  unfold dutyRequest
  split <;> simp

@[simp] theorem judgeWay_guarded (s : State) : (judgeWay s).guarded = s.guarded := by
  have way : (s.withTmb fun t => { t with way := wayNow s }).guarded = s.guarded := withTmb_guarded rfl
  unfold judgeWay
  dsimp only
  split
  · rfl
  · split <;> simp [way]

@[simp] theorem settleGnss_guarded (s : State) : (settleGnss s).guarded = s.guarded := by
  unfold settleGnss
  split <;> rfl

@[simp] theorem holdoverEntry_guarded (s : State) : (holdoverEntry s).guarded = s.guarded := by
  unfold holdoverEntry
  split <;> simp

@[simp] theorem driftingEntry_guarded (was : TimeQuality) (s : State) : (driftingEntry was s).guarded = s.guarded := by
  unfold driftingEntry
  split <;> rfl

@[simp] theorem tmbTick_guarded (s : State) : (tmbTick s).guarded = s.guarded := by
  have counts (on : Bool) (drift : Nat) : (s.withTmb (Tmb.tickCounts on drift)).guarded = s.guarded := withTmb_guarded rfl
  simp [tmbTick, counts]

/-- A second tick moves the counts of seconds alone. -/
@[simp] theorem tickBlocks_guarded (s : State) : (tickBlocks s).guarded = s.guarded := by
  simp only [tickBlocks, lnkTick_guarded, (aluTick_alerts _).guarded, (wfsTick_events _).guarded, tmbTick_guarded]

@[simp] theorem tmbRestart_guarded (s : State) : (tmbRestart s).guarded = s.guarded := by
  unfold tmbRestart
  dsimp only
  rw [dutyRequest_guarded, judgeA3_guarded]
  rfl

@[simp] theorem timeMessage_guarded (bytes : List Byte) (s : State) : (timeMessage bytes s).guarded = s.guarded := by
  unfold timeMessage
  split <;> rfl

/-! ### The shed level, WFS and CMD -/

@[simp] theorem cancelJob_guarded (c : CancelCause) (s : State) : (cancelJob c s).guarded = s.guarded :=
  (cancelJob_events c s).guarded

@[simp] theorem handLevel_guarded (wasFull : Bool) (s : State) : (handLevel wasFull s).guarded = s.guarded := by
  have h : (aluShed (judgeZones (judgeWay (judgeListening (lnkShed wasFull s))))).guarded = s.guarded := by
    simp [(aluShed_alerts _).guarded]
  unfold handLevel
  dsimp only
  split
  · rw [cancelJob_guarded, h]
  · exact h

@[simp] theorem levelStage_guarded (before : Bool) (s : State) : (levelStage before s).guarded = s.guarded := by
  unfold levelStage
  dsimp only
  split
  · rfl
  · simp only [changeLevel, reportA4, reportCondition_guarded, handLevel_guarded]
    split <;> rfl

@[simp] theorem saveComplete_guarded (readBack : List Byte) (s : State) : (saveComplete readBack s).guarded = s.guarded := by
  unfold saveComplete
  split
  · rfl
  · dsimp only
    split <;> rfl

@[simp] theorem saveNoAnswer_guarded (written : Nat) (s : State) : (saveNoAnswer written s).guarded = s.guarded := by
  unfold saveNoAnswer
  split <;> rfl

@[simp] theorem aluWrite_guarded (cls : Fin 8) (old : AlertEntry) (s : State) : (aluWrite cls old s).guarded = s.guarded :=
  (aluWrite_alerts cls old s).guarded

theorem eachIndex_guarded {f : Nat → State → State} (hf : ∀ i s, (f i s).guarded = s.guarded) (first n : Nat) (s : State) :
    (eachIndex f first n s).guarded = s.guarded := by
  induction n generalizing first s with
  | zero => rfl
  | succ n ih => rw [eachIndex, ih, hf]

end Sys2Proof.Machine
end

section
/-!
SUPPORT. Every command, walked once: `StepLaws R` lists what a relation between the states before and after has to hold of for
each operation that a command is made of, and `step_of_laws` says that it then holds of every step.
-/

namespace Sys2Proof.Machine

/-- `R` holds between the states before and after each operation that the commands are made of. -/
structure StepLaws (R : State → State → Prop) : Prop where
  refl : ∀ s, R s s
  trans : ∀ {s t u}, R s t → R t u → R s u
  pending : ∀ s l, R s { s with pending := l }
  passTime : ∀ dt s, R s (passTime dt s)
  settle : ∀ s, R s (settle s)
  count : ∀ k s, R s (count k s)
  coldStart : ∀ straps answers s, R s (coldStart straps answers s)
  powerDown : ∀ supply disconnect s, R s (powerDown supply disconnect s)
  strobeInstant : ∀ s, R s (strobeInstant s)
  digitizerFrame : ∀ bytes s, R s (digitizerFrame bytes s)
  secondBoundary : ∀ s, R s (secondBoundary s)
  timeMessage : ∀ bytes s, R s (timeMessage bytes s)
  ppsEdge : ∀ s, R s (ppsEdge s)
  beginFrame : ∀ s, R s (beginFrame s)
  completeTransmission : ∀ s, R s (completeTransmission s)
  radioReady : ∀ s, R s (radioReady s)
  receiver : ∀ x n s, R s (s.withLnk fun l => { l with receiver := x, rxLeft := n })
  scheduleScan : ∀ s, R s (s.withBmn fun b => { b with nextScan := b.nextScan + Config.second })
  scan : ∀ x s, R s (scan x s)
  switchOff : ∀ l s, R s (switchOff l s)
  endRest : ∀ l s, R s (endRest l s)
  endSuspension : ∀ s, R s (endSuspension s)
  endColdWait : ∀ s, R s (endColdWait s)
  saveComplete : ∀ bytes s, R s (saveComplete bytes s)
  saveNoAnswer : ∀ n s, R s (saveNoAnswer n s)
  reservePlace : ∀ p s, s.lnk.replies.length < 6 → R s (s.withLnk fun l => { l with replies := l.replies ++ [p] })
  fillReply : ∀ x s, R s (fillReply x s)
  perform : ∀ c centre tag s, R s (perform c centre tag s).state
  warmRestart : ∀ straps s, R s (warmRestart straps s)

namespace StepLaws

variable {R : State → State → Prop} {s t : State} {f : State → State}

/-! ### The forms of a step -/

theorem taken (L : StepLaws R) {p : Prop} [Decidable p] (hf : ∀ u, R u (f u)) :
    R s (if p then Machine.settle (f s) else s) := by
  split
  · exact L.trans (hf s) (L.settle _)
  · exact L.refl s

theorem stepOf (L : StepLaws R) (h : stepOf f s = .next t) (hf : ∀ u, R u (f u)) : R s t := by
  cases h
  exact L.taken hf

theorem stepWhen (L : StepLaws R) {due : State → Bool} (h : stepWhen due f s = .next t) (hf : ∀ u, R u (f u)) : R s t := by
  cases h
  exact L.taken hf

theorem stepIf (L : StepLaws R) {happens : State → State → Bool} (h : stepIf happens f s = .next t)
    (hf : ∀ u, R u (f u)) : R s t := by
  cases h
  exact L.taken hf

/-- An operation after some oscillator time. -/
theorem later (L : StepLaws R) (dt : Nat) (hf : ∀ u, R u (f u)) (u : State) : R u (f (Machine.passTime dt u)) :=
  L.trans (L.passTime dt u) (hf _)

theorem stepAfter (L : StepLaws R) {after : Nat} (h : stepAfter after f s = .next t) (hf : ∀ u, R u (f u)) : R s t :=
  L.stepOf h (L.later after hf)

theorem runToStation (L : StepLaws R) (ns : Nat) (s : State) : R s (runToStation ns s) := by
  unfold Machine.runToStation
  split
  · exact L.passTime _ s
  · exact L.refl s

/-! ### Samples, ticks and scans -/

theorem runStrobe (L : StepLaws R) (s : State) : R s (runStrobe s) := by
  unfold Machine.runStrobe
  split
  · exact L.trans (L.runToStation _ s) (L.strobeInstant _)
  · exact L.refl s

theorem runSecond (L : StepLaws R) (s : State) : R s (runSecond s) :=
  L.trans (L.runToStation _ s) (L.secondBoundary _)

theorem stepInstant (L : StepLaws R) {p : Instant → Bool} {via : InstantStep} (h : stepInstant p via s = .next t) :
    R s t := by
  refine L.stepWhen h fun u => ?_
  cases via with
  | strobe => exact L.runStrobe u
  | frame after bytes => exact L.later after (L.digitizerFrame bytes) u

theorem stepTick (L : StepLaws R) {p : State → Bool} (h : stepTick p s = .next t) : R s t := L.stepWhen h L.runSecond

theorem runScan (L : StepLaws R) (x : MonitorInputs) (s : State) : R s (runScan x s) :=
  L.trans (L.trans (L.passTime _ s) (L.scheduleScan _)) (L.scan x _)

/-! ### The commands of the centres -/

theorem execute (L : StepLaws R) (straps : Byte) (c : Command) (centre : Nat) (tag : Byte) (place : Bool) (s : State) :
    R s (execute straps c centre tag place s) := by
  have counted : R s (countStatus (Machine.perform c centre tag s).status (Machine.perform c centre tag s).state) := by
    refine L.trans (L.perform c centre tag s) ?_
    unfold countStatus
    split <;> exact L.count _ _
  unfold Machine.execute
  dsimp only
  split
  · exact L.trans counted (L.warmRestart straps _)
  · split
    · exact L.trans counted (L.fillReply _ _)
    · exact counted

theorem takeCommand (L : StepLaws R) (straps centre tag : Byte) (broadcast : Bool) (c : Command) (s : State) :
    R s (takeCommand straps centre tag broadcast c s) := by
  unfold Machine.takeCommand
  split
  · exact L.count _ s
  · split
    · split
      · exact L.execute ..
      · exact L.count _ s
    · split
      · exact L.count _ s
      · next room => exact L.trans (L.reservePlace _ s (Nat.lt_of_not_le room)) (L.execute ..)

theorem fromCentreWith (L : StepLaws R) {straps : Byte} {src : Sender} {c : Command}
    (h : fromCentreWith straps src c s = .next t) : R s t :=
  L.stepAfter h fun u => L.takeCommand straps src.centre src.tag src.broadcast c u

/-! ### The downstream line (section 7.6) -/

theorem setReceiver (L : StepLaws R) (x : Receiver) (s : State) : R s (setReceiver x s) := L.receiver x s.lnk.rxLeft s

theorem judgeFrame (L : StepLaws R) (straps : Byte) (bytes : List Byte) (s : State) : R s (judgeFrame straps bytes s) := by
  unfold Machine.judgeFrame
  dsimp only
  split
  · exact L.count 25 s
  · split
    · exact L.refl s
    · exact L.trans (L.takeCommand ..) (L.settle _)

theorem receiveInFrame (L : StepLaws R) (straps : Byte) (bytes : List Byte) (s : State) :
    R s (receiveInFrame straps bytes s) := by
  unfold Machine.receiveInFrame
  split
  · exact L.setReceiver _ s
  · exact L.trans (L.setReceiver _ s) (L.count 25 _)
  · exact L.trans (L.setReceiver _ s) (L.judgeFrame ..)

theorem receiveByte (L : StepLaws R) (straps b : Byte) (s : State) : R s (receiveByte straps b s) := by
  have hunt : R s (hunt b s) := L.setReceiver _ s
  unfold Machine.receiveByte
  split
  · exact hunt
  · split
    · exact L.setReceiver _ s
    · exact hunt
  · exact L.receiveInFrame ..
  · split
    · exact L.setReceiver _ s
    · exact hunt
  · unfold loseInFrame
    split <;> exact L.setReceiver _ s

theorem receiveTimeout (L : StepLaws R) (s : State) : R s (receiveTimeout s) := by
  unfold Machine.receiveTimeout
  split
  · exact L.refl s
  · split
    · exact L.trans (L.setReceiver _ s) (L.count 25 _)
    · exact L.setReceiver _ s

theorem receiveBytes (L : StepLaws R) (straps : Byte) (bytes : List Byte) (s : State) :
    R s (receiveBytes straps bytes s) := by
  have taken : R s (bytes.foldl (fun s b => Machine.receiveByte straps b s) (Machine.receiveTimeout s)) :=
    L.trans (L.receiveTimeout s) (fold_keeps L.refl L.trans (fun s b => L.receiveByte straps b s) bytes _)
  unfold Machine.receiveBytes
  dsimp only
  split
  · exact taken
  · exact L.trans taken (L.receiver _ receiveGap _)

/-! ### Every command -/

theorem exec (L : StepLaws R) {c : Instr} (h : exec c s = .next t) : R s t := by
  cases c with
  | powerOn straps answers =>
    cases h
    exact L.trans (L.coldStart straps answers s) (L.settle _)
  | supplyLoss =>
    cases h
    exact L.powerDown .off _ s
  | strobe => exact L.stepWhen h L.runStrobe
  | digitizerFrame after bytes => exact L.stepAfter h (L.digitizerFrame bytes)
  | warmUpComplete _ _ | forcedTriggerOff _ _ | blankingEnd _ _ | contributionEnd _ _ | forcedClosing _ | eventClose _
  | quietTailEnd _ | segmentComplete _ => exact L.stepInstant h
  | secondTick => exact L.stepOf h L.runSecond
  | holdExpiry _ | reCheckEnd _ | repeatDue _ | holdoverEntry | driftingEntry | restartAgeExpiry | gnssSettled
  | dutyRelease | refixRequest | refixBoundCrossed | listenPeriod | listenWindowEnd => exact L.stepTick h
  | timeMessage _ bytes => exact L.stepAfter h (L.timeMessage bytes)
  | ppsEdge _ => exact L.stepAfter h L.ppsEdge
  | frameBegin => exact L.stepWhen h L.beginFrame
  | transmissionComplete =>
    change execTransmissionComplete s = _ at h
    exact L.stepWhen h fun u => L.later _ L.completeTransmission u
  | warmUpExpiry =>
    change execWarmUpExpiry s = _ at h
    exact L.stepWhen h fun u => L.later _ L.radioReady u
  | lingerExpiry =>
    change execLingerExpiry s = _ at h
    exact L.stepWhen h fun u => L.later _ (L.switchOff 0) u
  | downstreamFrame after bytes => exact L.stepAfter h (L.receiveBytes after.straps bytes)
  | receiveTimeout =>
    change execReceiveTimeout s = _ at h
    exact L.stepWhen h fun u => L.later _ L.receiveTimeout u
  | payloadLengthAbove96 after header =>
    change execPayloadLengthAbove96 after header s = _ at h
    exact L.stepWhen h fun u => L.later after (L.receiveBytes u.straps (encodeHeader header)) u
  | scan x => exact L.stepOf h (L.runScan x)
  | fullRecalibration x =>
    change execFullRecalibration x s = _ at h
    exact L.stepIf h (L.runScan x)
  | cutoff x =>
    change execCutoff x s = _ at h
    exact L.stepIf h (L.runScan x)
  | voltageOverride x =>
    change execVoltageOverride x s = _ at h
    exact L.stepWhen h (L.runScan x)
  | overrideRelease x =>
    change execOverrideRelease x s = _ at h
    exact L.stepWhen h (L.runScan x)
  | spacingExpiry =>
    change execSpacingExpiry s = _ at h
    exact L.stepWhen h fun u => L.passTime _ u
  | inrushAgeExpiry =>
    change execInrushAgeExpiry s = _ at h
    exact L.stepWhen h fun u => L.passTime _ u
  | inrushSuspensionEnd =>
    change execInrushSuspensionEnd s = _ at h
    exact L.stepWhen h fun u => L.later _ L.endSuspension u
  | coldStartWaitEnd =>
    change execColdStartWaitEnd s = _ at h
    exact L.stepWhen h fun u => L.later _ L.endColdWait u
  | burstEnd l =>
    change execBurstEnd l s = _ at h
    exact L.stepWhen h fun u => L.later _ (L.switchOff l) u
  | restEnd l =>
    change execRestEnd l s = _ at h
    exact L.stepWhen h fun u => L.later _ (L.endRest l) u
  | saveComplete _ bytes => exact L.stepAfter h (L.saveComplete bytes)
  | saveNoAnswer _ n => exact L.stepAfter h (L.saveNoAnswer n)
  | hold _ _ _ | release _ _ | waveRequest _ _ _ _ | waveCancel _ | alertAck _ _ | alertList _ | loadTest _ _ _
  | status _ | tableWriteStation _ _ _ _ | tableWriteChannel _ _ _ _ | tableWriteEvent _ _ _ _
  | tableWriteTime _ _ _ _ | tableWriteCorrection _ _ _ _ | tableWriteAlert _ _ _ _ | tableWriteLoad _ _ _ _
  | tableWriteZone _ _ _ _ | tableWriteBattery _ _ _ _ | tableWriteCountermask _ _ _ _ | tableRead _ _ _ _
  | counterRead _ _ _ | counterClear _ _ _ | timeSet _ _ _ | eventList _ | eventRead _ _ | save _ | restart _ =>
    exact L.fromCentreWith h

/-- A relation with these laws holds of every step. -/
theorem step (L : StepLaws R) (h : step s = .next t) : R s t := by
  obtain e | ⟨c, rest, -, h⟩ := step_cases h
  · exact e ▸ L.refl s
  · exact L.trans (L.pending s rest) (L.exec h)

end StepLaws

end Sys2Proof.Machine
end

section
/-!
SUPPORT. The ranges of the detectors' values (R42, R44): each stage stays between its value and its input, so a sample of 24 bits
keeps B, S and L within their ranges.
-/

namespace Sys2Proof.Machine

variable {s t : State}

/-! ### The stages -/

/-- A step toward an input leaves no interval that holds both (R42, R44). -/
theorem toward_mem {lo hi v y : Int} (hv : lo ≤ v ∧ v ≤ hi) (hy : lo ≤ y ∧ y ≤ hi) (k : Nat) :
    lo ≤ toward v y k ∧ toward v y k ≤ hi := by
  obtain ⟨hvl, hvh⟩ := hv
  obtain ⟨hyl, hyh⟩ := hy
  have hp : (1 : Int) ≤ 2 ^ k := one_le_pow₀ (by decide)
  unfold toward
  obtain up | down := le_total v y
  · have h0 : 0 ≤ (y - v) / 2 ^ k := Int.ediv_nonneg (by omega) (by omega)
    have h1 : (y - v) / 2 ^ k ≤ y - v := Int.ediv_le_self _ (by omega)
    omega
  · have h0 : (y - v) / 2 ^ k ≤ 0 := Int.ediv_nonpos_of_nonpos_of_neg (by omega) (by omega)
    have h1 : y - v ≤ (y - v) / 2 ^ k := by
      rw [Int.le_ediv_iff_mul_le (by omega)]
      nlinarith
    omega

/-- The ranges of B, S and L (chapter 3, state table). -/
def AveragesInRange (a : Int × Int × Int) : Prop :=
  (-2147483648 ≤ a.1 ∧ a.1 ≤ 2147483392) ∧ (0 ≤ a.2.1 ∧ a.2.1 ≤ 4294967040) ∧ 0 ≤ a.2.2 ∧ a.2.2 ≤ 4294967040

theorem ratioStage_averages (e : ChannelEntry) (d : Detector) : (ratioStage e d).1.averages = d.averages := by
  unfold ratioStage
  split
  · rfl
  · rfl
  · split
    · rfl
    · split <;> rfl
  · split <;> rfl

/-- A characteristic value is a magnitude of 24 bits (R43). -/
theorem characteristic_le (clip : Bool) (d : Int) : characteristic clip d ≤ 16777215 := by
  unfold characteristic
  split
  · exact le_refl _
  · exact min_le_left _ _

/-- The stages keep the ranges (R42 to R44, R53). -/
theorem sampleWork_averages (e : ChannelEntry) (blanked forced : Bool) {x : Int} (clip : Bool) {d : Detector}
    (hx : inSampleRange x) (h : AveragesInRange d.averages) :
    AveragesInRange (sampleWork e blanked forced x clip d).det.averages := by
  obtain ⟨hb, hs, hl⟩ := h
  obtain ⟨lo, hi⟩ := hx
  have first : -2147483648 ≤ x * 256 ∧ x * 256 ≤ 2147483392 := by omega
  have b := toward_mem hb first e.h
  have hy (m : Int) : (0 : Int) ≤ (characteristic clip m : Int) * 256 ∧ (characteristic clip m : Int) * 256 ≤ 4294967040 := by
    have := characteristic_le clip m
    omega
  have sta := toward_mem hs (hy (departure (stage1 e.h d.baseline x) x)) e.a
  have lta : 0 ≤ (if d.state = .triggered then d.lta else
        toward d.lta (characteristic clip (departure (stage1 e.h d.baseline x) x) * 256) e.b) ∧
      (if d.state = .triggered then d.lta else
        toward d.lta (characteristic clip (departure (stage1 e.h d.baseline x) x) * 256) e.b) ≤ 4294967040 := by
    split
    · exact hl
    · exact toward_mem hl (hy _) e.b
  unfold sampleWork
  dsimp only
  split
  · exact ⟨first, hs, hl⟩
  · split
    · exact ⟨b, hs, hl⟩
    · split
      · exact ⟨b, sta, lta⟩
      · rw [ratioStage_averages]
        exact ⟨b, sta, lta⟩

/-- An instant keeps a detector's ranges (R41). -/
theorem detectorInstant_averages (e : ChannelEntry) (rate : Nat) {item : Option (Int × Bool)} {d : Detector}
    (hi : ∀ i ∈ item, inSampleRange i.1) (h : AveragesInRange d.averages) :
    AveragesInRange (detectorInstant e rate item d).det.averages := by
  unfold detectorInstant
  split
  · exact h
  · dsimp only
    have timed : AveragesInRange (if (d.state == .triggered) = true then { d with timer := d.timer + 1 } else d).averages := by
      split <;> exact h
    generalize (if (d.state == .triggered) = true then { d with timer := d.timer + 1 } else d) = d' at timed ⊢
    generalize (d.state == .triggered && decide (e.maxTrigger * rate ≤ d'.timer)) = forced
    cases item with
    | none => split <;> exact timed
    | some i =>
      have work := sampleWork_averages e (decide (0 < d'.blank)) forced i.2 (hi i rfl) timed
      split <;> exact work

/-! ### The bank and the strobe list -/

/-- The samples of an item are of 24 bits. -/
def ItemInRange (item : SampleItem) : Prop := ∀ i ∈ item, ∀ c, inSampleRange (i.1.get c)

/-- The frames that a list holds have samples of 24 bits. -/
def FramesInRange (l : List Strobe) : Prop := ∀ e ∈ l, ∀ f ∈ e.frame, ∀ c, inSampleRange (f.samples.get c)

/-- The detectors' values stand within their ranges. -/
def BankInRange (s : State) : Prop := ∀ c, AveragesInRange (s.det.get c).averages

theorem detectorRanges_iff : DetectorRanges s ↔ BankInRange s ∧ FramesInRange s.sif.strobes := by
  simp only [DetectorRanges, BankInRange, FramesInRange, AveragesInRange, Detector.averages, and_assoc]

theorem BankInRange.congr (h : BankInRange s) (e : ∀ c, (t.det.get c).averages = (s.det.get c).averages) : BankInRange t :=
  fun c => (e c).symm ▸ h c

theorem averages_eq {d d' : Detector} (b : d'.baseline = d.baseline) (x : d'.sta = d.sta) (l : d'.lta = d.lta) :
    d'.averages = d.averages := by rw [Detector.averages, b, x, l]; rfl

theorem sampleInstant_bank (st : Stamp) {item : SampleItem} (hi : ItemInRange item) (h : BankInRange s) :
    BankInRange (sampleInstant st item s) := by
  intro c
  obtain ⟨⟨hb, hx, hl, -⟩, -⟩ := unblanked_fields (sampleInstant_det st item s c)
  rw [averages_eq hb hx hl, bankInstant_get]
  refine detectorInstant_averages _ _ (fun i him => ?_) (h c)
  obtain ⟨j, hj, rfl⟩ := Option.map_eq_some_iff.mp him
  exact hi j hj c

theorem Packs.bank (h : Packs s t) (hs : BankInRange s) : BankInRange t :=
  hs.congr (guarded_fields h.guarded).2.1

theorem Events.bank (h : Events s t) (hs : BankInRange s) : BankInRange t :=
  hs.congr (guarded_fields h.guarded).2.1

theorem declareMissing_bank (e : Strobe) (h : BankInRange s) : BankInRange (declareMissing e s) :=
  h.congr fun c => by
    obtain ⟨hb, hx, hl, -⟩ := declareMissing_averages e s c
    exact averages_eq hb hx hl

theorem deliver_bank (e : Strobe) {f : DigFrame} (hf : ∀ c, inSampleRange (f.samples.get c)) (h : BankInRange s) :
    BankInRange (deliver e f s) := by
  cases fault : f.fault with
  | true =>
    refine h.congr fun c => ?_
    obtain ⟨hb, hx, hl⟩ := deliver_averages_of_fault fault e s c
    exact averages_eq hb hx hl
  | false =>
    have noted (d : Delivered) : BankInRange (usableNoted d (acceptedNoted e s)) := by
      refine h.congr fun c => ?_
      rw [(usableNoted_blocks d _).1, (acceptedNoted_blocks e s).1]
    have item : ItemInRange (some (f.samples, f.clips)) := fun i hi => by
      obtain rfl : (f.samples, f.clips) = i := by simpa using hi
      exact hf
    rw [deliver_of_good fault]
    exact (packFrame_packs _ _).bank ((writeFrame_events _ _).bank (sampleInstant_bank _ item (noted _)))

theorem FramesInRange.tail {e : Strobe} {l : List Strobe} (h : FramesInRange (e :: l)) : FramesInRange l :=
  fun x hx => h x (List.mem_cons_of_mem e hx)

/-- Delivery from the front keeps the ranges (R4, R5). -/
theorem deliverFront_detectorRanges (n : Nat) (h : DetectorRanges s) : DetectorRanges (deliverFront n s) := by
  induction n generalizing s with
  | zero => exact h
  | succ n ih =>
    obtain ⟨bank, frames⟩ := detectorRanges_iff.mp h
    cases hs : s.sif.strobes with
    | nil => rw [deliverFront_of_nil _ hs]; exact h
    | cons e rest =>
      cases hf : e.frame with
      | none => rw [deliverFront_of_frameless _ hs hf]; exact h
      | some f =>
        rw [hs] at frames
        rw [deliverFront_of_frame _ hs hf]
        refine ih (detectorRanges_iff.mpr ⟨deliver_bank e (frames e (by simp) f hf) bank, ?_⟩)
        rw [(deliver_list e f _).1]
        exact frames.tail

theorem leave_bank {e : Strobe} (hf : ∀ f ∈ e.frame, ∀ c, inSampleRange (f.samples.get c)) (h : BankInRange s) :
    BankInRange (leave e s) := by
  unfold leave
  split
  · next f he => exact deliver_bank e (hf f he) h
  · exact declareMissing_bank e h

/-- A push-out keeps the ranges (R2). -/
theorem pushOut_detectorRanges (h : DetectorRanges s) : DetectorRanges (pushOut s) := by
  obtain ⟨bank, frames⟩ := detectorRanges_iff.mp h
  unfold pushOut
  split
  · exact h
  · split
    · exact h
    · next e rest hs =>
      rw [hs] at frames
      refine deliverFront_detectorRanges _ (detectorRanges_iff.mpr ⟨leave_bank (frames e (by simp)) bank, ?_⟩)
      rw [(leave_list e _).1]
      exact frames.tail

/-- A strobe's own entry holds no frame (R1). -/
theorem strobeInstant_detectorRanges (h : DetectorRanges s) : DetectorRanges (strobeInstant s) := by
  obtain ⟨bank, frames⟩ := detectorRanges_iff.mp (pushOut_detectorRanges h)
  refine detectorRanges_iff.mpr ⟨bank, fun e he f hf => ?_⟩
  obtain he | rfl := List.mem_append.mp he |>.imp_right List.mem_singleton.mp
  · exact frames e he f hf
  · cases hf

/-! ### Samples as they arrive -/

theorem beNat_lt (bs : List Byte) : beNat bs < 256 ^ bs.length := by
  induction bs with
  | nil => simp [beNat]
  | cons b bs ih =>
    have hb : b.toNat ≤ 255 := Nat.le_of_lt_succ b.isLt
    rw [beNat_cons, List.length_cons, pow_succ]
    nlinarith

/-- A run of bytes spells a two's complement value of its width. -/
theorem beInt_mem (bs : List Byte) (h : bs ≠ []) :
    -((256 ^ bs.length / 2 : Nat) : Int) ≤ beInt bs ∧ beInt bs < ((256 ^ bs.length / 2 : Nat) : Int) := by
  have lt := beNat_lt bs
  have even : 256 ^ bs.length = 2 * (256 ^ bs.length / 2) := by
    have : 2 ∣ 256 ^ bs.length := dvd_pow (by decide) (by simpa using h)
    omega
  unfold beInt
  dsimp only
  split <;> omega

/-- A frame that is read from its bytes has samples of 24 bits (section 1.2). -/
theorem decodeDigFrame_samples {bytes : List Byte} {f : DigFrame} (h : decodeDigFrame bytes = some f) (c : Fin 6) :
    inSampleRange (f.samples.get c) := by
  unfold decodeDigFrame at h
  dsimp only at h
  split at h
  · next good =>
    cases h
    have len : (field (1 + 3 * c.val) 3 bytes).length = 3 := by
      simp [field, good.1]
      omega
    have mem := beInt_mem (field (1 + 3 * c.val) 3 bytes) (List.ne_nil_of_length_pos (by omega))
    rw [len] at mem
    rw [Six.get_ofFn]
    simp only [inSampleRange]
    omega
  · cases h

theorem count_detectorRanges (k : Fin 40) (h : DetectorRanges s) : DetectorRanges (count k s) := by
  obtain ⟨q, -, e⟩ := count_eq k s
  rw [e]
  exact h

theorem digitizerFrame_detectorRanges (bytes : List Byte) (h : DetectorRanges s) :
    DetectorRanges (digitizerFrame bytes s) := by
  unfold digitizerFrame
  split
  · exact count_detectorRanges 1 h
  · next f hf =>
    unfold matchFrame
    split
    · split
      · exact count_detectorRanges 3 h
      · obtain ⟨bank, frames⟩ := detectorRanges_iff.mp h
        refine deliverFront_detectorRanges _ (detectorRanges_iff.mpr ⟨bank, fun e he g hg => ?_⟩)
        obtain ⟨x, hx, rfl⟩ := List.mem_map.mp he
        split at hg
        · obtain rfl : f = g := by simpa using hg
          exact decodeDigFrame_samples hf
        · exact frames x hx g hg
    · split <;> exact count_detectorRanges _ h

/-! ### Detectors at a start and at a write -/

theorem cold_averages (enable : Bool) : AveragesInRange (Cold.detector enable).averages := by
  cases enable <;> (simp only [AveragesInRange, Detector.averages, Cold.detector]; decide)

theorem detReset_bank (s : State) : BankInRange (detReset s) := fun c => by
  rw [detReset, Six.get_ofFn]
  exact cold_averages _

theorem updateDetector_bank (c : Fin 6) {f : Detector → Detector}
    (hf : AveragesInRange (f (s.det.get c)).averages) (h : BankInRange s) : BankInRange (updateDetector c f s) := by
  intro j
  rw [updateDetector, Six.get_set]
  split
  · exact hf
  · exact h j

/-- A write of a CHANNEL entry keeps B, S and L or starts them afresh from B (R58, R59). -/
theorem detWrite_bank (c : Fin 6) (old : ChannelEntry) (h : BankInRange s) : BankInRange (detWrite c old s) := by
  have report {u : State} (hu : BankInRange u) (d : Detector) :
      BankInRange (if d.state = .triggered then offBatchTriggerOff c u.now u else u) := by
    split
    · exact (offBatchTriggerOff_events c _ u).bank hu
    · exact hu
  obtain ⟨hb, -, -⟩ := h c
  obtain ⟨-, hs, hl⟩ := cold_averages true
  unfold detWrite
  dsimp only
  split
  · exact updateDetector_bank c ⟨hb, hs, hl⟩ h
  · split
    · exact report (updateDetector_bank c (h c) h) _
    · split
      · exact report (updateDetector_bank c (h c) h) _
      · exact h

end Sys2Proof.Machine
end

section
/-!
SUPPORT. Station time's crossings and steps, for a predicate on the state: `TimeLaws P` lists the moves that a crossing or a step
is made of, `EdgeLaws P` those of an edge and of TIME_SET, and each says that what is made of the moves keeps `P`.
-/

namespace Sys2Proof.Machine

variable {P : State → Prop} {s t : State}

/-- `P` is kept by each move that crossings and steps are made of. -/
structure TimeLaws (P : State → Prop) : Prop where
  quiet : ∀ {s t : State}, t.guarded = s.guarded → P s → P t
  landAt : ∀ {s : State} (label ns period : Nat), P s → P (s.withTmb (Tmb.landAt label ns period))
  endEntry : ∀ {s : State} (i : Fin 3) (status : CorrectionStatus), P s → P (endEntry i status s)
  markSecond : ∀ {s : State} (l : Nat), s.tmb.label ≤ l → P s → P (s.withTmb (Tmb.markSecond l))
  nextSecond : ∀ {s : State}, P s → P (s.withTmb Tmb.nextSecond)
  unrepeat : ∀ {s : State}, P s → P (s.withTmb fun t => { t with repeating := false })

namespace TimeLaws

/-- A change of TMB's other fields. -/
theorem withTmb (L : TimeLaws P) {f : Tmb → Tmb} (hf : ∀ u, (f u).course = u.course) (h : P s) : P (s.withTmb f) :=
  L.quiet (withTmb_guarded (hf s.tmb)) h

theorem count (L : TimeLaws P) (k : Fin 40) (h : P s) : P (count k s) := L.quiet (count_guarded k s) h

theorem stepOver (L : TimeLaws P) (label ns : Nat) (h : P s) : P (stepOver label ns s) := by
  unfold Machine.stepOver
  refine List.foldlRecOn _ _ (L.landAt label ns s.periodNs h) fun u hu i _ => ?_
  unfold missOne
  dsimp only
  split
  · exact L.endEntry i .missed hu
  · exact hu

/-- One firing, if what a landing does keeps `P`. -/
theorem fireOne (L : TimeLaws P) {land : Bool → State → State} (hl : ∀ b {u}, P u → P (land b u)) {entered : Nat}
    (i : Fin 3) (he : s.tmb.label ≤ entered) (h : P s) : P (fireOne land entered i s) := by
  have fired : P (Machine.count 39 (Machine.endEntry i .fired s)) := L.count 39 (L.endEntry i .fired h)
  obtain ⟨q, e⟩ := endEntry_eq i .fired s
  obtain ⟨q', -, e'⟩ := count_eq 39 (Machine.endEntry i .fired s)
  have label : (Machine.count 39 (Machine.endEntry i .fired s)).tmb.label = s.tmb.label := by rw [e', e]
  unfold Machine.fireOne
  dsimp only
  split
  · exact fired
  · exact L.markSecond entered (label ▸ he) fired
  · rw [fireDelete_cases]
    split
    · exact hl false (L.stepOver _ _ fired)
    · exact L.stepOver _ _ fired
  · unfold fireStep
    split
    · exact L.withTmb (fun _ => rfl) fired
    · dsimp only
      split
      · exact hl true (L.stepOver _ _ fired)
      · exact L.stepOver _ _ fired

/-- The entries of one target fire: the label being entered never lies behind station time. -/
theorem fireDue (L : TimeLaws P) {land : Bool → State → State} (hl : ∀ b {u}, P u → P (land b u)) (h : P s) :
    P (fireDue land s.tmb.label s) := by
  refine (List.foldlRecOn (motive := fun x : Nat × State => x.2.tmb.label ≤ x.1 ∧ P x.2) entriesInOrder
    (fireNext land s.tmb.label) (And.intro (Nat.le_refl s.tmb.label) h) fun x hx i _ => ?_).2
  obtain ⟨label, hx⟩ := hx
  unfold fireNext
  dsimp only
  split
  · exact ⟨le_enteredAfter _ _, L.fireOne hl i label hx⟩
  · exact ⟨label, hx⟩

theorem crossBoundary (L : TimeLaws P) (d : Nat) (ticks : Bool) (h : P s) : P (crossBoundary d ticks s) := by
  have ticked {u : State} (hu : P u) : P (if ticks then tickBlocks u else u) := by
    split
    · exact L.quiet (tickBlocks_guarded u) hu
    · exact hu
  induction d generalizing ticks s with
  | zero => exact ticked h
  | succ d ih =>
    exact ticked (L.fireDue (fun b _ hu => ih b hu fun hv => by
      split
      · exact L.quiet (tickBlocks_guarded _) hv
      · exact hv) h)

theorem stepTo (L : TimeLaws P) (label ns : Nat) (h : P s) : P (stepTo label ns s) := by
  have counted := L.count 39 (L.stepOver label ns h)
  unfold Machine.stepTo
  dsimp only
  split
  · exact L.crossBoundary _ true counted
  · exact counted

theorem stepToEdge (L : TimeLaws P) (label : Nat) (h : P s) : P (stepToEdge label s) := by
  unfold Machine.stepToEdge
  split
  · exact L.quiet (tickBlocks_guarded _) (L.count 39 (L.landAt label 0 s.periodNs (L.nextSecond h)))
  · exact L.stepTo label 0 h

theorem secondBoundary (L : TimeLaws P) (h : P s) : P (secondBoundary s) := by
  have stands : P (onNextBoundary s) := L.quiet (withTmb_guarded_congr (by simp only [Tmb.course])) (L.nextSecond h)
  unfold Machine.secondBoundary
  dsimp only
  split
  · exact L.quiet (withTmb_guarded_congr (by simp only [Tmb.course])) (L.unrepeat h)
  · refine L.withTmb (fun _ => by simp only [Tmb.course]) ?_
    split
    · exact L.quiet (tickBlocks_guarded _) stands
    · exact L.crossBoundary _ true stands

end TimeLaws

/-- `P` is kept by each move that an edge and TIME_SET are made of. -/
structure EdgeLaws (P : State → Prop) : Prop where
  quiet : ∀ {s t : State}, t.guarded = s.guarded → P s → P t
  stepTo : ∀ {s : State} (label ns : Nat), P s → P (stepTo label ns s)
  stepToEdge : ∀ {s : State} (label : Nat), P s → P (stepToEdge label s)
  discipline : ∀ {s : State} (kp ki : Nat) (e : Int), P s → P (s.withTmb (Tmb.discipline kp ki e))

namespace EdgeLaws

/-- A change of TMB's other fields. -/
theorem withTmb (L : EdgeLaws P) {f : Tmb → Tmb} (hf : ∀ u, (f u).course = u.course) (h : P s) : P (s.withTmb f) :=
  L.quiet (withTmb_guarded (hf s.tmb)) h

theorem acquireEdge (L : EdgeLaws P) (e : Int) (label lockCount : Nat) (h : P s) : P (acquireEdge e label lockCount s) := by
  unfold Machine.acquireEdge
  dsimp only
  split
  · exact L.withTmb (fun _ => rfl) (L.stepToEdge label h)
  · have disciplined := L.discipline s.tables.time.kp s.tables.time.ki e h
    generalize (if e.natAbs ≤ s.tables.time.lockThreshold then lockCount + 1 else 0) = n
    split
    · exact L.withTmb (fun _ => rfl) disciplined
    · exact L.withTmb (fun _ => rfl) disciplined

theorem handleEdge (L : EdgeLaws P) (e : Int) (label message : Nat) (h : P s) : P (handleEdge e label message s) := by
  have disciplined := L.discipline s.tables.time.kp s.tables.time.ki e h
  unfold Machine.handleEdge
  dsimp only
  split
  · exact L.withTmb (fun _ => rfl) (L.stepTo message 0 h)
  · exact L.withTmb (fun _ => rfl) (L.stepTo message 0 h)
  · exact L.acquireEdge _ _ _ h
  · split
    · exact disciplined
    · exact L.withTmb (fun _ => rfl) disciplined
  · split
    · exact L.withTmb (fun _ => rfl) disciplined
    · exact L.acquireEdge _ _ _ h
  · exact L.acquireEdge _ _ _ h

theorem acceptEdge (L : EdgeLaws P) (e : Int) (label : Nat) (m : TimeMessage) (h : P s) : P (acceptEdge e label m s) := by
  unfold Machine.acceptEdge
  dsimp only
  generalize labelCheck _ _ _ _ = k
  have judged (f : Tmb → Tmb) (hf : ∀ u, (f u).course = u.course) :
      P (judgeA3 (Machine.handleEdge e label m.label ((count 37 s).withTmb f))) :=
    L.quiet (judgeA3_guarded _) (L.handleEdge e label m.label (L.withTmb hf (L.quiet (count_guarded 37 s) h)))
  split
  · exact judged _ fun _ => rfl
  · exact L.stepTo _ _ (judged _ fun _ => rfl)

theorem ppsEdge (L : EdgeLaws P) (h : P s) : P (ppsEdge s) := by
  unfold Machine.ppsEdge
  dsimp only
  split
  · exact L.quiet (count_guarded 38 s) h
  · split
    · exact L.acceptEdge _ _ _ h
    · exact L.quiet (count_guarded 38 _) (L.withTmb (fun _ => rfl) h)

theorem setTime (L : EdgeLaws P) (label frac : Nat) (h : P s) : P (setTime label frac s) :=
  L.quiet (judgeA3_guarded _) (L.withTmb (fun _ => rfl) (L.stepTo label (frac * 100) h))

end EdgeLaws

theorem TimeLaws.edges (L : TimeLaws P)
    (discipline : ∀ {s : State} (kp ki : Nat) (e : Int), P s → P (s.withTmb (Tmb.discipline kp ki e))) : EdgeLaws P where
  quiet := L.quiet
  stepTo := L.stepTo
  stepToEdge := L.stepToEdge
  discipline := discipline

end Sys2Proof.Machine
end

section
/-!
SUPPORT. The ARMED correction entries at a crossing and at a step (R28 to R32). `Awaiting X s` says that each ARMED entry's target
is ahead of the label in force, but for the entries that `X` excepts: those that the boundary being crossed is still to fire.
-/

namespace Sys2Proof.Machine

variable {s t : State} {X Y : Fin 3 → Nat → Prop}

/-- A correction entry. -/
abbrev State.entry (s : State) (i : Fin 3) : CorrectionEntry := s.tables.correction.get i

/-! ### What ends an entry -/

theorem endEntry_entry (i j : Fin 3) (status : CorrectionStatus) (s : State) :
    (endEntry i status s).entry j = if j = i then { s.entry i with status := status } else s.entry j := by
  obtain ⟨q, e⟩ := endEntry_eq i status s
  simp only [State.entry, e, Three.get_set]

theorem endEntry_tmb (i : Fin 3) (status : CorrectionStatus) (s : State) : (endEntry i status s).tmb = s.tmb := by
  obtain ⟨q, e⟩ := endEntry_eq i status s
  rw [e]

theorem endEntry_cnt (i : Fin 3) (status : CorrectionStatus) (s : State) : (endEntry i status s).cnt = s.cnt := by
  obtain ⟨q, e⟩ := endEntry_eq i status s
  rw [e]

/-- The entry is ARMED and its target boundary lies strictly between two station times (R32). -/
def PassedOver (old new : Nat) (e : CorrectionEntry) : Prop :=
  e.status = .armed ∧ old < e.target * Config.second ∧ e.target * Config.second < new

theorem missOne_entry_self (old new : Nat) (i : Fin 3) (s : State) :
    (PassedOver old new (s.entry i) → (missOne old new i s).entry i = { s.entry i with status := .missed }) ∧
      (¬PassedOver old new (s.entry i) → (missOne old new i s).entry i = s.entry i) := by
  unfold missOne
  dsimp only
  split
  · next h => exact ⟨fun _ => by rw [endEntry_entry, if_pos rfl], fun n => absurd h n⟩
  · next h => exact ⟨fun p => absurd p h, fun _ => rfl⟩

theorem missOne_entry_ne (old new : Nat) {i j : Fin 3} (h : j ≠ i) (s : State) :
    (missOne old new i s).entry j = s.entry j := by
  unfold missOne
  dsimp only
  split
  · rw [endEntry_entry, if_neg h]
  · rfl

/-- A step makes the ARMED entries that it passes over MISSED and leaves the others (R32). -/
theorem stepOver_entry (label ns : Nat) (i : Fin 3) (s : State) :
    let passed := PassedOver (sinceEpoch s.tmb.label s.tmb.ns) (sinceEpoch label ns) (s.entry i)
    (passed → (stepOver label ns s).entry i = { s.entry i with status := .missed }) ∧
      (¬passed → (stepOver label ns s).entry i = s.entry i) := by
  have self := missOne_entry_self (sinceEpoch s.tmb.label s.tmb.ns) (sinceEpoch label ns) i
  have other {j : Fin 3} (h : i ≠ j) := missOne_entry_ne (sinceEpoch s.tmb.label s.tmb.ns) (sinceEpoch label ns) h
  have landed : (s.withTmb (Tmb.landAt label ns s.periodNs)).entry i = s.entry i := rfl
  simp only [stepOver, List.foldl_cons, List.foldl_nil]
  match i with
  | 0 => rw [other (by decide), other (by decide), ← landed]; exact self _
  | 1 => rw [other (by decide), ← landed, ← other (j := 0) (by decide)]; exact self _
  | 2 =>
    rw [← landed, ← other (j := 0) (by decide) (s.withTmb (Tmb.landAt label ns s.periodNs)), ← other (j := 1) (by decide)]
    exact self _

theorem stepOver_label (label ns : Nat) (s : State) : (stepOver label ns s).tmb.label = label := by
  obtain ⟨c, q, e⟩ := stepOver_eq label ns s
  rw [e]
  rfl

/-! ### Fewer entries are ARMED -/

/-- Each entry that `t` has ARMED stands as in `s`. -/
def Disarms (s t : State) : Prop := ∀ i, (t.entry i).status = .armed → t.entry i = s.entry i

theorem Disarms.refl (s : State) : Disarms s s := fun _ _ => rfl

theorem Disarms.trans {u : State} (h : Disarms s t) (h' : Disarms t u) : Disarms s u := fun i hi => by
  have e := h' i hi
  exact e.trans (h i (e ▸ hi))

theorem Disarms.of_tables (h : t.tables = s.tables) : Disarms s t := fun i _ => by rw [State.entry, h]

/-- The ARMED entries. -/
def State.armed (s : State) : Finset (Fin 3) := Finset.univ.filter fun i => (s.entry i).status = .armed

theorem mem_armed {i : Fin 3} : i ∈ s.armed ↔ (s.entry i).status = .armed := by simp [State.armed]

theorem Disarms.subset (h : Disarms s t) : t.armed ⊆ s.armed := fun i hi => by
  rw [mem_armed] at hi ⊢
  exact h i hi ▸ hi

theorem endEntry_disarms (i : Fin 3) {status : CorrectionStatus} (h : status ≠ .armed) (s : State) :
    Disarms s (endEntry i status s) := fun j hj => by
  rw [endEntry_entry] at hj ⊢
  split at hj
  · exact absurd hj h
  · next hne => rw [if_neg hne]

theorem stepOver_disarms (label ns : Nat) (s : State) : Disarms s (stepOver label ns s) := fun i hi => by
  obtain ⟨missed, stands⟩ := stepOver_entry label ns i s
  by_cases p : PassedOver (sinceEpoch s.tmb.label s.tmb.ns) (sinceEpoch label ns) (s.entry i)
  · rw [missed p] at hi
    cases hi
  · exact stands p

/-- After an entry has ended, fewer are ARMED. -/
theorem endEntry_armed_card {i : Fin 3} {status : CorrectionStatus} (h : status ≠ .armed) (hi : (s.entry i).status = .armed) :
    (endEntry i status s).armed.card < s.armed.card := by
  refine Finset.card_lt_card ⟨(endEntry_disarms i h s).subset, fun all => ?_⟩
  have := mem_armed.mp (all (mem_armed.mpr hi))
  rw [endEntry_entry, if_pos rfl] at this
  exact h this

/-! ### Targets ahead -/

/-- Each ARMED entry's target is ahead of the label in force, or the entry is excepted. -/
def Awaiting (X : Fin 3 → Nat → Prop) (s : State) : Prop :=
  ∀ i, (s.entry i).status = .armed → s.tmb.label < (s.entry i).target ∨ X i (s.entry i).target

/-- The same for a station time on a boundary whose entries are still to fire. -/
def AwaitingOn (X : Fin 3 → Nat → Prop) (s : State) : Prop :=
  ∀ i, (s.entry i).status = .armed → s.tmb.label ≤ (s.entry i).target ∨ X i (s.entry i).target

theorem armedAhead_iff : ArmedAhead s ↔ Awaiting (fun _ _ => False) s := by simp [ArmedAhead, Awaiting, State.entry]

theorem Awaiting.on (h : Awaiting X s) : AwaitingOn X s := fun i hi => (h i hi).imp_left Nat.le_of_lt

theorem Awaiting.mono (h : Awaiting X s) (sub : ∀ i n, X i n → Y i n) : Awaiting Y s :=
  fun i hi => (h i hi).imp_right (sub i _)

/-- With the label as it was, fewer ARMED entries are still ahead. -/
theorem Awaiting.disarm (h : Awaiting X s) (d : Disarms s t) (label : t.tmb.label = s.tmb.label) : Awaiting X t :=
  fun i hi => by
    have e := d i hi
    rw [label, e]
    exact h i (e ▸ hi)

theorem AwaitingOn.disarm (h : AwaitingOn X s) (d : Disarms s t) (label : t.tmb.label = s.tmb.label) : AwaitingOn X t :=
  fun i hi => by
    have e := d i hi
    rw [label, e]
    exact h i (e ▸ hi)

/-- A change of TMB that leaves the label. -/
theorem Awaiting.withTmb (h : Awaiting X s) {f : Tmb → Tmb} (hf : (f s.tmb).label = s.tmb.label) :
    Awaiting X (s.withTmb f) := h.disarm (.of_tables (State.withTmb_tables s f)) hf

theorem guarded_label (h : t.guarded = s.guarded) : t.tmb.label = s.tmb.label := by
  obtain ⟨-, -, course, -⟩ := guarded_fields h
  simp only [Tmb.course, Prod.mk.injEq] at course
  exact course.2.1

theorem guarded_disarms (h : t.guarded = s.guarded) : Disarms s t := .of_tables (guarded_fields h).2.2.2.2

theorem Awaiting.quiet (h : Awaiting X s) (e : t.guarded = s.guarded) : Awaiting X t :=
  h.disarm (guarded_disarms e) (guarded_label e)

/-- A step leaves no target behind but those of the boundary it lands on (R32). -/
theorem Awaiting.stepOver (h : Awaiting X s) (label ns : Nat) :
    AwaitingOn X (stepOver label ns s) ∧ (ns ≠ 0 → Awaiting X (stepOver label ns s)) := by
  have key (i : Fin 3) (hi : ((Machine.stepOver label ns s).entry i).status = .armed) :
      (label ≤ ((Machine.stepOver label ns s).entry i).target ∧
        (ns ≠ 0 → label < ((Machine.stepOver label ns s).entry i).target)) ∨
          X i ((Machine.stepOver label ns s).entry i).target := by
    have e := stepOver_disarms label ns s i hi
    rw [e] at hi ⊢
    refine (h i hi).imp_left fun ahead => ?_
    have stands : ¬PassedOver (sinceEpoch s.tmb.label s.tmb.ns) (sinceEpoch label ns) (s.entry i) := fun p => by
      rw [(stepOver_entry label ns i s).1 p] at e
      rw [← e] at hi
      cases hi
    simp only [PassedOver, sinceEpoch, hi, true_and, not_and, Config.second] at stands
    have := stands (by omega)
    omega
  constructor
  · intro i hi
    rw [stepOver_label]
    exact (key i hi).imp_left And.left
  · intro hns i hi
    rw [stepOver_label]
    exact (key i hi).imp_left fun k => k.2 hns

/-! ### The crossing -/

/-- What a landing on a boundary has to do for a crossing: fire what is due there, with entries enough left. -/
def Lands (d : Nat) (land : State → State) : Prop :=
  ∀ {X : Fin 3 → Nat → Prop} {s : State}, AwaitingOn X s → s.armed.card ≤ d → Awaiting X (land s) ∧ Disarms s (land s)

/-- A step, with what its landing does where it lands on a boundary. -/
theorem Lands.stepOver {d : Nat} {land : State → State} (hl : Lands d land) (label ns : Nat) (h : Awaiting X s)
    (card : s.armed.card ≤ d) {p : Prop} [Decidable p] (hp : ns = 0 → p) :
    Awaiting X (if p then land (stepOver label ns s) else stepOver label ns s) ∧
      Disarms s (if p then land (stepOver label ns s) else stepOver label ns s) := by
  obtain ⟨on, off⟩ := h.stepOver label ns
  have d := stepOver_disarms label ns s
  split
  · obtain ⟨a, d'⟩ := hl on ((Finset.card_le_card d.subset).trans card)
    exact ⟨a, d.trans d'⟩
  · next np => exact ⟨off fun z => np (hp z), d⟩

/-- One firing (R29 to R31): the fired entry is ARMED no more, and what it moves station time over is fired or missed. -/
theorem fireOne_awaiting {d : Nat} {land : Bool → State → State} (hl : ∀ b, Lands d (land b)) (entered : Nat) {i : Fin 3}
    (hi : (s.entry i).status = .armed) (card : s.armed.card ≤ d + 1) (h : Awaiting (fun j n => X j n ∨ j = i) s) :
    Awaiting X (fireOne land entered i s) ∧ Disarms s (fireOne land entered i s) := by
  have counted := count_guarded 39 (endEntry i .fired s)
  have label : (count 39 (endEntry i .fired s)).tmb.label = s.tmb.label :=
    (guarded_label counted).trans (congrArg Tmb.label (endEntry_tmb i .fired s))
  have dis : Disarms s (count 39 (endEntry i .fired s)) :=
    (endEntry_disarms i (by decide) s).trans (guarded_disarms counted)
  have less : (count 39 (endEntry i .fired s)).armed.card ≤ d := by
    have := Finset.card_le_card (guarded_disarms counted).subset
    have := endEntry_armed_card (status := .fired) (by decide) hi
    omega
  have fired : Awaiting X (count 39 (endEntry i .fired s)) := fun j hj => by
    obtain ahead | x | rfl := h.disarm dis label j hj
    · exact .inl ahead
    · exact .inr x
    · rw [guarded_disarms counted j hj, endEntry_entry, if_pos rfl] at hj
      cases hj
  unfold fireOne
  dsimp only
  generalize count 39 (endEntry i .fired s) = u at dis less fired
  split
  · exact ⟨fired, dis⟩
  · exact ⟨fired.withTmb rfl, dis.trans (.of_tables rfl)⟩
  · rw [fireDelete_cases]
    obtain ⟨a, d'⟩ := Lands.stepOver (hl false) (min Config.maxLabel (u.tmb.label + 1)) u.tmb.ns fired less id
    exact ⟨a, dis.trans d'⟩
  · unfold fireStep
    split
    · exact ⟨fired.withTmb rfl, dis.trans (.of_tables rfl)⟩
    · dsimp only
      generalize clampTotal _ = n
      obtain ⟨a, d'⟩ := Lands.stepOver (hl true) (n / Config.second) (n % Config.second) fired less id
      exact ⟨a, dis.trans d'⟩

/-- The exceptions before entry `k` has had its turn at target `n`. -/
def turnOf (X : Fin 3 → Nat → Prop) (n k : Nat) : Fin 3 → Nat → Prop := fun j m => X j m ∨ m = n ∧ k ≤ j.val

/-- An entry's turn to fire. -/
theorem fireNext_awaiting {d : Nat} {land : Bool → State → State} (hl : ∀ b, Lands d (land b)) (n : Nat)
    {x : Nat × State} (i : Fin 3) (card : x.2.armed.card ≤ d + 1) (h : Awaiting (turnOf X n i.val) x.2) :
    Awaiting (turnOf X n (i.val + 1)) (fireNext land n x i).2 ∧ Disarms x.2 (fireNext land n x i).2 := by
  have split_turn (j : Fin 3) (m : Nat) (hj : turnOf X n i.val j m) : turnOf X n (i.val + 1) j m ∨ j = i ∧ m = n := by
    obtain x | ⟨hm, hij⟩ := hj
    · exact .inl (.inl x)
    · by_cases e : j = i
      · exact .inr ⟨e, hm⟩
      · exact .inl (.inr ⟨hm, Nat.lt_of_le_of_ne hij fun eq => e (Fin.ext eq.symm)⟩)
  unfold fireNext
  split
  · next due =>
    simp only [stillDue, Bool.and_eq_true, beq_iff_eq] at due
    exact fireOne_awaiting hl x.1 due.1 card (h.mono fun j m hj => (split_turn j m hj).imp_right And.left)
  · next due =>
    refine ⟨fun j hj => (h j hj).imp_right fun t => (split_turn j _ t).resolve_right fun ⟨hji, hm⟩ => due ?_, .refl _⟩
    subst hji
    simp [stillDue, hj, hm]

/-- The entries of the boundary fire in entry order, and none of them is left (R29). -/
theorem fireDue_awaiting {d : Nat} {land : Bool → State → State} (hl : ∀ b, Lands d (land b))
    (card : s.armed.card ≤ d + 1) (h : AwaitingOn X s) :
    Awaiting X (fireDue land s.tmb.label s) ∧ Disarms s (fireDue land s.tmb.label s) := by
  have start : Awaiting (turnOf X s.tmb.label (0 : Fin 3).val) s := fun i hi => by
    obtain le | x := h i hi
    · obtain lt | eq := Nat.lt_or_eq_of_le le
      · exact .inl lt
      · exact .inr (.inr ⟨eq.symm, Nat.zero_le _⟩)
    · exact .inr (.inl x)
  have keeps {u : State} (du : Disarms s u) : u.armed.card ≤ d + 1 := (Finset.card_le_card du.subset).trans card
  obtain ⟨a₀, d₀⟩ := fireNext_awaiting hl s.tmb.label (x := (s.tmb.label, s)) 0 card start
  obtain ⟨a₁, d₁⟩ := fireNext_awaiting hl s.tmb.label 1 (keeps d₀) a₀
  obtain ⟨a₂, d₂⟩ := fireNext_awaiting hl s.tmb.label 2 (keeps (d₀.trans d₁)) a₁
  exact ⟨a₂.mono fun j _ t => t.resolve_right fun late => absurd late.2 (Nat.not_le_of_lt j.isLt), (d₀.trans d₁).trans d₂⟩

/-- A crossing leaves no ARMED entry at the boundary or behind it: each landing within it uses one up. -/
theorem crossBoundary_lands (d : Nat) (ticks : Bool) : Lands d (crossBoundary d ticks) := by
  have ticked {X : Fin 3 → Nat → Prop} {s u : State} (h : Awaiting X u ∧ Disarms s u) :
      Awaiting X (if ticks then tickBlocks u else u) ∧ Disarms s (if ticks then tickBlocks u else u) := by
    obtain ⟨a, d⟩ := h
    have quiet := tickBlocks_guarded u
    split
    · exact ⟨a.quiet quiet, d.trans (guarded_disarms quiet)⟩
    · exact ⟨a, d⟩
  induction d generalizing ticks with
  | zero =>
    intro X s h card
    refine ticked ⟨fun i hi => ?_, .refl s⟩
    have none : s.armed = ∅ := Finset.card_eq_zero.mp (Nat.le_zero.mp card)
    have := none ▸ mem_armed.mpr hi
    exact absurd this (Finset.notMem_empty i)
  | succ d ih =>
    intro X s h card
    refine ticked (fireDue_awaiting (fun b => ih b fun {X s u} hu => ?_) card h)
    obtain ⟨a, du⟩ := hu
    have quiet := tickBlocks_guarded u
    split
    · exact ⟨a.quiet quiet, du.trans (guarded_disarms quiet)⟩
    · exact ⟨a, du⟩

theorem armed_card_le (s : State) : s.armed.card ≤ boundaryDepth :=
  (Finset.card_le_univ _).trans (by decide)

theorem AwaitingOn.enterBoundary (h : AwaitingOn X s) : Awaiting X (enterBoundary s) :=
  (crossBoundary_lands boundaryDepth true h (armed_card_le s)).1

/-! ### The steps and the end of a second -/

theorem stepTo_armedAhead (label ns : Nat) (h : ArmedAhead s) : ArmedAhead (stepTo label ns s) := by
  rw [armedAhead_iff] at h ⊢
  obtain ⟨on, off⟩ := h.stepOver label ns
  have counted := count_guarded 39 (stepOver label ns s)
  unfold stepTo
  dsimp only
  split
  · exact (on.disarm (guarded_disarms counted) (guarded_label counted)).enterBoundary
  · next hns => exact (off hns).quiet counted

theorem Tmb.nextSecond_label (t : Tmb) : t.nextSecond.label = if t.inFirstRun then t.label else t.label + 1 := by
  unfold Tmb.nextSecond
  split <;> rfl

theorem stepToEdge_armedAhead (label : Nat) (h : ArmedAhead s) : ArmedAhead (stepToEdge label s) := by
  unfold stepToEdge
  split
  · next same =>
    rw [armedAhead_iff] at h ⊢
    have landed : Awaiting (fun _ _ => False) (s.withTmb fun t => t.nextSecond.landAt label 0 s.periodNs) :=
      h.disarm (.of_tables rfl) same.2.1.symm
    exact (landed.quiet (count_guarded 39 _)).quiet (tickBlocks_guarded _)
  · exact stepTo_armedAhead label 0 h

theorem secondBoundary_armedAhead (h : ArmedAhead s) : ArmedAhead (secondBoundary s) := by
  rw [armedAhead_iff] at h ⊢
  have label : (onNextBoundary s).tmb.label = if s.tmb.inFirstRun then s.tmb.label else s.tmb.label + 1 :=
    Tmb.nextSecond_label s.tmb
  unfold secondBoundary
  dsimp only
  split
  · exact h.withTmb (by simp only)
  · refine Awaiting.withTmb ?_ (by simp only)
    split
    · next first =>
      rw [if_pos first] at label
      exact (h.disarm (t := onNextBoundary s) (.of_tables rfl) label).quiet (tickBlocks_guarded _)
    · next first =>
      rw [if_neg first] at label
      refine AwaitingOn.enterBoundary fun i hi => (h i hi).imp_left fun ahead => ?_
      rw [label]
      exact ahead

theorem armedAhead_edgeLaws : EdgeLaws ArmedAhead where
  quiet e h := armedAhead_iff.mpr ((armedAhead_iff.mp h).quiet e)
  stepTo := stepTo_armedAhead
  stepToEdge := stepToEdge_armedAhead
  discipline _ _ _ h := h

end Sys2Proof.Machine
end

section
/-!
SUPPORT. Charge counting (R141 to R143, R150), the marks of inserted seconds (R30), and what a table write stores (R175 to R177).
-/

namespace Sys2Proof.Machine

variable {s t : State}

/-! ### Q and R (R141 to R143) -/

/-- Q and R of a BMN with a BATTERY entry (R141). -/
def ChargeWithin (full : Nat) (b : Bmn) : Prop := b.q ≤ full ∧ b.r ≤ 3599

theorem countCharge_le (full q r : Nat) (net : Int) :
    (countCharge full q r net).1 ≤ full ∧ (countCharge full q r net).2 ≤ 3599 := by
  unfold countCharge
  dsimp only
  split
  · exact ⟨Nat.zero_le _, Nat.zero_le _⟩
  · split
    · exact ⟨Nat.le_refl _, Nat.zero_le _⟩
    · constructor <;> dsimp only <;> omega

/-- Between two voltages of the rest-voltage table the estimate rises by 250 permille at most (R143). -/
theorem quarter_le {lo hi : Nat} {v : Int} (h : v < hi) (h' : (lo : Int) ≤ v) :
    (250 * (v - lo) / ((hi : Int) - lo)).toNat ≤ 250 := by
  have : 250 * (v - lo) / ((hi : Int) - lo) ≤ 250 := by
    refine Int.ediv_le_of_le_mul (by omega) ?_
    omega
  omega

theorem restEstimate_le (t : BatteryTable) (v : Int) : restEstimate t v ≤ 1000 := by
  unfold restEstimate
  dsimp only
  split
  · exact Nat.zero_le _
  · next above =>
    split
    · exact Nat.le_refl _
    · next below =>
      have q := @quarter_le
      split
      · next h => exact (Nat.add_le_add_left (q h (by omega)) _).trans (by omega)
      · split
        · next h => exact (Nat.add_le_add_left (q h (by omega)) _).trans (by omega)
        · split
          · next h => exact (Nat.add_le_add_left (q h (by omega)) _).trans (by omega)
          · exact (Nat.add_le_add_left (q (by omega) (by omega)) _).trans (by omega)

theorem chargeStage_within (t : BatteryTable) (x : MonitorInputs) {b : Bmn} (h : ChargeWithin (fullCharge t) b) :
    ChargeWithin (fullCharge t) (chargeStage t x b) := by
  unfold chargeStage
  split
  · split
    · exact h
    · next v _ =>
      refine ⟨?_, Nat.zero_le _⟩
      exact Nat.div_le_of_le_mul (by rw [Nat.mul_comm 1000]; exact Nat.mul_le_mul_left _ (restEstimate_le t v))
  · split
    · exact h
    · exact countCharge_le ..

theorem recalStage_within (t : BatteryTable) (x : MonitorInputs) {b : Bmn} (h : ChargeWithin (fullCharge t) b) :
    ChargeWithin (fullCharge t) (recalStage t x b) := by
  unfold recalStage
  split
  · split
    · exact ⟨Nat.le_refl _, Nat.zero_le _⟩
    · exact h
  · exact h

/-- The stages that judge the voltage leave the charge (R145, R146). -/
theorem cutStage_overrideStage_charge (t : BatteryTable) (x : MonitorInputs) (b : Bmn) :
    (cutStage t (overrideStage t x b)).q = b.q ∧ (cutStage t (overrideStage t x b)).r = b.r := by
  have override : (overrideStage t x b).q = b.q ∧ (overrideStage t x b).r = b.r := by
    unfold overrideStage
    generalize (match b.v.value with | some v => decide (v < t.vSurv) | none => false) = below
    generalize (match goodOnly vGood x.v with | some v => decide ((t.vSurv : Int) + 500 ≤ v) | none => false) = recovered
    dsimp only
    repeat' split
    all_goals exact ⟨rfl, rfl⟩
  exact override

theorem gateStage_guarded (s : State) : (gateStage s).guarded = s.guarded := by
  unfold gateStage
  dsimp only
  split
  · rfl
  · split <;> (rw [reportCondition_guarded]; rfl)

/-- A scan up to R146's test keeps Q and R within their ranges, and leaves the rest of the view (R139, R141). -/
theorem scanToCut_charge (x : MonitorInputs) (h : ChargeInRange s) : ChargeInRange (scanToCut x s) := by
  unfold scanToCut
  dsimp only
  generalize hu : (s.withBmn fun b => _) = u
  have stages : ChargeWithin (fullCharge s.tables.battery) u.bmn := by
    subst hu
    exact recalStage_within _ x (chargeStage_within _ x h)
  obtain ⟨-, -, -, ⟨hq, hr⟩, tables⟩ := guarded_fields (gateStage_guarded u)
  obtain ⟨cq, cr⟩ := cutStage_overrideStage_charge s.tables.battery x (gateStage u).bmn
  have battery : u.tables = s.tables := by subst hu; rfl
  simp only [ChargeInRange, State.withBmn_bmn, State.withBmn_tables, tables, battery, cq, cr, hq, hr]
  exact stages

theorem scanToCut_rest (x : MonitorInputs) (s : State) :
    (scanToCut x s).sif.strobes = s.sif.strobes ∧ (∀ c, ((scanToCut x s).det.get c).averages = (s.det.get c).averages) ∧
      (scanToCut x s).tmb.course = s.tmb.course ∧ (scanToCut x s).tables = s.tables := by
  unfold scanToCut
  dsimp only
  generalize hu : (s.withBmn fun b => _) = u
  obtain ⟨strobes, det, course, -, tables⟩ := guarded_fields (gateStage_guarded u)
  subst hu
  exact ⟨strobes, det, course, tables⟩

/-- A write of the BATTERY entry holds Q to the new capacity (R150). -/
theorem batteryWrite_charge (h : s.bmn.r ≤ 3599) : ChargeInRange (batteryWrite s) := by
  unfold batteryWrite
  dsimp only
  split
  · exact ⟨Nat.le_refl _, Nat.zero_le _⟩
  · next full => exact ⟨Nat.le_of_not_lt full, h⟩

theorem batteryWrite_eq (s : State) : ∃ q r, batteryWrite s = { s with bmn := { s.bmn with q := q, r := r } } := by
  unfold batteryWrite
  dsimp only
  split
  · exact ⟨_, _, rfl⟩
  · exact ⟨s.bmn.q, s.bmn.r, rfl⟩

/-! ### Marks (R30) -/

theorem landAt_markAhead (label ns period : Nat) {t : Tmb} (h : MarkAhead t) : MarkAhead (t.landAt label ns period) := by
  intro l hl
  simp only [Tmb.landAt, List.mem_filter, decide_eq_true_eq] at hl
  refine ⟨hl.2, fun rep => ?_⟩
  simp only [Tmb.landAt, Bool.and_eq_true, beq_iff_eq] at rep
  exact rep.2 ▸ (h l hl.1).2 rep.1

theorem markSecond_markAhead {l : Nat} {t : Tmb} (hl : t.label ≤ l) (h : MarkAhead t) : MarkAhead (t.markSecond l) := by
  intro m hm
  obtain rfl | hm := (Tmb.mem_marks_markSecond l m t).mp hm
  · exact ⟨hl, fun rep => by simp only [Tmb.markSecond, Bool.and_eq_true, bne_iff_ne] at rep; exact rep.2⟩
  · refine ⟨(h m hm).1, fun rep => (h m hm).2 ?_⟩
    simp only [Tmb.markSecond, Bool.and_eq_true] at rep
    exact rep.1

theorem nextSecond_markAhead {t : Tmb} (h : MarkAhead t) : MarkAhead t.nextSecond := by
  intro l hl
  cases first : t.inFirstRun with
  | true =>
    rw [Tmb.nextSecond_of_firstRun first] at hl ⊢
    simp only [List.mem_filter, bne_iff_ne] at hl
    exact ⟨(h l hl.1).1, fun _ => hl.2.symm⟩
  | false =>
    rw [Tmb.nextSecond_of_not_firstRun first] at hl ⊢
    simp only [List.mem_filter, decide_eq_true_eq] at hl
    exact ⟨hl.2, fun rep => by cases rep⟩

theorem MarkAhead.congr {t u : Tmb} (h : MarkAhead t) (e : u.course = t.course) : MarkAhead u := by
  simp only [Tmb.course, Prod.mk.injEq] at e
  obtain ⟨-, label, marks, rep⟩ := e
  simpa only [MarkAhead, label, marks, rep] using h

theorem markAhead_timeLaws : TimeLaws fun s => MarkAhead s.tmb where
  quiet e h := h.congr (guarded_fields e).2.2.1
  landAt label ns period h := landAt_markAhead label ns period h
  endEntry i status h := by rw [endEntry_tmb]; exact h
  markSecond _ hl h := markSecond_markAhead hl h
  nextSecond h := nextSecond_markAhead h
  unrepeat h := fun l hl => ⟨(h l hl).1, fun rep => by cases rep⟩

/-! ### What the crossings and edges leave of F, Q and R, and the detectors -/

theorem nextSecond_freq (t : Tmb) : t.nextSecond.freq = t.freq := by
  unfold Tmb.nextSecond
  split <;> rfl

theorem freqInRange_timeLaws : TimeLaws FreqInRange where
  quiet e h := by
    have := (guarded_fields e).2.2.1
    simp only [Tmb.course, Prod.mk.injEq] at this
    simpa only [FreqInRange, this.1] using h
  landAt _ _ _ h := h
  endEntry i status h := by rw [FreqInRange, endEntry_tmb]; exact h
  markSecond _ _ h := h
  nextSecond {s} h := by simpa only [FreqInRange, State.withTmb_tmb, nextSecond_freq] using h
  unrepeat h := h

theorem discipline_freqInRange (kp ki : Nat) (e : Int) (s : State) : FreqInRange (s.withTmb (Tmb.discipline kp ki e)) := by
  simp only [FreqInRange, State.withTmb_tmb, Tmb.discipline, clampFreq]
  omega

theorem ChargeInRange.congr (h : ChargeInRange s) (bmn : t.bmn.q = s.bmn.q ∧ t.bmn.r = s.bmn.r)
    (battery : t.tables.battery = s.tables.battery) : ChargeInRange t := by
  simpa only [ChargeInRange, bmn.1, bmn.2, battery] using h

theorem endEntry_bmn (i : Fin 3) (status : CorrectionStatus) (s : State) :
    (endEntry i status s).bmn = s.bmn ∧ (endEntry i status s).tables.battery = s.tables.battery := by
  obtain ⟨q, e⟩ := endEntry_eq i status s
  rw [e]
  exact ⟨rfl, rfl⟩

theorem chargeInRange_timeLaws : TimeLaws ChargeInRange where
  quiet e h := h.congr (guarded_fields e).2.2.2.1 (congrArg Tables.battery (guarded_fields e).2.2.2.2)
  landAt _ _ _ h := h
  endEntry {s} i status h := by
    obtain ⟨bmn, battery⟩ := endEntry_bmn i status s
    exact h.congr ⟨congrArg Bmn.q bmn, congrArg Bmn.r bmn⟩ battery
  markSecond _ _ h := h
  nextSecond h := h
  unrepeat h := h

theorem DetectorRanges.congr (h : DetectorRanges s) (strobes : t.sif.strobes = s.sif.strobes)
    (det : ∀ c, (t.det.get c).averages = (s.det.get c).averages) : DetectorRanges t := by
  obtain ⟨bank, frames⟩ := detectorRanges_iff.mp h
  exact detectorRanges_iff.mpr ⟨bank.congr det, strobes ▸ frames⟩

theorem detectorRanges_timeLaws : TimeLaws DetectorRanges where
  quiet e h := h.congr (guarded_fields e).1 (guarded_fields e).2.1
  landAt _ _ _ h := h
  endEntry {s} i status h := by
    obtain ⟨q, e⟩ := endEntry_eq i status s
    rw [e]
    exact h
  markSecond _ _ h := h
  nextSecond h := h
  unrepeat h := h

/-! ### Table writes (R175 to R177) -/

/-- The table that an entry belongs to. -/
def Entry.table : Entry → TableId
  | .station _ => .station | .channel _ => .channel | .event _ => .event | .time _ => .time
  | .correction _ => .correction | .alert _ => .alert | .load _ => .load | .zone _ => .zone
  | .battery _ => .battery | .countermask _ => .countermask

theorem clampEntry_table (e : Entry) : (clampEntry e).table = e.table := by cases e <;> rfl

theorem decodeEntry_table (id : TableId) (bs : List Byte) : (decodeEntry id bs).table = id := by cases id <;> rfl

/-- What the value policy lets through (R176, R28). -/
theorem judgeEntry_ok {id : TableId} {label i : Nat} {bs : List Byte} {e : Entry} (h : judgeEntry id label i bs = .ok e) :
    e = clampEntry (decodeEntry id bs) ∧ setsHold id bs = true ∧ relationsHold i e = true ∧ targetPast label e = false := by
  unfold judgeEntry at h
  dsimp only at h
  split at h
  · cases h
  · next sets =>
    split at h
    · cases h
    · next relations =>
      split at h
      · cases h
      · next past =>
        cases h
        simp only [Bool.not_eq_true, Bool.not_eq_false'] at sets relations past
        exact ⟨rfl, sets, relations, past⟩

/-- An entry that the value policy has let through for a table, at a label. -/
def Judged (id : TableId) (label : Nat) (e : Entry) : Prop := ∃ i bs, judgeEntry id label i bs = .ok e

theorem Judged.table {id : TableId} {label : Nat} {e : Entry} (h : Judged id label e) : e.table = id := by
  obtain ⟨i, bs, h⟩ := h
  rw [(judgeEntry_ok h).1, clampEntry_table, decodeEntry_table]

theorem judgeEntries_judged {id : TableId} {label i n : Nat} {bs : List Byte} {es : List Entry} {clamped : Bool}
    (h : judgeEntries id label i n bs = .ok (es, clamped)) : ∀ e ∈ es, Judged id label e := by
  induction n generalizing i bs es clamped with
  | zero =>
    cases h
    exact fun e he => absurd he List.not_mem_nil
  | succ n ih =>
    unfold judgeEntries at h
    dsimp only at h
    split at h
    · cases h
    · next e he =>
      split at h
      · cases h
      · next es' c hes =>
        cases h
        intro x hx
        obtain rfl | hx := List.mem_cons.mp hx
        · exact ⟨i, _, he⟩
        · exact ih hes x hx

/-- What holds of the tables and is kept by each entry stored holds after a run of entries. -/
theorem storeEntries_keeps {Q : Tables → Prop} {es : List Entry} (hQ : ∀ e ∈ es, ∀ i t, Q t → Q (storeEntry i e t))
    (first : Nat) {t : Tables} (h : Q t) : Q (storeEntries first es t) := by
  induction es generalizing first t with
  | nil => exact h
  | cons e es ih =>
    exact ih (fun x hx => hQ x (List.mem_cons_of_mem e hx)) (first + 1) (hQ e (by simp) first t h)

theorem storeEntry_battery {e : Entry} (h : e.table ≠ .battery) (i : Nat) (t : Tables) :
    (storeEntry i e t).battery = t.battery := by
  cases e with
  | battery _ => exact absurd rfl h
  | _ => rfl

theorem storeEntry_correction {e : Entry} (h : e.table ≠ .correction) (i : Nat) (t : Tables) :
    (storeEntry i e t).correction = t.correction := by
  cases e with
  | correction _ => exact absurd rfl h
  | _ => rfl

/-- Each ARMED entry of the table has its target after the label. -/
def TargetsAfter (label : Nat) (c : Three CorrectionEntry) : Prop :=
  ∀ i, (c.get i).status = .armed → label < (c.get i).target

/-- An ARMED entry that a write stores has its target in the future (R28). -/
theorem Judged.target {label : Nat} {c : CorrectionEntry} (h : Judged .correction label (.correction c))
    (armed : c.status = .armed) : label < c.target := by
  obtain ⟨i, bs, h⟩ := h
  obtain ⟨e, -, -, past⟩ := judgeEntry_ok h
  simp only [targetPast, Bool.and_eq_false_imp, bne_iff_ne, decide_eq_false_iff_not, Nat.not_le] at past
  refine past fun none => ?_
  simp only [decodeEntry, clampEntry, Entry.correction.injEq] at e
  split at e
  · rw [e] at armed
    cases armed
  all_goals
    next kind =>
      rw [e, kind] at none
      cases none

theorem storeEntries_targets {id : TableId} {label : Nat} {es : List Entry} (h : ∀ e ∈ es, Judged id label e) (first : Nat)
    {t : Tables} (ht : TargetsAfter label t.correction) : TargetsAfter label (storeEntries first es t).correction := by
  refine storeEntries_keeps (Q := fun t => TargetsAfter label t.correction) (fun e he i u hu => ?_) first ht
  cases e with
  | correction c =>
    have table : TableId.correction = id := (h _ he).table
    intro j hj
    simp only [storeEntry, Three.get_set] at hj ⊢
    split at hj
    · next same =>
      rw [if_pos same]
      exact Judged.target (table ▸ h _ he) hj
    · next other =>
      rw [if_neg other]
      exact hu j hj
  | _ => exact hu

theorem storeEntries_battery {id : TableId} {label : Nat} {es : List Entry} (h : ∀ e ∈ es, Judged id label e) (first : Nat)
    (t : Tables) (hid : id ≠ .battery) : (storeEntries first es t).battery = t.battery :=
  storeEntries_keeps (Q := fun u => u.battery = t.battery)
    (fun e he i u hu => (storeEntry_battery ((h e he).table ▸ hid) i u).trans hu) first rfl

/-- What stored entries do in their blocks leaves the view, but for a CHANNEL write's detectors and the charge at a BATTERY
write (R177). -/
theorem actWrite_guarded {id : TableId} (hc : id ≠ .channel) (hb : id ≠ .battery) (first n : Nat) (old : Tables) (s : State) :
    (actWrite id first n old s).guarded = s.guarded := by
  cases id with
  | channel => exact absurd rfl hc
  | battery => exact absurd rfl hb
  | station => simp [actWrite]
  | time => simp [actWrite]
  | alert => exact eachIndex_guarded (fun i s => aluWrite_guarded _ _ s) first n s
  | load =>
    unfold actWrite
    dsimp only
    split <;> simp
  | zone => simp [actWrite]
  | event | correction | countermask => rfl

/-- A property of the state that a CHANNEL write's detectors keep. -/
theorem eachIndex_keeps {Q : State → Prop} {f : Nat → State → State} (hf : ∀ i s, Q s → Q (f i s)) (first n : Nat)
    (h : Q s) : Q (eachIndex f first n s) := by
  induction n generalizing first s with
  | zero => exact h
  | succ n ih => exact ih (first + 1) (hf first s h)

end Sys2Proof.Machine
end

section
/-!
PROOF. O53 and O57: every step keeps the detectors' values, F, and Q and R within their ranges, and the marks of inserted seconds
and the targets of ARMED correction entries ahead of station time.
-/

namespace Sys2Proof.Machine

variable {s t : State}

/-- `t` keeps what `s` keeps of the ranges (R17, R42, R44, R141) and of station time's invariants (R28 to R32). -/
structure Sound (s t : State) : Prop where
  detectors : DetectorRanges s → DetectorRanges t
  freq : FreqInRange s → FreqInRange t
  charge : ChargeInRange s → ChargeInRange t
  marks : MarkAhead s.tmb → MarkAhead t.tmb
  armed : ArmedAhead s → ArmedAhead t

theorem Sound.trans {u : State} (h : Sound s t) (h' : Sound t u) : Sound s u :=
  ⟨h'.detectors ∘ h.detectors, h'.freq ∘ h.freq, h'.charge ∘ h.charge, h'.marks ∘ h.marks, h'.armed ∘ h.armed⟩

/-- What TMB, BMN and the tables show is as it was; the detectors and samples are judged for themselves. -/
theorem Sound.of_samples (detectors : DetectorRanges s → DetectorRanges t) (course : t.tmb.course = s.tmb.course)
    (bmn : t.bmn.q = s.bmn.q ∧ t.bmn.r = s.bmn.r) (tables : t.tables = s.tables) : Sound s t := by
  have c := course
  simp only [Tmb.course, Prod.mk.injEq] at c
  obtain ⟨freq, label, -, -⟩ := c
  refine ⟨detectors, fun h => ?_, fun h => h.congr bmn (congrArg _ tables), fun h => h.congr course, fun h => ?_⟩
  · simpa only [FreqInRange, freq] using h
  · exact armedAhead_iff.mpr ((armedAhead_iff.mp h).disarm (.of_tables tables) label)

theorem Sound.quiet (h : t.guarded = s.guarded) : Sound s t := by
  obtain ⟨strobes, det, course, bmn, tables⟩ := guarded_fields h
  exact .of_samples (fun d => d.congr strobes det) course bmn tables

theorem Sound.refl (s : State) : Sound s s := .quiet rfl

/-- A start with no ARMED entry. -/
theorem Sound.of_start (detectors : DetectorRanges t) (course : t.tmb.course = (0, 0, [], false))
    (bmn : t.bmn.q = 0 ∧ t.bmn.r = 0) (empty : ∀ i, (t.entry i).status ≠ .armed) : Sound s t := by
  simp only [Tmb.course, Prod.mk.injEq] at course
  obtain ⟨freq, -, marks, -⟩ := course
  refine ⟨fun _ => detectors, fun _ => ?_, fun _ => ?_, fun _ l hl => ?_, fun _ i hi => absurd hi (empty i)⟩
  · rw [FreqInRange, freq]
    decide
  · rw [ChargeInRange, bmn.1, bmn.2]
    exact ⟨Nat.zero_le _, Nat.zero_le _⟩
  · rw [marks] at hl
    cases hl

/-! ### Starts (R146, R185) -/

theorem coldBlocks_sound (straps : Byte) (source : ConfigSource) {tables : Tables} (u : State)
    (empty : ∀ i, (tables.correction.get i).status ≠ .armed) : Sound s (coldBlocks straps source tables u) := by
  refine .of_start (detectorRanges_iff.mpr ⟨fun c => ?_, fun e he => by cases he⟩) rfl ⟨rfl, rfl⟩ empty
  simp only [coldBlocks, Six.get_map]
  exact cold_averages _

theorem default_entries_empty (i : Fin 3) : (Defaults.tables.correction.get i).status ≠ .armed := by
  match i with
  | 0 | 1 | 2 => decide

/-- The image holds no correction entry (R185). -/
theorem tablesOfImage_correction (bs : List Byte) : (tablesOfImage bs).correction = Defaults.tables.correction := by
  have table (id : TableId) (hid : id ≠ .correction) (n i : Nat) (bs : List Byte) (t : Tables) :
      (loadTable id i n bs t).correction = t.correction := by
    induction n generalizing i bs t with
    | zero => rfl
    | succ n ih => rw [loadTable, ih, storeEntry_correction (by rwa [decodeEntry_table])]
  have all (ids : List TableId) (hids : .correction ∉ ids) (bs : List Byte) (t : Tables) :
      (loadTables ids bs t).correction = t.correction := by
    induction ids generalizing bs t with
    | nil => rfl
    | cons id ids ih =>
      rw [List.mem_cons, not_or] at hids
      rw [loadTables, ih hids.2, table id (Ne.symm hids.1)]
  exact all imageTables (by decide) _ _

theorem coldStart_sound (straps : Byte) (answers : Bool) (u : State) : Sound s (coldStart straps answers u) := by
  unfold coldStart
  split
  · refine (coldBlocks_sound straps .image u fun i => ?_).trans (.quiet (queueNotice_guarded _ _ _))
    rw [tablesOfImage_correction]
    exact default_entries_empty i
  · exact (coldBlocks_sound straps .defaults u default_entries_empty).trans (.quiet (queueNotice_guarded _ _ _))

theorem powerDown_sound (supply : Supply) (disconnect : Bool) (u : State) : Sound s (powerDown supply disconnect u) :=
  (coldBlocks_sound u.straps .defaults u default_entries_empty).trans (.quiet rfl)

/-! ### Samples (chapters 1 and 3) -/

theorem leave_instants (e : Strobe) (s : State) : Instants s (leave e s) := by
  unfold leave
  split
  · exact deliver_instants e _ s
  · exact declareMissing_instants e s

theorem deliverFront_instants (n : Nat) (s : State) : Instants s (deliverFront n s) := by
  induction n generalizing s with
  | zero => exact .refl s
  | succ n ih =>
    unfold deliverFront
    split
    · exact .refl s
    · split
      · exact .refl s
      · exact ((withSif_instants _ s).trans (deliver_instants _ _ _)).trans (ih _)

theorem pushOut_instants (s : State) : Instants s (pushOut s) := by
  unfold pushOut
  split
  · exact .refl s
  · split
    · exact .refl s
    · exact ((withSif_instants _ s).trans (leave_instants _ _)).trans (deliverFront_instants _ _)

theorem digitizerFrame_instants (bytes : List Byte) (s : State) : Instants s (digitizerFrame bytes s) := by
  unfold digitizerFrame
  split
  · exact count_instants 1 s
  · unfold matchFrame
    split
    · split
      · exact count_instants 3 s
      · exact (withSif_instants _ s).trans (deliverFront_instants _ _)
    · split <;> exact count_instants _ s

theorem Instants.bmn (h : Instants s t) : t.bmn = s.bmn := by
  obtain ⟨f, d, e, w, a, c, q, g, o, p, rfl⟩ := h
  rfl

theorem Instants.sound (h : Instants s t) (detectors : DetectorRanges s → DetectorRanges t) : Sound s t :=
  .of_samples detectors (congrArg _ h.tmb) ⟨congrArg _ h.bmn, congrArg _ h.bmn⟩ h.tables

theorem strobeInstant_sound (s : State) : Sound s (strobeInstant s) := by
  have h := pushOut_instants s
  refine .of_samples strobeInstant_detectorRanges ?_ ⟨congrArg Bmn.q h.bmn, congrArg Bmn.r h.bmn⟩ h.tables
  simp only [strobeInstant, Tmb.course, State.withTmb_tmb, State.withSif_tmb, h.tmb]

theorem detReset_sound (s : State) : Sound s (detReset s) :=
  (detReset_samples s).instants.sound fun h => detectorRanges_iff.mpr ⟨detReset_bank s, (detectorRanges_iff.mp h).2⟩

theorem sifRestart_sound (s : State) : Sound s (sifRestart s) := by
  have h := (clearA6_instants s).trans (withSif_instants (fun _ => Cold.sif s.tables.station.sampleRate) (clearA6 s))
  refine Instants.sound (t := sifRestart s) h fun d => detectorRanges_iff.mpr ⟨?_, fun e he => by cases he⟩
  have det : (sifRestart s).det = s.det := (clearA6_blocks s).1
  exact (detectorRanges_iff.mp d).1.congr fun c => by rw [det]

theorem detWrite_sound (c : Fin 6) (old : ChannelEntry) (s : State) : Sound s (detWrite c old s) := by
  refine (detWrite_samples c old s).instants.sound fun h => ?_
  obtain ⟨bank, frames⟩ := detectorRanges_iff.mp h
  refine detectorRanges_iff.mpr ⟨detWrite_bank c old bank, ?_⟩
  obtain ⟨d, e, w, a, n, q, eq⟩ := detWrite_samples c old s
  rw [eq]
  exact frames

/-! ### Station time and the scan -/

theorem secondBoundary_sound (s : State) : Sound s (secondBoundary s) where
  detectors := detectorRanges_timeLaws.secondBoundary
  freq := freqInRange_timeLaws.secondBoundary
  charge := chargeInRange_timeLaws.secondBoundary
  marks := markAhead_timeLaws.secondBoundary
  armed := secondBoundary_armedAhead

/-- What keeps every property of an edge is sound. -/
theorem Sound.of_edge (h : ∀ {P : State → Prop}, EdgeLaws P → P s → P t) : Sound s t where
  detectors := h (detectorRanges_timeLaws.edges fun _ _ _ h => h)
  freq := h (freqInRange_timeLaws.edges fun kp ki e _ => discipline_freqInRange kp ki e _)
  charge := h (chargeInRange_timeLaws.edges fun _ _ _ h => h)
  marks := h (markAhead_timeLaws.edges fun _ _ _ h => h)
  armed := h armedAhead_edgeLaws

theorem scanToCut_sound (x : MonitorInputs) (s : State) : Sound s (scanToCut x s) := by
  obtain ⟨strobes, det, course, tables⟩ := scanToCut_rest x s
  have label := course
  simp only [Tmb.course, Prod.mk.injEq] at label
  exact {
    detectors := fun h => h.congr strobes det
    freq := fun h => by simpa only [FreqInRange, label.1] using h
    charge := scanToCut_charge x
    marks := fun h => h.congr course
    armed := fun h => armedAhead_iff.mpr ((armedAhead_iff.mp h).disarm (.of_tables tables) label.2.1) }

theorem scan_sound (x : MonitorInputs) (s : State) : Sound s (scan x s) := by
  have judged := scanToCut_sound x s
  unfold scan
  dsimp only
  split
  · exact (powerDown_sound .cut true (scanToCut x s)).trans (.quiet rfl)
  · exact judged.trans (.quiet ((judgeAndRemember_guarded _ _).trans (levelStage_guarded _ _)))

/-! ### The commands of the centres -/

/-- A table write stores judged entries and lets them act (R177). -/
theorem actWrite_sound {table : TableId} {es : List Entry} (h : ∀ e ∈ es, Judged table s.tmb.label e) (first n : Nat) :
    Sound s (actWrite table first n s.tables { s with tables := storeEntries first es s.tables }) := by
  have targets (hs : ArmedAhead s) := storeEntries_targets h first (t := s.tables) hs
  by_cases hb : table = .battery
  · subst hb
    have written : Sound s (batteryWrite { s with tables := storeEntries first es s.tables }) := by
      have charge := batteryWrite_charge (s := { s with tables := storeEntries first es s.tables })
      obtain ⟨q, r, e⟩ := batteryWrite_eq { s with tables := storeEntries first es s.tables }
      rw [e] at charge ⊢
      exact ⟨id, id, fun hs => charge hs.2, id, targets⟩
    exact written.trans (.quiet (judgeZones_guarded _))
  · have stored : Sound s { s with tables := storeEntries first es s.tables } :=
      ⟨id, id, fun hs => hs.congr ⟨rfl, rfl⟩ (storeEntries_battery h first s.tables hb), id, targets⟩
    refine stored.trans ?_
    by_cases hc : table = .channel
    · subst hc
      exact (eachIndex_keeps (Q := Sound _) (fun i u hu => hu.trans (detWrite_sound _ _ u)) first n (.refl _)).trans
        (.quiet (streamWrite_guarded _ _))
    · exact .quiet (actWrite_guarded hc hb first n _ _)

theorem cmdTableWrite_sound (table first n : Nat) (entries : List Byte) (s : State) :
    Sound s (cmdTableWrite table first n entries s).state := by
  unfold cmdTableWrite
  split
  · exact .refl s
  · split
    · exact .refl s
    · split
      · exact .refl s
      · next es clamped judged => exact actWrite_sound (judgeEntries_judged judged) first n

theorem cmdTimeSet_sound (label fraction : Nat) (s : State) : Sound s (cmdTimeSet label fraction s).state := by
  unfold cmdTimeSet
  split
  · exact .of_edge fun L => L.setTime label _
  · exact .refl s

theorem cancelJobOn_guarded (n : Nat) (c : CancelCause) (s : State) : (cancelJobOn n c s).guarded = s.guarded :=
  (cancelJobOn_events n c s).guarded

theorem cmdHold_guarded (n minutes centre : Nat) (s : State) : (cmdHold n minutes centre s).state.guarded = s.guarded := by
  have granted (m : Nat) : (grantHold n centre m s).guarded = s.guarded := by
    unfold grantHold
    dsimp only
    split
    · rfl
    · split
      · exact cancelJob_guarded _ _
      · rfl
  unfold cmdHold
  dsimp only
  split
  · rfl
  · split
    · split <;> rfl
    · split
      · rfl
      · split
        · rfl
        · exact granted _

theorem cmdRelease_guarded (n centre : Nat) (s : State) : (cmdRelease n centre s).state.guarded = s.guarded := by
  unfold cmdRelease
  split
  · split
    · rfl
    · exact cancelJobOn_guarded _ _ _
  · rfl

theorem cmdWaveRequest_guarded (n offset count centre : Nat) (tag : Byte) (s : State) :
    (cmdWaveRequest n offset count centre tag s).state.guarded = s.guarded := by
  unfold cmdWaveRequest startJob
  dsimp only
  repeat' split
  all_goals rfl

theorem cmdWaveCancel_guarded (centre : Nat) (s : State) : (cmdWaveCancel centre s).state.guarded = s.guarded := by
  unfold cmdWaveCancel
  split
  · rfl
  · split
    · rfl
    · exact cancelJob_guarded _ _

theorem cmdAlertAck_guarded (id centre : Nat) (s : State) : (cmdAlertAck id centre s).state.guarded = s.guarded := by
  unfold cmdAlertAck
  split
  · rfl
  · dsimp only
    split
    · rfl
    · split
      · exact ((startRecheck_alerts _ _).guarded).trans (count_guarded 19 _)
      · rfl

theorem cmdLoadTest_guarded (load seconds : Nat) (s : State) : (cmdLoadTest load seconds s).state.guarded = s.guarded := by
  unfold cmdLoadTest
  split
  · dsimp only
    split
    · rfl
    · exact (refreshRequests_guarded _).trans (placeRequest_guarded ⟨load, _⟩ _ s)
  · rfl

theorem cmdSave_guarded (centre : Nat) (s : State) : (cmdSave centre s).state.guarded = s.guarded := by
  unfold cmdSave
  split <;> rfl

theorem cmdCounterClear_guarded (first n : Nat) (s : State) : (cmdCounterClear first n s).state.guarded = s.guarded := by
  unfold cmdCounterClear
  generalize clearCounters first n s.cnt = v
  split <;> rfl

theorem perform_sound (c : Command) (centre : Nat) (tag : Byte) (s : State) : Sound s (perform c centre tag s).state := by
  cases c with
  | tableWrite t f n es => exact cmdTableWrite_sound t f n es s
  | timeSet l f => exact cmdTimeSet_sound l f s
  | counterClear f n => exact .quiet (cmdCounterClear_guarded f n s)
  | alertAck i => exact .quiet (cmdAlertAck_guarded i centre s)
  | hold e m => exact .quiet (cmdHold_guarded e m centre s)
  | release e => exact .quiet (cmdRelease_guarded e centre s)
  | waveRequest e o n => exact .quiet (cmdWaveRequest_guarded e o n centre tag s)
  | waveCancel => exact .quiet (cmdWaveCancel_guarded centre s)
  | loadTest l n => exact .quiet (cmdLoadTest_guarded l n s)
  | save => exact .quiet (cmdSave_guarded centre s)
  | eventRead n => exact .quiet (congrArg State.guarded (cmdEventRead_state n s))
  | tableRead t f n => exact .quiet (congrArg State.guarded (cmdTableRead_state t f n s))
  | counterRead f n => exact .quiet (congrArg State.guarded (cmdCounterRead_state f n s))
  | emptyPayload | unknownKind _ | badLength _ | status | alertList | eventList | restart => exact .refl s

theorem wfsRestart_guarded (s : State) : (wfsRestart s).guarded = s.guarded := by
  unfold wfsRestart
  dsimp only
  split
  · rfl
  · split
    · rfl
    · exact (finishSegment_events s).guarded

theorem warmRestart_sound (straps : Byte) (s : State) : Sound s (warmRestart straps s) := by
  have blocks : Sound s (detReset (sifRestart (wfsRestart (evuRestart s)))) :=
    ((Sound.quiet ((wfsRestart_guarded _).trans (evuRestart_events s).guarded)).trans (sifRestart_sound _)).trans
      (detReset_sound _)
  refine blocks.trans (.quiet ?_)
  unfold warmRestart
  dsimp only
  rw [(aluRestart_alerts _).guarded, lnkRestart_guarded]
  exact (tmbRestart_guarded _).trans (ldaRestart_guarded _)

/-- Every operation that the commands are made of is sound. -/
theorem sound_stepLaws : StepLaws Sound where
  refl := .refl
  trans := .trans
  pending _ _ := .quiet rfl
  passTime dt s := .quiet (passTime_guarded dt s)
  settle s := .quiet (settle_guarded s)
  count k s := .quiet (count_guarded k s)
  coldStart straps answers s := coldStart_sound straps answers s
  powerDown supply disconnect s := powerDown_sound supply disconnect s
  strobeInstant := strobeInstant_sound
  digitizerFrame bytes s := (digitizerFrame_instants bytes s).sound (digitizerFrame_detectorRanges bytes)
  secondBoundary := secondBoundary_sound
  timeMessage bytes s := .quiet (timeMessage_guarded bytes s)
  ppsEdge _ := .of_edge fun L => L.ppsEdge
  beginFrame s := .quiet (beginFrame_guarded s)
  completeTransmission s := .quiet (completeTransmission_guarded s)
  radioReady s := .quiet (radioReady_guarded s)
  receiver _ _ _ := .quiet rfl
  scheduleScan _ := .quiet rfl
  scan := scan_sound
  switchOff l s := .quiet (switchOff_guarded l s)
  endRest l s := .quiet (endRest_guarded l s)
  endSuspension s := .quiet (endSuspension_guarded s)
  endColdWait s := .quiet (endColdWait_guarded s)
  saveComplete bytes s := .quiet (saveComplete_guarded bytes s)
  saveNoAnswer n s := .quiet (saveNoAnswer_guarded n s)
  reservePlace _ _ _ := .quiet rfl
  fillReply x s := .quiet (fillReply_guarded x s)
  perform := perform_sound
  warmRestart := warmRestart_sound

/-- Settles O53: every step is sound. -/
theorem stepKeepsDetectorFrequencyAndChargeRanges : Obligations.StepKeepsDetectorFrequencyAndChargeRanges :=
  ⟨fun _ _ h hs => (sound_stepLaws.step hs).detectors h, fun _ _ h hs => (sound_stepLaws.step hs).freq h,
    fun _ _ h hs => (sound_stepLaws.step hs).charge h⟩

/-- Settles O57: every step is sound. -/
theorem stepKeepsMarksAndArmedEntriesAhead : Obligations.StepKeepsMarksAndArmedEntriesAhead :=
  ⟨fun _ _ h hs => (sound_stepLaws.step hs).marks h, fun _ _ h hs => (sound_stepLaws.step hs).armed h⟩

end Sys2Proof.Machine
end

section
/-!
SUPPORT. What the work at the end of a step leaves of TMB, of the counters and of L1: `Settles s t` and `Onward s t`.
-/

namespace Sys2Proof.Machine

variable {s t : State}

/-! ### TMB and the counters -/

/-- TMB stands but for its view of L1, whose times are then 0; and no counter moves but K28 to K36. -/
structure Settles (s t : State) : Prop where
  tmb : t.tmb = s.tmb ∨ ∃ g, t.tmb = { s.tmb with gnss := g, onTime := 0, lockedTime := 0 }
  counters : ∀ k : Fin 40, k.val < 28 ∨ 36 < k.val → t.cnt[k] = s.cnt[k]

theorem Settles.of_eq (tmb : t.tmb = s.tmb) (cnt : t.cnt = s.cnt) : Settles s t := ⟨.inl tmb, fun k _ => by rw [cnt]⟩

theorem Settles.refl (s : State) : Settles s s := .of_eq rfl rfl

theorem Settles.trans {u : State} (h : Settles s t) (h' : Settles t u) : Settles s u := by
  refine ⟨?_, fun k hk => (h'.counters k hk).trans (h.counters k hk)⟩
  obtain e | ⟨g, e⟩ := h.tmb <;> obtain e' | ⟨g', e'⟩ := h'.tmb <;> rw [e', e]
  · exact .inl rfl
  · exact .inr ⟨g', rfl⟩
  · exact .inr ⟨g, rfl⟩
  · exact .inr ⟨g', rfl⟩

theorem count_settles {k : Fin 40} (h : 28 ≤ k.val ∧ k.val ≤ 36) (s : State) : Settles s (count k s) := by
  obtain ⟨q, -, e⟩ := count_eq k s
  refine ⟨.inl (by rw [e]), fun j hj => ?_⟩
  rw [count_getElem, if_neg]
  rintro rfl
  omega

theorem announceSwitch_tmb (l : Fin 8) (s : State) : (announceSwitch l s).tmb = s.tmb := by
  unfold announceSwitch reportSwitch
  dsimp only
  split
  · rfl
  · split <;> rfl

theorem tellOff_settles (l : Fin 8) (s : State) : Settles s (tellOff l s) := by
  refine ⟨?_, fun k _ => by rw [tellOff_cnt]⟩
  unfold tellOff
  split
  · exact .inl rfl
  · split
    · exact .inr ⟨.off, rfl⟩
    · exact .inl rfl

theorem tellGrant_settles (l : Fin 8) (s : State) : Settles s (tellGrant l s) := by
  refine ⟨?_, fun k _ => by rw [tellGrant_cnt]⟩
  unfold tellGrant
  split
  · exact .inl rfl
  · split
    · exact .inr ⟨_, rfl⟩
    · exact .inl rfl

theorem withLda_settles (f : Lda → Lda) (s : State) : Settles s (s.withLda f) := .of_eq rfl rfl

theorem updateLoad_settles (l : Fin 8) (f : Load → Load) (s : State) : Settles s (updateLoad l f s) := withLda_settles _ s

theorem endRest_settles (l : Fin 8) (s : State) : Settles s (endRest l s) := by
  unfold endRest
  exact updateLoad_settles l _ s

theorem placeRequest_settles (l : Fin 8) (r : Request) (s : State) : Settles s (placeRequest l r s) := by
  unfold placeRequest
  exact updateLoad_settles l _ s

theorem withdrawRequest_settles (l : Fin 8) (s : State) : Settles s (withdrawRequest l s) := by
  unfold withdrawRequest
  exact updateLoad_settles l _ s

theorem switchOff_settles (l : Fin 8) (s : State) : Settles s (switchOff l s) := by
  obtain h | ⟨f, t, rfl, h⟩ := switchOff_cases l s
  · rw [h]; exact .refl s
  · have told : Settles s (tellOff l (updateLoad l f (announceSwitch l s))) :=
      ((Settles.of_eq (announceSwitch_tmb l s) (announceSwitch_cnt l s)).trans (withLda_settles _ _)).trans
        (tellOff_settles l _)
    obtain h | h := h <;> rw [h]
    · exact told
    · exact told.trans (endRest_settles l _)

theorem grant_settles (l : Fin 8) (s : State) : Settles s (grant l s) := by
  unfold grant
  generalize (if (zoneOf l).isSome then burstSeconds s l * Config.second else 0) = b
  dsimp only
  refine Settles.trans ?_ ((Settles.of_eq (announceSwitch_tmb l _) (announceSwitch_cnt l _)).trans (tellGrant_settles l _))
  refine Settles.trans (Settles.trans (withLda_settles _ s) (withLda_settles _ _)) (count_settles ?_ _)
  exact ⟨by simp, by simp; omega⟩

theorem deferOne_settles (l : Fin 8) (s : State) : Settles s (deferOne l s) := by
  unfold deferOne
  split
  · exact (withLda_settles _ s).trans (count_settles ⟨by decide, by decide⟩ _)
  · exact .refl s

theorem arbitrate_settles (n : Nat) (s : State) : Settles s (arbitrate n s) := by
  induction n generalizing s with
  | zero => exact .refl s
  | succ n ih =>
    obtain ⟨d, h⟩ : ∃ d, loadsInOrder.foldl (fun s l => deferOne l s) s = d := ⟨_, rfl⟩
    have hd : Settles s d := h ▸ fold_keeps Settles.refl .trans (fun s l => deferOne_settles l s) loadsInOrder s
    rw [arbitrate_succ n s d h]
    cases chosenLoad d with
    | none => exact hd
    | some l => exact (hd.trans (grant_settles l d)).trans (ih _)

theorem requestGnss_settles (s : State) : Settles s (requestGnss s) := by
  unfold requestGnss
  split
  · exact .refl s
  · exact placeRequest_settles 1 _ s

theorem heaterWork_settles (z : Fin 6) (s : State) : Settles s (heaterWork z s) := by
  unfold heaterWork
  dsimp only
  split
  · split
    · exact placeRequest_settles _ _ s
    · exact .refl s
  · split
    · exact withdrawRequest_settles _ s
    · exact .refl s

theorem radioWork_settles (s : State) : Settles s (radioWork s) := by
  unfold radioWork
  split
  · split <;> exact .of_eq rfl rfl
  · split <;> exact .of_eq rfl rfl
  · exact .refl s
  · exact .refl s

theorem lingerWork_settles (s : State) : Settles s (lingerWork s) := by
  unfold lingerWork
  split
  · split
    · exact .refl s
    · split
      · exact switchOff_settles 0 s
      · exact .of_eq rfl rfl
  · exact .of_eq rfl rfl

theorem endSuspension_settles (s : State) : Settles s (endSuspension s) := by
  unfold endSuspension
  split
  · exact .refl s
  · split
    · exact withLda_settles _ s
    · exact .refl s

theorem endColdWait_settles (s : State) : Settles s (endColdWait s) := by
  unfold endColdWait
  split
  · exact withLda_settles _ s
  · exact .refl s

theorem gnssWork_settles (s : State) : Settles s (gnssWork s) := by
  unfold gnssWork
  split
  · exact requestGnss_settles s
  · exact .refl s

theorem judgeRequests_settles (s : State) : Settles s (judgeRequests s) :=
  (radioWork_settles s).trans (arbitrate_settles _ _)

theorem enforcePermission_settles (s : State) : Settles s (enforcePermission s) :=
  fold_keeps Settles.refl .trans (fun s l => by
    split
    · exact .refl s
    · exact switchOff_settles l s) loadsInOrder s

/-- What the work at the end of a step does, as one chain. -/
theorem settle_settles (s : State) : Settles s (settle s) := by
  unfold settle
  split
  · have permitted := (withLda_settles _ s).trans (enforcePermission_settles (refreshRequests s))
    have requested : Settles s (refreshRequests (heatersWork (gnssWork (enforcePermission (refreshRequests s))))) :=
      ((permitted.trans (gnssWork_settles _)).trans
        (fold_keeps Settles.refl .trans (fun s z => heaterWork_settles z s) zonesInOrder _)).trans (withLda_settles _ _)
    exact (((((requested.trans (endSuspension_settles _)).trans (endColdWait_settles _)).trans
      (judgeRequests_settles _)).trans (judgeRequests_settles _)).trans (lingerWork_settles _))
  · exact .refl s

/-- A counter that is none of K28 to K36 stands. -/
theorem settle_counter (k : Fin 40) (s : State) (hk : k.val < 28 ∨ 36 < k.val := by decide) :
    (settle s).cnt[k] = s.cnt[k] := (settle_settles s).counters k hk

/-- TMB but for its view of L1. -/
theorem settle_tmb (s : State) : ∃ g o l, (settle s).tmb = { s.tmb with gnss := g, onTime := o, lockedTime := l } ∧
    (o = s.tmb.onTime ∨ o = 0) ∧ (l = s.tmb.lockedTime ∨ l = 0) := by
  obtain e | ⟨g, e⟩ := (settle_settles s).tmb
  · exact ⟨_, _, _, e, .inl rfl, .inl rfl⟩
  · exact ⟨g, 0, 0, e, .inr rfl, .inr rfl⟩

theorem settle_fields (s : State) :
    (settle s).supply = s.supply ∧ (settle s).sif = s.sif ∧ (settle s).wfs = s.wfs ∧ (settle s).alu = s.alu ∧
      (settle s).bmn = s.bmn ∧ (settle s).hzc = s.hzc ∧ (settle s).cmd = s.cmd ∧ (settle s).tables = s.tables := by
  obtain ⟨supply, -, -, sif, wfs, alu, bmn, hzc, cmd, tables, -⟩ := butSwitching_fields (settle_butSwitching s)
  exact ⟨supply, sif, wfs, alu, bmn, hzc, cmd, tables⟩

/-! ### L1 after its request has been placed, or at rest -/

/-- L1's load. -/
abbrev State.l1 (s : State) : Load := s.lda.loads.get 1

/-- L1 goes on resting with the same rest and TMB as it is; and a request that is placed stands until it is granted. -/
structure Onward (s t : State) : Prop where
  rests : s.l1.state = .resting → t.l1.state = .resting ∧ t.l1.rest = s.l1.rest ∧ t.tmb = s.tmb
  asks : s.l1.state = .requested ∨ s.l1.state = .on → t.l1.state = .requested ∨ t.l1.state = .on

theorem Onward.of_same (state : t.l1.state = s.l1.state) (rest : t.l1.rest = s.l1.rest) (tmb : t.tmb = s.tmb) : Onward s t :=
  ⟨fun h => ⟨state.trans h, rest, tmb⟩, fun h => by rwa [state]⟩

theorem Onward.refl (s : State) : Onward s s := .of_same rfl rfl rfl

theorem Onward.trans {u : State} (h : Onward s t) (h' : Onward t u) : Onward s u where
  rests hs := by
    obtain ⟨state, rest, tmb⟩ := h.rests hs
    obtain ⟨state', rest', tmb'⟩ := h'.rests state
    exact ⟨state', rest'.trans rest, tmb'.trans tmb⟩
  asks hs := h'.asks (h.asks hs)

theorem announceSwitch_lda (l : Fin 8) (s : State) : (announceSwitch l s).lda = s.lda := by
  unfold announceSwitch reportSwitch
  dsimp only
  split
  · rfl
  · split <;> rfl

theorem tellOff_lda (l : Fin 8) (s : State) : (tellOff l s).lda = s.lda := by
  unfold tellOff
  split
  · rfl
  · split <;> rfl

theorem tellGrant_lda (l : Fin 8) (s : State) : (tellGrant l s).lda = s.lda := by
  unfold tellGrant
  split
  · rfl
  · split <;> rfl

theorem count_lda (k : Fin 40) (s : State) : (count k s).lda = s.lda := by
  obtain ⟨q, -, e⟩ := count_eq k s
  rw [e]

theorem count_tmb (k : Fin 40) (s : State) : (count k s).tmb = s.tmb := by
  obtain ⟨q, -, e⟩ := count_eq k s
  rw [e]

theorem updateLoad_l1_ne {l : Fin 8} (h : 1 ≠ l) (f : Load → Load) (s : State) : (updateLoad l f s).l1 = s.l1 := by
  simp only [State.l1, updateLoad, State.withLda_lda, Eight.get_set, if_neg h]

theorem updateLoad_l1 (f : Load → Load) (s : State) : (updateLoad 1 f s).l1 = f s.l1 := by
  simp only [State.l1, updateLoad, State.withLda_lda, Eight.get_set, if_pos]

theorem updateLoad_onward {l : Fin 8} (h : 1 ≠ l) (f : Load → Load) (s : State) : Onward s (updateLoad l f s) :=
  .of_same (by rw [updateLoad_l1_ne h]) (by rw [updateLoad_l1_ne h]) rfl

theorem Onward.of_lda (lda : t.lda = s.lda) (tmb : t.tmb = s.tmb) : Onward s t :=
  .of_same (by rw [State.l1, lda]) (by rw [State.l1, lda]) tmb

/-- Another load's switch-off is nothing to L1. -/
theorem switchOff_onward {l : Fin 8} (h : 1 ≠ l) (s : State) : Onward s (switchOff l s) ∧ (switchOff l s).l1 = s.l1 := by
  have told (f : Load → Load) : (tellOff l (updateLoad l f (announceSwitch l s))).l1 = s.l1 := by
    rw [State.l1, tellOff_lda]
    refine (updateLoad_l1_ne h f _).trans ?_
    rw [State.l1, announceSwitch_lda]
  have tmb (f : Load → Load) : (tellOff l (updateLoad l f (announceSwitch l s))).tmb = s.tmb := by
    have other : l.val ≠ 1 := fun e => h (Fin.ext e.symm)
    refine Eq.trans ?_ (announceSwitch_tmb l s)
    unfold tellOff
    rw [if_neg other]
    split
    · rfl
    · rfl
  obtain e | ⟨f, t, rfl, e | e⟩ := switchOff_cases l s <;> rw [e]
  · exact ⟨.refl s, rfl⟩
  · exact ⟨.of_same (by rw [told]) (by rw [told]) (tmb f), told f⟩
  · have rest : (endRest l (tellOff l (updateLoad l f (announceSwitch l s)))).l1 = s.l1 :=
      (updateLoad_l1_ne h _ _).trans (told f)
    exact ⟨.of_same (by rw [rest]) (by rw [rest]) (tmb f), rest⟩

/-- A load that is not ON is not switched off. -/
theorem switchOff_of_not_on {l : Fin 8} (h : (s.lda.loads.get l).state ≠ .on) : switchOff l s = s := if_pos h

/-- Permissions leave an L1 that is not ON as it is. -/
theorem enforcePermission_l1 (h : s.l1.state ≠ .on) : Onward s (enforcePermission s) ∧ (enforcePermission s).l1 = s.l1 := by
  refine List.foldlRecOn (motive := fun u => Onward s u ∧ u.l1 = s.l1) loadsInOrder _ ⟨.refl s, rfl⟩ fun u hu l _ => ?_
  obtain ⟨on, same⟩ := hu
  split
  · exact ⟨on, same⟩
  · by_cases hl : 1 = l
    · subst hl
      have off : u.l1.state ≠ .on := by rwa [same]
      rw [switchOff_of_not_on off]
      exact ⟨on, same⟩
    · obtain ⟨on', same'⟩ := switchOff_onward hl u
      exact ⟨on.trans on', same'.trans same⟩

theorem placeRequest_onward (l : Fin 8) (r : Request) (s : State) : Onward s (placeRequest l r s) := by
  by_cases h : 1 = l
  · subst h
    constructor
    · intro hs
      unfold placeRequest
      rw [updateLoad_l1]
      simp only [hs]
      split <;> exact ⟨rfl, rfl, rfl⟩
    · intro hs
      unfold placeRequest
      rw [updateLoad_l1]
      obtain hs | hs := hs <;> simp [hs]
  · exact updateLoad_onward h _ s

theorem refreshRequests_onward (s : State) : Onward s (refreshRequests s) := by
  have h : (refreshRequests s).l1.state = s.l1.state ∧ (refreshRequests s).l1.rest = s.l1.rest := by
    simp [refreshRequests, State.l1]
  exact .of_same h.1 h.2 rfl

theorem requestGnss_onward (s : State) : Onward s (requestGnss s) := by
  unfold requestGnss
  split
  · exact .refl s
  · exact placeRequest_onward 1 _ s

theorem heaterOf_ne_one (z : Fin 6) : 1 ≠ heaterOf z := fun h => by
  have := congrArg Fin.val h
  simp [heaterOf] at this

theorem heaterWork_onward (z : Fin 6) (s : State) : Onward s (heaterWork z s) := by
  unfold heaterWork
  dsimp only
  split
  · split
    · exact placeRequest_onward _ _ s
    · exact .refl s
  · split
    · exact updateLoad_onward (heaterOf_ne_one z) _ s
    · exact .refl s

theorem endSuspension_onward (s : State) : Onward s (endSuspension s) := by
  unfold endSuspension
  split
  · exact .refl s
  · split
    · exact .of_same rfl rfl rfl
    · exact .refl s

theorem endColdWait_onward (s : State) : Onward s (endColdWait s) := by
  unfold endColdWait
  split
  · exact .of_same rfl rfl rfl
  · exact .refl s

theorem radioWork_onward (s : State) : Onward s (radioWork s) := by
  have withLnk (f : Lnk → Lnk) : Onward s (s.withLnk f) := .of_same rfl rfl rfl
  have judged (u : State) : Onward u (judgeListening u) := .of_same rfl rfl rfl
  unfold radioWork
  split
  · split
    · exact ((withLnk _).trans (placeRequest_onward 0 _ _)).trans (judged _)
    · exact .refl s
  · split
    · exact placeRequest_onward 0 _ s
    · exact ((withLnk _).trans (updateLoad_onward (by decide) _ _)).trans (judged _)
  · exact .refl s
  · exact .refl s

theorem lingerWork_onward (s : State) : Onward s (lingerWork s) := by
  unfold lingerWork
  split
  · split
    · exact .refl s
    · split
      · exact (switchOff_onward (by decide) s).1
      · exact .of_same rfl rfl rfl
  · exact .of_same rfl rfl rfl

theorem deferOne_onward (l : Fin 8) (s : State) : Onward s (deferOne l s) := by
  unfold deferOne
  split
  · refine Onward.trans ?_ (.of_lda (count_lda 36 _) (count_tmb 36 _))
    by_cases h : 1 = l
    · subst h
      exact .of_same (by rw [updateLoad_l1]) (by rw [updateLoad_l1]) rfl
    · exact updateLoad_onward h _ s
  · exact .refl s

/-- The chosen load is an eligible one (R156). -/
theorem eligible_of_chosen {l : Fin 8} (h : chosenLoad s = some l) : eligible s l = true := by
  have all : ∀ b ∈ chosenLoad s, eligible s b = true := by
    refine List.foldlRecOn (motive := fun best => ∀ b ∈ best, eligible s b = true) loadsInOrder _
      (fun b hb => by cases hb) fun best hbest l _ => ?_
    split
    · next el =>
      split
      · intro b hb
        obtain rfl : l = b := by simpa using hb
        exact el
      · next b =>
        split
        · intro c hc
          obtain rfl : l = c := by simpa using hc
          exact el
        · exact hbest
    · exact hbest
  exact all l h

theorem requested_of_eligible {l : Fin 8} (h : eligible s l = true) : (s.lda.loads.get l).state = .requested := by
  simp only [eligible, eligibleButQuiet, Bool.and_eq_true, beq_iff_eq] at h
  tauto

theorem grant_onward {l : Fin 8} (h : (s.lda.loads.get l).state = .requested) : Onward s (grant l s) := by
  unfold grant
  generalize (if (zoneOf l).isSome then burstSeconds s l * Config.second else 0) = b
  dsimp only
  generalize hu : updateLoad l _ s = u
  generalize hv : count (activationCounter l) (u.withLda _) = v
  have lda : v.lda.loads = u.lda.loads := by subst hv; rw [count_lda]; rfl
  have tmb : v.tmb = s.tmb := by subst hv hu; rw [count_tmb]; rfl
  have told : (tellGrant l (announceSwitch l v)).l1 = u.l1 := by rw [State.l1, tellGrant_lda, announceSwitch_lda, lda]
  by_cases hl : 1 = l
  · subst hl
    refine ⟨fun r => ?_, fun _ => .inr ?_⟩
    · rw [State.l1, h] at r
      cases r
    · rw [told, ← hu, updateLoad_l1]
  · have other : l.val ≠ 1 := fun e => hl (Fin.ext e.symm)
    have same : (tellGrant l (announceSwitch l v)).l1 = s.l1 := by rw [told, ← hu, updateLoad_l1_ne hl]
    refine .of_same (by rw [same]) (by rw [same]) ?_
    refine Eq.trans ?_ ((announceSwitch_tmb l v).trans tmb)
    unfold tellGrant
    rw [if_neg other]
    split <;> rfl

theorem arbitrate_onward (n : Nat) (s : State) : Onward s (arbitrate n s) := by
  induction n generalizing s with
  | zero => exact .refl s
  | succ n ih =>
    obtain ⟨d, h⟩ : ∃ d, loadsInOrder.foldl (fun s l => deferOne l s) s = d := ⟨_, rfl⟩
    have hd : Onward s d := h ▸ fold_keeps Onward.refl .trans (fun s l => deferOne_onward l s) loadsInOrder s
    rw [arbitrate_succ n s d h]
    cases hc : chosenLoad d with
    | none => exact hd
    | some l => exact (hd.trans (grant_onward (requested_of_eligible (eligible_of_chosen hc)))).trans (ih _)

theorem gnssWork_onward (s : State) : Onward s (gnssWork s) := by
  unfold gnssWork
  split
  · exact requestGnss_onward s
  · exact .refl s

/-- The work at the end of a step, for an L1 that is not ON before it. -/
theorem settle_onward (h : s.l1.state ≠ .on) : Onward s (settle s) := by
  have judged (u : State) : Onward u (judgeRequests u) := (radioWork_onward u).trans (arbitrate_onward _ _)
  unfold settle
  split
  · have refreshed : (refreshRequests s).l1.state = s.l1.state := by simp [refreshRequests, State.l1]
    have permitted := (refreshRequests_onward s).trans (enforcePermission_l1 (refreshed ▸ h)).1
    have requested : Onward s (refreshRequests (heatersWork (gnssWork (enforcePermission (refreshRequests s))))) :=
      ((permitted.trans (gnssWork_onward _)).trans
        (fold_keeps Onward.refl .trans (fun s z => heaterWork_onward z s) zonesInOrder _)).trans (refreshRequests_onward _)
    exact ((((requested.trans (endSuspension_onward _)).trans (endColdWait_onward _)).trans (judged _)).trans
      (judged _)).trans (lingerWork_onward _)
  · exact .refl s

end Sys2Proof.Machine
end

section
/-!
SUPPORT. What a second tick does (R13, R23, R24, R35 to R37, R91, R131): each stage of TMB's work by what it makes of TMB, the view
`State.beside` of what the tick leaves, and the counters it counts in.
-/

namespace Sys2Proof.Machine

variable {s t : State}

/-! ### What a tick leaves -/

/-- The state but for TMB, ALU, LDA, blank remaining, the blanked-during flags, the counters and the notices. -/
def State.beside (s : State) : State :=
  { s with
    cnt := Vector.replicate 40 0
    lda := Cold.lda 0 0
    tmb := Cold.tmb
    alu := Cold.alu
    det := s.det.map Detector.unblanked
    evu := { s.evu with table := s.evu.table.map EventRecord.unblanked }
    lnk := { s.lnk with notices := [] } }

theorem Alerts.beside (h : Alerts s t) : t.beside = s.beside := by
  obtain ⟨a, c, q, rfl⟩ := h
  rfl

@[simp] theorem withTmb_beside (f : Tmb → Tmb) (s : State) : (s.withTmb f).beside = s.beside := rfl
@[simp] theorem withLda_beside (f : Lda → Lda) (s : State) : (s.withLda f).beside = s.beside := rfl

theorem beside_of_butSwitching (h : t.butSwitching = s.butSwitching) (lnk : t.lnk = s.lnk) : t.beside = s.beside := by
  have e : ∀ u : State, u.beside =
      { u.butSwitching with tmb := Cold.tmb, alu := Cold.alu, lnk := { u.lnk with notices := [] } } := fun _ => rfl
  rw [e, e, h, lnk]

theorem announceSwitch_lnk (l : Fin 8) (s : State) : (announceSwitch l s).lnk = s.lnk := by
  unfold announceSwitch reportSwitch
  dsimp only
  split
  · rfl
  · split <;> rfl

theorem updateLoad_lnk (l : Fin 8) (f : Load → Load) (s : State) : (updateLoad l f s).lnk = s.lnk := rfl

theorem endRest_lnk (l : Fin 8) (s : State) : (endRest l s).lnk = s.lnk := by
  unfold endRest
  exact updateLoad_lnk l _ s

theorem tellOff_lnk {l : Fin 8} (h : l ≠ 0) (s : State) : (tellOff l s).lnk = s.lnk := by
  have other : l.val ≠ 0 := fun e => h (Fin.ext e)
  unfold tellOff
  rw [if_neg other]
  split <;> rfl

/-- Of the loads only L0 has its switch-off told to LNK (R157). -/
theorem switchOff_lnk {l : Fin 8} (h : l ≠ 0) (s : State) : (switchOff l s).lnk = s.lnk := by
  have told (f : Load → Load) : (tellOff l (updateLoad l f (announceSwitch l s))).lnk = s.lnk :=
    (tellOff_lnk h _).trans ((updateLoad_lnk l f _).trans (announceSwitch_lnk l s))
  obtain e | ⟨f, t, ht, e | e⟩ := switchOff_cases l s
  · rw [e]
  · rw [e, ht]
    exact told f
  · rw [e, ht]
    exact (endRest_lnk l _).trans (told f)

theorem switchOff_beside {l : Fin 8} (h : l ≠ 0) (s : State) : (switchOff l s).beside = s.beside :=
  beside_of_butSwitching (switchOff_butSwitching l s) (switchOff_lnk h s)

/-! ### The stages of TMB's work -/

theorem updateLoad_tmb (l : Fin 8) (f : Load → Load) (s : State) : (updateLoad l f s).tmb = s.tmb := rfl

theorem endRest_tmb (l : Fin 8) (s : State) : (endRest l s).tmb = s.tmb := by
  unfold endRest
  exact updateLoad_tmb l _ s

theorem tellOff_one_tmb (s : State) : (tellOff 1 s).tmb = { s.tmb with gnss := .off, onTime := 0, lockedTime := 0 } := rfl

/-- An ON load's switch-off. -/
theorem switchOff_of_on {l : Fin 8} (h : (s.lda.loads.get l).state = .on) :
    ∃ f, switchOff l s = tellOff l (updateLoad l f (announceSwitch l s)) ∨
      switchOff l s = endRest l (tellOff l (updateLoad l f (announceSwitch l s))) := by
  unfold switchOff
  rw [if_neg (not_not.mpr h)]
  refine ⟨fun x =>
    { x with
      state := .resting, request := none, remembered := false, deferred := false, burst := 0
      rest := (s.tables.load.get l).minRest * Config.second }, ?_⟩
  dsimp only
  split
  · exact .inr rfl
  · exact .inl rfl

/-- L1 goes off: TMB's view of it is off, with its times at 0 (R157, R35). -/
theorem switchOff_one_tmb (h : s.l1.state = .on) :
    (switchOff 1 s).tmb = { s.tmb with gnss := .off, onTime := 0, lockedTime := 0 } := by
  obtain ⟨f, e | e⟩ := switchOff_of_on h
  · rw [e, tellOff_one_tmb, updateLoad_tmb, announceSwitch_tmb]
  · rw [e, endRest_tmb, tellOff_one_tmb, updateLoad_tmb, announceSwitch_tmb]

theorem reportCondition_tmb (cls : Fin 8) (value : Bool) (p : AlertPayload) (s : State) :
    (reportCondition cls value p s).tmb = s.tmb := by
  obtain ⟨a, c, q, e⟩ := reportCondition_alerts cls value p s
  rw [e]

/-- A3 is judged by the state as it stands (R26). -/
theorem judgeA3_tmb (s : State) : (judgeA3 s).tmb = { s.tmb with a3 := a3Condition s.tmb } := by
  unfold judgeA3
  dsimp only
  split
  · next h => rw [h]
  · rw [reportCondition_tmb]
    rfl

theorem placeRequest_tmb (l : Fin 8) (r : Request) (s : State) : (placeRequest l r s).tmb = s.tmb := by
  unfold placeRequest
  rfl

theorem requestGnss_tmb (s : State) : (requestGnss s).tmb = s.tmb := by
  unfold requestGnss
  split
  · rfl
  · exact placeRequest_tmb 1 _ s

theorem dutyRequest_tmb (s : State) : (dutyRequest s).tmb = s.tmb := by
  unfold dutyRequest
  split
  · exact requestGnss_tmb s
  · rfl

theorem settleGnss_tmb (s : State) :
    (settleGnss s).tmb =
      { s.tmb with
        gnss := if s.tmb.gnss = .settling ∧ s.tables.time.gnssSettle ≤ s.tmb.onTime then .active else s.tmb.gnss } := by
  unfold settleGnss
  split <;> rfl

theorem holdoverEntry_tmb (s : State) :
    (holdoverEntry s).tmb =
      if s.tmb.tq = .locked ∧ s.tables.time.holdoverTimeout ≤ s.tmb.edgeAge then
        { s.tmb with tq := .holdover, err := s.tables.time.lockThreshold, lockedTime := 0 }
      else s.tmb := by
  unfold holdoverEntry
  split <;> rfl

theorem driftingEntry_tmb (was : TimeQuality) (s : State) :
    (driftingEntry was s).tmb =
      if was = .holdover ∧ s.tmb.tq = .holdover ∧ s.tables.time.degradeBound < s.tmb.err then { s.tmb with tq := .drifting }
      else s.tmb := by
  unfold driftingEntry
  split <;> rfl

/-- A duty release (R36): LOCKED is left for HOLDOVER, the counter is reloaded, and L1 is off. -/
theorem releaseGnss_tmb (h : s.l1.state = .on) :
    (releaseGnss s).tmb =
      { s.tmb with
        tq := if s.tmb.tq = .locked then .holdover else s.tmb.tq
        err := if s.tmb.tq = .locked then s.tables.time.lockThreshold else s.tmb.err
        refixArmed := if s.tmb.tq = .locked then s.tmb.refixArmed else false
        refixCounter := refixReload s
        gnss := .off, onTime := 0, lockedTime := 0 } := by
  unfold releaseGnss
  dsimp only
  split
  · refine (switchOff_one_tmb ?_).trans ?_
    · exact h
    · rfl
  · refine (switchOff_one_tmb ?_).trans ?_
    · exact h
    · rfl

/-! ### The stages, beside TMB -/

theorem placeRequest_beside (l : Fin 8) (r : Request) (s : State) : (placeRequest l r s).beside = s.beside := by
  unfold placeRequest updateLoad
  exact withLda_beside _ s

theorem requestGnss_beside (s : State) : (requestGnss s).beside = s.beside := by
  unfold requestGnss
  split
  · rfl
  · exact placeRequest_beside 1 _ s

theorem dutyRequest_beside (s : State) : (dutyRequest s).beside = s.beside := by
  unfold dutyRequest
  split
  · exact requestGnss_beside s
  · rfl

theorem settleGnss_beside (s : State) : (settleGnss s).beside = s.beside := by
  unfold settleGnss
  split <;> rfl

theorem holdoverEntry_beside (s : State) : (holdoverEntry s).beside = s.beside := by
  unfold holdoverEntry
  split <;> rfl

theorem driftingEntry_beside (was : TimeQuality) (s : State) : (driftingEntry was s).beside = s.beside := by
  unfold driftingEntry
  split <;> rfl

theorem releaseGnss_beside (s : State) : (releaseGnss s).beside = s.beside := by
  unfold releaseGnss
  dsimp only
  split <;> exact (switchOff_beside (by decide) _).trans rfl

theorem dutyRelease_beside (s : State) : (dutyRelease s).beside = s.beside := by
  unfold dutyRelease
  split
  · exact releaseGnss_beside s
  · rfl

theorem judgeA3_beside (s : State) : (judgeA3 s).beside = s.beside := by
  unfold judgeA3
  dsimp only
  split
  · rfl
  · exact (reportCondition_alerts _ _ _ _).beside

/-- TMB with the counts of the second, before the judgements of the tick (R13, R24, R35, R37). -/
def tickCounted (s : State) : State :=
  s.withTmb (Tmb.tickCounts ((s.lda.loads.get 1).state == .on) s.tables.time.drift)

/-- The tick after R36's release, before R23 and R24. -/
def tickReleased (s : State) : State := dutyRelease (settleGnss (tickCounted s))

/-- The tick up to R37's request. -/
def tickJudged (s : State) : State := driftingEntry s.tmb.tq (holdoverEntry (tickReleased s))

theorem tmbTick_eq (s : State) : tmbTick s = judgeA3 (dutyRequest (tickJudged s)) := rfl

theorem tickReleased_beside (s : State) : (tickReleased s).beside = s.beside :=
  (dutyRelease_beside _).trans ((settleGnss_beside _).trans rfl)

theorem tickJudged_beside (s : State) : (tickJudged s).beside = s.beside :=
  (driftingEntry_beside _ _).trans ((holdoverEntry_beside _).trans (tickReleased_beside s))

theorem tmbTick_beside (s : State) : (tmbTick s).beside = s.beside :=
  (judgeA3_beside _).trans ((dutyRequest_beside _).trans (tickJudged_beside s))

theorem beside_fields (h : t.beside = s.beside) :
    t.supply = s.supply ∧ t.sif = s.sif ∧ t.wfs = s.wfs ∧ t.bmn = s.bmn ∧ t.hzc = s.hzc ∧ t.cmd = s.cmd ∧
      t.tables = s.tables ∧ (∀ c, (t.det.get c).unblanked = (s.det.get c).unblanked) ∧
      { t.evu with table := t.evu.table.map EventRecord.unblanked } =
        { s.evu with table := s.evu.table.map EventRecord.unblanked } ∧
      { t.lnk with notices := [] } = { s.lnk with notices := [] } := by
  simp only [State.beside, State.mk.injEq] at h
  obtain ⟨supply, -, -, sif, -, det, evu, wfs, -, lnk, bmn, -, hzc, cmd, -, tables, -⟩ := h
  refine ⟨supply, sif, wfs, bmn, hzc, cmd, tables, fun c => ?_, evu, lnk⟩
  rw [← Six.get_map Detector.unblanked, det, Six.get_map]

/-! ### What the stages make of TMB -/

/-- TMB but for what a tick may move. -/
def Tmb.standing (t : Tmb) : Tmb :=
  { t with
    tq := .unset, err := 0, edgeAge := 0, gnss := .off, onTime := 0, lockedTime := 0, refixCounter := 0
    refixArmed := false, restartAge := 0, a3 := false }

theorem dutyRelease_tmb (s : State) :
    (releaseDue s = true ∧ (dutyRelease s).tmb = (releaseGnss s).tmb ∧ s.l1.state = .on) ∨
      (releaseDue s = false ∧ dutyRelease s = s) := by
  unfold dutyRelease
  split
  · next h =>
    refine .inl ⟨h, rfl, ?_⟩
    simp only [releaseDue, Bool.and_eq_true, beq_iff_eq] at h
    exact h.1.2
  · next h => exact .inr ⟨by simpa using h, rfl⟩

theorem dutyRelease_standing (s : State) :
    (dutyRelease s).tmb.standing = s.tmb.standing ∧ (dutyRelease s).tmb.edgeAge = s.tmb.edgeAge ∧
      (dutyRelease s).tmb.restartAge = s.tmb.restartAge := by
  obtain ⟨-, e, on⟩ | ⟨-, e⟩ := dutyRelease_tmb s
  · rw [e, releaseGnss_tmb on]
    exact ⟨rfl, rfl, rfl⟩
  · rw [e]
    exact ⟨rfl, rfl, rfl⟩

/-- The counts of the second (R13, R35, R40) and what a tick leaves of TMB. -/
theorem tmbTick_standing (s : State) :
    (tmbTick s).tmb.standing = s.tmb.standing ∧ (tmbTick s).tmb.edgeAge = min 65535 (s.tmb.edgeAge + 1) ∧
      (tmbTick s).tmb.restartAge = min 601 (s.tmb.restartAge + 1) := by
  obtain ⟨stands, edge, restart⟩ := dutyRelease_standing (settleGnss (tickCounted s))
  rw [settleGnss_tmb] at stands edge restart
  rw [tmbTick_eq, judgeA3_tmb, dutyRequest_tmb, tickJudged, driftingEntry_tmb, holdoverEntry_tmb]
  rw [← tickReleased] at stands edge restart
  have counted : (tickCounted s).tmb.standing = s.tmb.standing := rfl
  refine ⟨?_, ?_, ?_⟩
  · refine Eq.trans ?_ (stands.trans counted)
    split <;> split <;> rfl
  · refine Eq.trans ?_ edge
    split <;> split <;> rfl
  · refine Eq.trans ?_ restart
    split <;> split <;> rfl

/-! ### The counters of a tick -/

/-- None of the counters that the alerts count in (R100, R101, R108). -/
abbrev ApartFromAlerts (k : Fin 40) : Prop := k ≠ 17 ∧ k ≠ 20 ∧ k ≠ 21

theorem withAlu_counter (f : Alu → Alu) (k : Fin 40) (s : State) : (s.withAlu f).cnt[k] = s.cnt[k] := rfl

theorem startRecheck_counter (cls : Fin 8) (k : Fin 40) (s : State) : (startRecheck cls s).cnt[k] = s.cnt[k] := by
  unfold startRecheck
  dsimp only
  split <;> rfl

theorem raiseAlert_counter (cls : Fin 8) (p : Option AlertPayload) {k : Fin 40} (hk : ApartFromAlerts k) (s : State) :
    (raiseAlert cls p s).cnt[k] = s.cnt[k] := by
  obtain ⟨h17, -, h21⟩ := hk
  have raised : (count 17 s).cnt[k] = s.cnt[k] := by rw [count_getElem, if_neg (Ne.symm h17)]
  have lost (u : State) : (count 21 u).cnt[k] = u.cnt[k] := by rw [count_getElem, if_neg (Ne.symm h21)]
  unfold raiseAlert
  dsimp only
  split
  · exact raised
  · split
    · exact raised
    · split
      · exact (withAlu_counter _ k _).trans ((startRecheck_counter _ k _).trans ((lost _).trans raised))
      · exact (startRecheck_counter _ k _).trans ((lost _).trans raised)

theorem reportCondition_counter_apart (cls : Fin 8) (value : Bool) (p : AlertPayload) {k : Fin 40} (hk : ApartFromAlerts k)
    (s : State) : (reportCondition cls value p s).cnt[k] = s.cnt[k] := by
  unfold reportCondition
  dsimp only
  split
  · split
    · rfl
    · split
      · rfl
      · split
        · rfl
        · exact raiseAlert_counter cls _ hk _
  · split <;> rfl

theorem judgeA3_counter {k : Fin 40} (hk : ApartFromAlerts k) (s : State) : (judgeA3 s).cnt[k] = s.cnt[k] := by
  unfold judgeA3
  dsimp only
  split
  · rfl
  · exact reportCondition_counter_apart 3 _ _ hk _

theorem recheckTick_counter (cls : Fin 8) {k : Fin 40} (hk : ApartFromAlerts k) (s : State) :
    (recheckTick cls s).cnt[k] = s.cnt[k] := by
  unfold recheckTick
  split
  · rfl
  · split
    · rfl
    · dsimp only
      split
      · exact raiseAlert_counter cls _ hk _
      · rfl

/-- A fold of steps that leave a counter leaves it. -/
theorem foldl_counter {α : Type} {f : State → α → State} {k : Fin 40} (hf : ∀ s x, (f s x).cnt[k] = s.cnt[k]) (l : List α)
    (s : State) : (l.foldl f s).cnt[k] = s.cnt[k] :=
  fold_keeps (R := fun s t => t.cnt[k] = s.cnt[k]) (fun _ => rfl) (fun h h' => h'.trans h) hf l s

theorem aluTick_counter {k : Fin 40} (hk : ApartFromAlerts k) (s : State) : (aluTick s).cnt[k] = s.cnt[k] := by
  unfold aluTick waitsTick
  dsimp only
  refine (foldl_counter (fun u x => ?_) _ _).trans ?_
  · rw [startRecheck_counter, count_getElem, if_neg (Ne.symm hk.2.1)]
  · exact (withAlu_counter _ k _).trans (foldl_counter (fun u c => recheckTick_counter c hk u) _ s)

theorem cancelJobOn_eq (n : Nat) (c : CancelCause) (s : State) :
    ∃ q, cancelJobOn n c s =
      { s with
        wfs := { s.wfs with job := if (s.wfs.job.map (·.event)) = some n then none else s.wfs.job }
        lnk := { s.lnk with notices := q } } := by
  unfold cancelJobOn cancelJob
  cases hj : s.wfs.job with
  | none =>
    refine ⟨s.lnk.notices, ?_⟩
    simp only [Option.map_none, reduceCtorEq, if_false]
    rw [← hj]
  | some j =>
    simp only [Option.map_some, Option.some.injEq]
    split
    · exact ⟨_, rfl⟩
    · refine ⟨s.lnk.notices, ?_⟩
      rw [← hj]

/-- The notices and the job's end at the expiry of holds (R91). -/
def expireHolds (gone : List Hold) (s : State) : State :=
  gone.foldl (fun s h => cancelJobOn h.event .expiry (queueNotice (.holdExpired h.event) h.owner s)) s

/-- The job after the cancellation for one hold, and then for more. -/
theorem filter_cancelled (j? : Option Job) (h : Hold) (gone : List Hold) :
    (if (j?.map (·.event)) = some h.event then none else j?).filter (fun j => decide (∀ g ∈ gone, g.event ≠ j.event)) =
      j?.filter fun j => decide (∀ g ∈ h :: gone, g.event ≠ j.event) := by
  cases j? with
  | none => simp
  | some j =>
    by_cases same : j.event = h.event
    · simp [Option.filter, same]
    · simp [Option.filter, same, Ne.symm same]

theorem expireHolds_eq (gone : List Hold) (s : State) :
    ∃ q, expireHolds gone s =
      { s with
        wfs := { s.wfs with job := s.wfs.job.filter fun j => decide (∀ h ∈ gone, h.event ≠ j.event) }
        lnk := { s.lnk with notices := q } } := by
  induction gone generalizing s with
  | nil =>
    have all : s.wfs.job.filter (fun j => decide (∀ h ∈ ([] : List Hold), h.event ≠ j.event)) = s.wfs.job := by
      cases s.wfs.job <;> simp
    exact ⟨s.lnk.notices, by rw [all]; rfl⟩
  | cons h gone ih =>
    obtain ⟨q, e⟩ := cancelJobOn_eq h.event .expiry (queueNotice (.holdExpired h.event) h.owner s)
    obtain ⟨q', e'⟩ := ih (cancelJobOn h.event .expiry (queueNotice (.holdExpired h.event) h.owner s))
    refine ⟨q', ?_⟩
    rw [← filter_cancelled, expireHolds, List.foldl_cons, ← expireHolds, e', e]
    rfl

/-- The holds of a tick (R91): each loses a second, those at their last end, and the job on the event of one that ends is
cancelled. -/
theorem wfsTick_eq (s : State) :
    ∃ q, wfsTick s =
      { s with
        wfs := { s.wfs with
          holds := (s.wfs.holds.filter fun h => decide (1 < h.seconds)).map fun h => { h with seconds := h.seconds - 1 }
          job := s.wfs.job.filter fun j => decide (∀ h ∈ s.wfs.holds, h.seconds ≤ 1 → h.event ≠ j.event) }
        lnk := { s.lnk with notices := q } } := by
  obtain ⟨q, e⟩ := expireHolds_eq (s.wfs.holds.filter (·.seconds ≤ 1))
    (s.withWfs fun w =>
      { w with holds := (w.holds.filter (1 < ·.seconds)).map fun h => { h with seconds := h.seconds - 1 } })
  refine ⟨q, e.trans ?_⟩
  simp [State.withWfs]

theorem tmbTick_counter {k : Fin 40} (hk : ApartFromAlerts k) (s : State) : (tmbTick s).cnt[k] = s.cnt[k] := by
  have request (u : State) : (dutyRequest u).cnt = u.cnt := by
    unfold dutyRequest requestGnss placeRequest
    split
    · split <;> rfl
    · rfl
  have release (u : State) : (dutyRelease u).cnt = u.cnt := by
    unfold dutyRelease releaseGnss
    dsimp only
    split
    · rw [switchOff_cnt]
      split <;> rfl
    · rfl
  have settled (u : State) : (settleGnss u).cnt = u.cnt := by
    unfold settleGnss
    split <;> rfl
  have holdover (u : State) : (holdoverEntry u).cnt = u.cnt := by
    unfold holdoverEntry
    split <;> rfl
  have drifting (was : TimeQuality) (u : State) : (driftingEntry was u).cnt = u.cnt := by
    unfold driftingEntry
    split <;> rfl
  rw [tmbTick_eq, judgeA3_counter hk, request, tickJudged, drifting, holdover, tickReleased, release, settled]
  rfl

/-! ### A tick of all blocks -/

theorem lnkTick_tmb (s : State) : (lnkTick s).tmb = s.tmb := rfl

theorem Alerts.tmb (h : Alerts s t) : t.tmb = s.tmb := by
  obtain ⟨a, c, q, rfl⟩ := h
  rfl

/-- Of the blocks that tick only TMB changes TMB. -/
theorem tickBlocks_tmb (s : State) : (tickBlocks s).tmb = (tmbTick s).tmb := by
  obtain ⟨q, e⟩ := wfsTick_eq (tmbTick s)
  rw [tickBlocks, lnkTick_tmb, (aluTick_alerts _).tmb, e]

theorem tickBlocks_standing (s : State) :
    (tickBlocks s).tmb.standing = s.tmb.standing ∧ (tickBlocks s).tmb.edgeAge = min 65535 (s.tmb.edgeAge + 1) ∧
      (tickBlocks s).tmb.restartAge = min 601 (s.tmb.restartAge + 1) := by
  rw [tickBlocks_tmb]
  exact tmbTick_standing s

theorem tickBlocks_counter (k : Fin 40) (s : State) (hk : ApartFromAlerts k := by decide) :
    (tickBlocks s).cnt[k] = s.cnt[k] := by
  obtain ⟨q, e⟩ := wfsTick_eq (tmbTick s)
  have lnk (u : State) : (lnkTick u).cnt = u.cnt := rfl
  rw [tickBlocks, lnk, aluTick_counter hk, e]
  exact tmbTick_counter hk s

end Sys2Proof.Machine
end

section
/-!
SUPPORT. A command that CMD takes (R172), an edge as a step, and a step of station time with no ARMED correction entry in its way
(R18, R32): what it makes of TMB and of the counters.
-/

namespace Sys2Proof.Machine

variable {s t : State}

/-! ### Steps that are taken -/

theorem stepOf_of_supply (h : s.supply = .on) (f : State → State) : stepOf f s = .next (settle (f s)) := by
  rw [stepOf, if_pos h]

theorem stepAfter_of_supply (h : s.supply = .on) (after : Nat) (f : State → State) :
    stepAfter after f s = .next (settle (f (passTime after s))) := stepOf_of_supply h _

/-- A command that CMD takes is executed in the state that `arrived` gives, and answered (R172). -/
theorem fromCentre_of_accepted {src : Sender} {c : Command} (h : Accepted src c s) (hc : c ≠ .restart) :
    fromCentre src c s =
      .next (answered src c (perform c src.centre.toNat src.tag (arrived src s)).status
        (perform c src.centre.toNat src.tag (arrived src s)).data
        (perform c src.centre.toNat src.tag (arrived src s)).state) := by
  have centre : ¬(src.centre = 0 ∨ 15 < src.centre.toNat) := by
    obtain ⟨low, high⟩ := h.centre
    rintro (zero | above)
    · simp [zero] at low
    · omega
  refine (stepAfter_of_supply h.supply _ _).trans ?_
  unfold takeCommand
  rw [if_neg centre]
  cases hb : src.broadcast with
  | true => simp [arrived, answered, hb, h.kind hb, execute, hc]
  | false =>
    have room : ¬Config.replyLimit ≤ (passTime src.after s).lnk.replies.length := by
      have := h.room hb
      simpa [passTime, Config.replyLimit] using this
    simp [arrived, answered, hb, room, execute, hc]

theorem withTmb_of_eq {f : Tmb → Tmb} (h : f s.tmb = s.tmb) : s.withTmb f = s := by
  rw [State.withTmb, h]

/-- What passing time leaves of TMB (R13). -/
theorem run_fields (dt : Nat) (t : Tmb) :
    (t.run dt).label = t.label ∧ (t.run dt).freq = t.freq ∧ (t.run dt).tq = t.tq ∧ (t.run dt).lockCount = t.lockCount ∧
      (t.run dt).message = t.message ∧ (t.run dt).satellites = t.satellites ∧ (t.run dt).disOffset = t.disOffset ∧
      (t.run dt).disCount = t.disCount ∧ (t.run dt).suspension = t.suspension ∧ (t.run dt).gnss = t.gnss ∧
      (t.run dt).inFirstRun = t.inFirstRun := by
  obtain ⟨n, r, w, e⟩ := Tmb.run_eq dt t
  rw [e]
  exact ⟨rfl, rfl, rfl, rfl, rfl, rfl, rfl, rfl, rfl, rfl, rfl⟩

/-! ### Steps with no ARMED entry -/

/-- No correction entry is ARMED. -/
def NoneArmed (s : State) : Prop := ∀ i, (s.tables.correction.get i).status ≠ .armed

theorem fireDue_of_none_due {land : Bool → State → State} {target : Nat} (h : ∀ i, stillDue s target i = false) :
    fireDue land target s = s := by
  simp [fireDue, fireNext, h]

theorem crossBoundary_of_none_due (d : Nat) (h : ∀ i, stillDue s s.tmb.label i = false) :
    crossBoundary d true s = tickBlocks s := by
  rw [crossBoundary_eq_ticks, crossingTicks_of_none_due d h]
  rfl

theorem NoneArmed.not_due (h : NoneArmed s) (target : Nat) (i : Fin 3) : stillDue s target i = false := by
  simp [stillDue, h i]

theorem enterBoundary_of_none_armed (h : NoneArmed s) : enterBoundary s = tickBlocks s :=
  crossBoundary_of_none_due boundaryDepth (h.not_due _)

theorem missOne_of_none_armed (h : NoneArmed s) (old new : Nat) (i : Fin 3) : missOne old new i s = s :=
  if_neg fun due => h i due.1

theorem stepOver_of_none_armed (h : NoneArmed s) (label ns : Nat) :
    stepOver label ns s = s.withTmb (Tmb.landAt label ns s.periodNs) := by
  have landed : NoneArmed (s.withTmb (Tmb.landAt label ns s.periodNs)) := h
  simp only [stepOver, List.foldl_cons, List.foldl_nil, missOne_of_none_armed landed]

/-- A step with no ARMED entry: the landing, its count, and a tick where it lands on a boundary (R18). -/
theorem stepTo_of_none_armed (h : NoneArmed s) (label ns : Nat) :
    stepTo label ns s =
      if ns = 0 then tickBlocks (count 39 (s.withTmb (Tmb.landAt label ns s.periodNs)))
      else count 39 (s.withTmb (Tmb.landAt label ns s.periodNs)) := by
  have none : NoneArmed (count 39 (s.withTmb (Tmb.landAt label ns s.periodNs))) := by
    obtain ⟨q, -, e⟩ := count_eq 39 (s.withTmb (Tmb.landAt label ns s.periodNs))
    rw [e]
    exact h
  unfold stepTo
  dsimp only
  rw [stepOver_of_none_armed h, enterBoundary_of_none_armed none]

/-- What a tick leaves of TMB, by its fields. -/
theorem standing_fields {t u : Tmb} (h : u.standing = t.standing) :
    u.label = t.label ∧ u.ns = t.ns ∧ u.freq = t.freq ∧ u.slew = t.slew ∧ u.stepMark = t.stepMark ∧
      u.strobeNext = t.strobeNext ∧ u.disCount = t.disCount ∧ u.marks = t.marks ∧ u.repeating = t.repeating ∧
      u.suspension = t.suspension ∧ u.message = t.message := by
  simp only [Tmb.standing, Tmb.mk.injEq] at h
  tauto

/-- TMB as a step leaves it (R18, R33). -/
structure Landed (l n period checks : Nat) (f : Int) (t : Tmb) : Prop where
  label : t.label = l
  ns : t.ns = n
  slew : t.slew = none
  stepMark : t.stepMark = true
  strobeNext : t.strobeNext = alignUp period n
  disCount : t.disCount = checks
  freq : t.freq = f

/-- The time quality, A3 and TMB's view of L1 are apart from that. -/
theorem Landed.apart {l n period checks : Nat} {f : Int} {t : Tmb} (h : Landed l n period checks f t) (q : TimeQuality)
    (k e : Nat) (a : Bool) (g : GnssState) (o m : Nat) :
    Landed l n period checks f { t with tq := q, lockCount := k, err := e, a3 := a, gnss := g, onTime := o, lockedTime := m } :=
  ⟨h.label, h.ns, h.slew, h.stepMark, h.strobeNext, h.disCount, h.freq⟩

theorem stepTo_landed (h : NoneArmed s) (label ns : Nat) :
    Landed label ns s.periodNs s.tmb.disCount s.tmb.freq (stepTo label ns s).tmb := by
  have landed : Landed label ns s.periodNs s.tmb.disCount s.tmb.freq
      (count 39 (s.withTmb (Tmb.landAt label ns s.periodNs))).tmb := by
    rw [count_tmb]
    exact ⟨rfl, rfl, rfl, rfl, rfl, rfl, rfl⟩
  rw [stepTo_of_none_armed h]
  split
  · obtain ⟨label', ns', freq, slew, mark, next, dis, -⟩ := standing_fields (tickBlocks_standing _).1
    exact ⟨label'.trans landed.label, ns'.trans landed.ns, slew.trans landed.slew, mark.trans landed.stepMark,
      next.trans landed.strobeNext, dis.trans landed.disCount, freq.trans landed.freq⟩
  · exact landed

/-- A step counts in K39, and its tick in K17, K20 and K21 alone. -/
theorem stepTo_counter (h : NoneArmed s) (label ns : Nat) (k : Fin 40) (hk : ApartFromAlerts k := by decide) :
    (stepTo label ns s).cnt[k] = if 39 = k then s.cnt[k] + 1 else s.cnt[k] := by
  have counted : (count 39 (s.withTmb (Tmb.landAt label ns s.periodNs))).cnt[k] =
      if 39 = k then s.cnt[k] + 1 else s.cnt[k] := by
    rw [count_getElem]
    split
    · next e => subst e; rfl
    · rfl
  rw [stepTo_of_none_armed h]
  split
  · rw [tickBlocks_counter k _ hk, counted]
  · exact counted

/-! ### The end of an edge and of a TIME_SET -/

/-- A3's judgement and what follows at once leave TMB but for A3 and its view of L1. -/
theorem settle_judgeA3_tmb (s : State) : ∃ a g o l, (settle (judgeA3 s)).tmb =
    { s.tmb with a3 := a, gnss := g, onTime := o, lockedTime := l } ∧ (l = s.tmb.lockedTime ∨ l = 0) := by
  obtain ⟨g, o, l, e, -, hl⟩ := settle_tmb (judgeA3 s)
  rw [judgeA3_tmb] at e hl
  exact ⟨_, g, o, l, e, hl⟩

theorem settle_judgeA3_counter (k : Fin 40) (s : State) (hk : ApartFromAlerts k := by decide)
    (hl : k.val < 28 ∨ 36 < k.val := by decide) : (settle (judgeA3 s)).cnt[k] = s.cnt[k] :=
  (settle_counter k _ hl).trans (judgeA3_counter hk s)

end Sys2Proof.Machine
end

section
/-!
PROOF. Time messages, edges turned away, the phase error, and TIME_SET (R14 to R16, R20): O20, O21 and O42.
-/

namespace Sys2Proof.Machine

open Config (second)

variable {s : State}

/-- An edge that R16 turns away counts in K38, and the message is used up. -/
theorem ppsEdge_of_not_accepted
    (h : ∀ m ∈ s.tmb.message, edgeAccepted s (phaseError (s.tmb.ns % second)) = false) :
    ppsEdge s = count 38 (s.withTmb fun t => { t with message := none }) := by
  unfold ppsEdge
  dsimp only
  split
  · next none =>
    rw [withTmb_of_eq]
    rw [← none]
  · next m some =>
    rw [if_neg]
    simpa using h m some

/-- The three grounds of R16. -/
theorem edgeAccepted_eq_false {m : TimeMessage} {e : Int} (hm : s.tmb.message = some m)
    (h : s.tmb.gnss ≠ .active ∨ m.fixValid = false ∨
      ((s.tmb.tq = .locked ∨ s.tmb.tq = .holdover) ∧ s.tables.time.acceptWindow * 1000 < e.natAbs)) :
    edgeAccepted s e = false := by
  obtain inactive | invalid | ⟨state, outside⟩ := h
  · simp [edgeAccepted, inactive]
  · simp [edgeAccepted, hm, invalid]
  · have far : decide (e.natAbs ≤ s.tables.time.acceptWindow * 1000) = false := decide_eq_false (by omega)
    obtain state | state := state <;> simp [edgeAccepted, state, far]

/-- Settles O20: a message acts in the pending message alone, and an edge that R16 does not accept counts. -/
theorem messagesPendAndBadEdgesOnlyCount : Obligations.MessagesPendAndBadEdgesOnlyCount := by
  refine ⟨fun after bytes s on => ?_, fun after s on => ?_⟩
  · refine ⟨_, stepAfter_of_supply on after (timeMessage bytes), ?_⟩
    obtain ⟨label, freq, tq, -, message, satellites, -⟩ := run_fields after s.tmb
    obtain ⟨g, o, l, tmb, -, -⟩ := settle_tmb (timeMessage bytes (passTime after s))
    obtain ⟨-, sif, wfs, alu, -, -, -, tables⟩ := settle_fields (timeMessage bytes (passTime after s))
    rw [tmb, sif, wfs, alu, tables]
    unfold timeMessage
    cases decodeTimeMessage bytes with
    | none => exact ⟨tq, label, freq, rfl, rfl, rfl, rfl, message, satellites⟩
    | some m => exact ⟨tq, label, freq, rfl, rfl, rfl, rfl, rfl, rfl⟩
  · intro v e turned
    obtain ⟨-, -, tq, -, message, -, -, -, -, gnss, -⟩ := run_fields after s.tmb
    refine (stepAfter_of_supply on after ppsEdge).trans ?_
    rw [ppsEdge_of_not_accepted]
    intro m hm
    refine edgeAccepted_eq_false hm ?_
    rw [passTime_tmb, passTime_tables, gnss, tq]
    exact turned.imp_right fun h => h.imp_left fun invalid => invalid m (message ▸ hm)

/-- Settles O21: below half a second the edge belongs to the boundary behind it, and from there on to the one ahead, whose
label is the next. -/
theorem phaseErrorIsToNearerBoundary : Obligations.PhaseErrorIsToNearerBoundary := by
  intro t ns within label once
  have next : t.nextSecond.label = t.label + 1 := by rw [Tmb.nextSecond_of_not_firstRun once]
  have zero : ns / second = 0 := Nat.div_eq_of_lt within
  have same : ns % second = ns := Nat.mod_eq_of_lt within
  have edge : t.edgeLabel ns = if ns < 500000000 then t.label else t.label + 1 := by
    rw [Tmb.edgeLabel, zero, same, ← next]
    simp only [Tmb.runOn]
    split
    · exact Nat.min_eq_right label.le
    · exact Nat.min_eq_right (by rw [next]; exact label)
  rw [edge]
  unfold phaseError Config.second
  split <;> refine ⟨?_, ?_, ?_, ?_⟩ <;> omega

/-- What CMD's count and reply leave of TMB. -/
theorem answered_tmb (src : Sender) (c : Command) (st : ReplyStatus) (d : ReplyData) (s : State) : ∃ g o l,
    (answered src c st d s).tmb = { s.tmb with gnss := g, onTime := o, lockedTime := l } := by
  obtain ⟨g, o, l, e, -⟩ := settle_tmb (if src.broadcast then countStatus st s else
    fillReply ⟨c.kind, st, d⟩ (countStatus st s))
  refine ⟨g, o, l, e.trans ?_⟩
  have counted : (countStatus st s).tmb = s.tmb := by
    cases st with
    | done | clamped => exact count_tmb 22 s
    | refused r => exact count_tmb 23 s
  have replied (x : Reply) (u : State) : (fillReply x u).tmb = u.tmb := rfl
  split <;> simp only [replied, counted]

/-- What CMD's count leaves of the counters, for a command that is not refused. -/
theorem answered_counter (src : Sender) (c : Command) {st : ReplyStatus} (hst : ∀ r, st ≠ .refused r) (d : ReplyData)
    (s : State) (k : Fin 40) (hk : k.val < 28 ∨ 36 < k.val := by decide) :
    (answered src c st d s).cnt[k] = if 22 = k then s.cnt[k] + 1 else s.cnt[k] := by
  have counted : (countStatus st s).cnt[k] = if 22 = k then s.cnt[k] + 1 else s.cnt[k] := by
    have here : (count 22 s).cnt[k] = if 22 = k then s.cnt[k] + 1 else s.cnt[k] := by
      rw [count_getElem]
      split
      · next e => subst e; rfl
      · rfl
    cases st with
    | done | clamped => exact here
    | refused r => exact absurd rfl (hst r)
  have replied (x : Reply) (u : State) : (fillReply x u).cnt = u.cnt := rfl
  refine (settle_counter k _ hk).trans (Eq.trans ?_ counted)
  split <;> simp only [replied]

theorem arrived_tmb (src : Sender) (s : State) : (arrived src s).tmb = s.tmb.run src.after := by
  unfold arrived
  split <;> rfl

theorem arrived_cnt (src : Sender) (s : State) : (arrived src s).cnt = s.cnt := by
  unfold arrived
  split <;> rfl

theorem arrived_tables (src : Sender) (s : State) : (arrived src s).tables = s.tables := by
  unfold arrived
  split <;> rfl

theorem timeSettable_arrived (src : Sender) (s : State) :
    timeSettable (arrived src s) = true ↔ s.tmb.tq = .unset ∨ s.tmb.tq = .coarse := by
  simp [timeSettable, arrived_tmb, (run_fields src.after s.tmb).2.2.1]

/-- A TIME_SET that is taken, with no ARMED entry in its way. -/
theorem setTime_of_none_armed (h : NoneArmed s) (label frac : Nat) :
    Landed label (frac * 100) s.periodNs s.tmb.disCount s.tmb.freq (setTime label frac s).tmb ∧
      (setTime label frac s).tmb.tq = .coarse ∧
      ∀ k : Fin 40, ApartFromAlerts k → (setTime label frac s).cnt[k] = if 39 = k then s.cnt[k] + 1 else s.cnt[k] := by
  have tmb := judgeA3_tmb ((stepTo label (frac * 100) s).withTmb fun t => { t with tq := .coarse })
  rw [← setTime] at tmb
  refine ⟨?_, ?_, fun k hk => (judgeA3_counter hk _).trans (stepTo_counter h label (frac * 100) k hk)⟩
  · rw [tmb]
    exact (stepTo_landed h label (frac * 100)).apart _ _ _ _ _ _ _
  · rw [tmb]
    rfl

theorem cmdTimeSet_of_settable (h : timeSettable s = true) (label fraction : Nat) :
    cmdTimeSet label fraction s =
      ⟨setTime label (min 9999999 fraction) s, if 9999999 < fraction then .clamped else .done,
        .time ⟨label, min 9999999 fraction⟩⟩ := by
  have clamped : (min 9999999 fraction != fraction) = decide (9999999 < fraction) := by
    rw [Bool.eq_iff_iff, bne_iff_ne, decide_eq_true_iff]
    omega
  rw [cmdTimeSet, if_pos h]
  simp [doneOrClamped, clamped]

/-- Settles O42: TIME_SET is a step with no ARMED entry in its way, or it is refused. -/
theorem timeSetStepsOrIsHeld : Obligations.TimeSetStepsOrIsHeld := by
  intro src label fraction s c accepted
  have taken := fromCentre_of_accepted accepted (by simp [c])
  have performed : perform c src.centre.toNat src.tag (arrived src s) =
      cmdTimeSet label.toNat fraction.toNat (arrived src s) := rfl
  rw [performed] at taken
  refine ⟨fun settable none => ?_, fun unset coarse => ?_⟩
  · rw [cmdTimeSet_of_settable ((timeSettable_arrived src s).mpr settable)] at taken
    refine ⟨_, setTime label.toNat (min 9999999 fraction.toNat) (arrived src s), taken, rfl, ?_⟩
    have armed : NoneArmed (arrived src s) := by
      rw [NoneArmed, arrived_tables]
      exact none
    obtain ⟨landed, tq, counters⟩ := setTime_of_none_armed armed label.toNat (min 9999999 fraction.toNat)
    rw [arrived_cnt] at counters
    obtain ⟨g, o, l, tmb⟩ := answered_tmb src c (if 9999999 < fraction.toNat then .clamped else .done)
      (.time ⟨label.toNat, min 9999999 fraction.toNat⟩) (setTime label.toNat (min 9999999 fraction.toNat) (arrived src s))
    have counter (k : Fin 40) (hk : k.val < 28 ∨ 36 < k.val) :=
      answered_counter src c (st := if 9999999 < fraction.toNat then .clamped else .done) (by split <;> simp)
        (.time ⟨label.toNat, min 9999999 fraction.toNat⟩)
        (setTime label.toNat (min 9999999 fraction.toNat) (arrived src s)) k hk
    have freq : (arrived src s).tmb.freq = s.tmb.freq := by
      rw [arrived_tmb]
      exact (run_fields src.after s.tmb).2.1
    have k39 := (counter 39 (by decide)).trans (counters 39 (by decide))
    have k22 := (counter 22 (by decide)).trans (congrArg (· + 1) (counters 22 (by decide)))
    rw [tmb]
    exact ⟨landed.label, landed.ns, tq, landed.slew, landed.stepMark, landed.freq.trans freq, k39, k22⟩
  · refine taken.trans ?_
    rw [cmdTimeSet, if_neg fun h => ((timeSettable_arrived src s).mp h).elim unset coarse]
    rfl

end Sys2Proof.Machine
end

section
/-!
PROOF. Accepted edges (R16 to R27): what the edge takes with it, and what each state makes of it: O22 and O23.
-/

namespace Sys2Proof.Machine

open Config (second)

variable {s t : State} {e : Int} {m : TimeMessage} {label : Nat}

theorem count_tables (k : Fin 40) (s : State) : (count k s).tables = s.tables := by
  obtain ⟨q, -, e⟩ := count_eq k s
  rw [e]

/-! ### The edge before its state handles it -/

/-- The edge is compared with the message's label (R27, R30). -/
def edgeCompared (t : Tmb) : Bool := (t.tq == .acquiring || t.tq == .locked) && t.suspension.isNone

/-- The label check's result at an edge (R27). -/
def edgeCheck (m : TimeMessage) (label : Nat) (t : Tmb) : LabelCheck :=
  labelCheck (edgeCompared t) ((m.label : Int) - label) t.disOffset t.disCount

/-- An edge has been taken: it counts in K37, uses up the message, and the label check moves on (R16, R27). -/
structure Taken (k : LabelCheck) (s w : State) : Prop where
  tmb : ∃ o, w.tmb =
    { s.tmb with edgeAge := 0, message := none, disOffset := k.offset, disCount := k.count, suspension := o }
  tables : w.tables = s.tables
  sif : w.sif = s.sif
  counters : ∀ j : Fin 40, w.cnt[j] = if 37 = j then s.cnt[j] + 1 else s.cnt[j]

theorem acceptEdge_taken (e : Int) (label : Nat) (m : TimeMessage) (s : State) :
    ∃ w, Taken (edgeCheck m label s.tmb) s w ∧
      acceptEdge e label m s =
        match (edgeCheck m label s.tmb).step with
        | none => judgeA3 (handleEdge e label m.label w)
        | some d => labelStep d (judgeA3 (handleEdge e label m.label w)) := by
  refine ⟨_, ?taken, rfl⟩
  refine ⟨?_, ?_, ?_, fun j => ?_⟩
  · simp only [State.withTmb, count_tmb]
    exact ⟨_, rfl⟩
  · exact count_tables 37 s
  · exact count_sif 37 s
  · refine (count_getElem 37 j s).trans ?_
    split
    · next h => subst h; rfl
    · rfl

theorem edgeCheck_of_not_compared (h : edgeCompared s.tmb = false) :
    edgeCheck m label s.tmb = ⟨s.tmb.disOffset, 0, none⟩ := by
  rw [edgeCheck, h]
  rfl

theorem edgeCheck_of_agreed (h : m.label = label) : edgeCheck m label s.tmb = ⟨s.tmb.disOffset, 0, none⟩ := by
  unfold edgeCheck labelCheck
  split
  · rfl
  · rw [if_pos (by omega)]

/-- The third edge in turn with the same difference (R27). -/
theorem edgeCheck_of_third {d : Int} (compared : edgeCompared s.tmb = true) (hd : (m.label : Int) - label = d) (ne : d ≠ 0)
    (offset : s.tmb.disOffset = d) (two : s.tmb.disCount = 2) : edgeCheck m label s.tmb = ⟨d, 0, some d⟩ := by
  simp [edgeCheck, labelCheck, compared, hd, ne, offset, two]

/-! ### What each state makes of it -/

theorem handleEdge_of_unset (h : s.tmb.tq = .unset ∨ s.tmb.tq = .coarse) (message : Nat) :
    handleEdge e label message s = (stepTo message 0 s).withTmb (Tmb.acquire 0) := by
  obtain h | h := h <;> simp [handleEdge, h]

theorem handleEdge_of_locked (h : s.tmb.tq = .locked) (message : Nat) :
    handleEdge e label message s =
      if e.natAbs ≤ 4 * s.tables.time.lockThreshold then
        s.withTmb (Tmb.discipline s.tables.time.kp s.tables.time.ki e)
      else (s.withTmb (Tmb.discipline s.tables.time.kp s.tables.time.ki e)).withTmb (Tmb.acquire 0) := by
  simp [handleEdge, h]

theorem handleEdge_of_acquiring (h : s.tmb.tq = .acquiring) (message : Nat) :
    handleEdge e label message s = acquireEdge e label s.tmb.lockCount s := by
  simp [handleEdge, h]

theorem handleEdge_of_near (h : s.tmb.tq = .holdover) (near : e.natAbs ≤ 4 * s.tables.time.lockThreshold) (message : Nat) :
    handleEdge e label message s = (s.withTmb (Tmb.discipline s.tables.time.kp s.tables.time.ki e)).withTmb Tmb.lock := by
  simp [handleEdge, h, near]

/-- DRIFTING, and HOLDOVER above the unlock threshold, take the edge as in ACQUIRING from lock count 0 (R25). -/
theorem handleEdge_of_far (h : s.tmb.tq = .drifting ∨ (s.tmb.tq = .holdover ∧ 4 * s.tables.time.lockThreshold < e.natAbs))
    (message : Nat) : handleEdge e label message s = acquireEdge e label 0 s := by
  obtain h | ⟨h, far⟩ := h
  · simp [handleEdge, h]
  · simp [handleEdge, h, Nat.not_le.mpr far]

/-- The lock count after a disciplined edge (R21). -/
def lockCountAfter (e : Int) (n : Nat) (s : State) : Nat := if e.natAbs ≤ s.tables.time.lockThreshold then n + 1 else 0

theorem acquireEdge_of_disciplined (h : e.natAbs ≤ s.tables.time.stepThreshold) (n : Nat) :
    acquireEdge e label n s =
      if s.tmb.tq = .acquiring ∧ s.tables.time.lockCount ≤ lockCountAfter e n s then
        (s.withTmb (Tmb.discipline s.tables.time.kp s.tables.time.ki e)).withTmb Tmb.lock
      else (s.withTmb (Tmb.discipline s.tables.time.kp s.tables.time.ki e)).withTmb (Tmb.acquire (lockCountAfter e n s)) := by
  unfold acquireEdge
  dsimp only
  rw [if_neg (Nat.not_lt.mpr h)]
  rfl

theorem acquireEdge_of_step (h : s.tables.time.stepThreshold < e.natAbs) (once : s.tmb.inFirstRun = false) (n : Nat) :
    acquireEdge e label n s = (stepTo label 0 s).withTmb (Tmb.acquire 0) := by
  unfold acquireEdge
  dsimp only
  rw [if_pos h, stepToEdge, if_neg (by simp [once])]

/-! ### An accepted edge -/

theorem ppsEdge_of_accepted (hm : s.tmb.message = some m) (fix : m.fixValid = true) (active : s.tmb.gnss = .active)
    (h : (s.tmb.tq = .locked ∨ s.tmb.tq = .holdover) →
      (phaseError (s.tmb.ns % second)).natAbs ≤ s.tables.time.acceptWindow * 1000) :
    ppsEdge s = acceptEdge (phaseError (s.tmb.ns % second)) (s.tmb.edgeLabel s.tmb.ns) m s := by
  have accepted : edgeAccepted s (phaseError (s.tmb.ns % second)) = true := by
    unfold edgeAccepted
    by_cases window : s.tmb.tq = .locked ∨ s.tmb.tq = .holdover
    · simp [active, hm, fix, h window]
    · obtain ⟨locked, holdover⟩ := not_or.mp window
      simp [active, hm, fix, locked, holdover]
  unfold ppsEdge
  dsimp only
  rw [hm]
  dsimp only
  rw [if_pos accepted]

/-- An edge at which no label step is due. -/
theorem ppsEdge_handled (hm : s.tmb.message = some m) (fix : m.fixValid = true) (active : s.tmb.gnss = .active)
    (h : (s.tmb.tq = .locked ∨ s.tmb.tq = .holdover) →
      (phaseError (s.tmb.ns % second)).natAbs ≤ s.tables.time.acceptWindow * 1000)
    (agreed : edgeCompared s.tmb = false ∨ m.label = s.tmb.edgeLabel s.tmb.ns) :
    ∃ w, Taken ⟨s.tmb.disOffset, 0, none⟩ s w ∧
      ppsEdge s = judgeA3 (handleEdge (phaseError (s.tmb.ns % second)) (s.tmb.edgeLabel s.tmb.ns) m.label w) := by
  have check : edgeCheck m (s.tmb.edgeLabel s.tmb.ns) s.tmb = ⟨s.tmb.disOffset, 0, none⟩ :=
    agreed.elim edgeCheck_of_not_compared edgeCheck_of_agreed
  obtain ⟨w, taken, eq⟩ := acceptEdge_taken (phaseError (s.tmb.ns % second)) (s.tmb.edgeLabel s.tmb.ns) m s
  rw [check] at taken eq
  exact ⟨w, taken, (ppsEdge_of_accepted hm fix active h).trans eq⟩

/-- What the taken edge leaves of TMB. -/
theorem Taken.fields {k : LabelCheck} (h : Taken k s t) :
    t.tmb.label = s.tmb.label ∧ t.tmb.ns = s.tmb.ns ∧ t.tmb.freq = s.tmb.freq ∧ t.tmb.tq = s.tmb.tq ∧
      t.tmb.lockCount = s.tmb.lockCount ∧ t.tmb.inFirstRun = s.tmb.inFirstRun ∧ t.tmb.edgeAge = 0 ∧
      t.tmb.message = none ∧ t.tmb.disCount = k.count := by
  obtain ⟨o, e⟩ := h.tmb
  rw [e]
  exact ⟨rfl, rfl, rfl, rfl, rfl, rfl, rfl, rfl, rfl⟩

/-- What a disciplined edge makes of TMB and of its counters (R16, R17, R27); `s` is the state before the step's time has
passed, `v` the one the edge finds. -/
structure Disciplined (e : Int) (s v t : State) : Prop where
  freq : t.tmb.freq = max (-500000) (min 500000 (s.tmb.freq - (e * 100).tdiv (2 ^ s.tables.time.ki)))
  slew : t.tmb.slew =
    if e.tdiv (2 ^ s.tables.time.kp) = 0 then none else some ⟨e.tdiv (2 ^ s.tables.time.kp), 0⟩
  edgeAge : t.tmb.edgeAge = 0
  message : t.tmb.message = none
  disCount : t.tmb.disCount = 0
  label : t.tmb.label = s.tmb.label
  ns : t.tmb.ns = v.tmb.ns
  accepted : t.cnt[37] = s.cnt[37] + 1
  steps : t.cnt[39] = s.cnt[39]

/-- An edge that its state disciplines: TMB's quality, lock count, E, locked time and trigger are what the state makes of them. -/
theorem disciplined_of_taken {after : Nat} {o : Int} {w : State} {f : Tmb → Tmb}
    (taken : Taken ⟨o, 0, none⟩ (passTime after s) w)
    (hf : ∀ t, ∃ q n err l r, f t = { t with tq := q, lockCount := n, err := err, lockedTime := l, refixArmed := r }) :
    Disciplined e s (passTime after s)
      (settle (judgeA3 ((w.withTmb (Tmb.discipline s.tables.time.kp s.tables.time.ki e)).withTmb f))) := by
  obtain ⟨label, ns, freq, -, -, -, age, message, checks⟩ := taken.fields
  obtain ⟨label', freq', -⟩ := run_fields after s.tmb
  obtain ⟨a, g, on, l, tmb, -⟩ :=
    settle_judgeA3_tmb ((w.withTmb (Tmb.discipline s.tables.time.kp s.tables.time.ki e)).withTmb f)
  obtain ⟨q, n, err, l', r, eq⟩ := hf (w.tmb.discipline s.tables.time.kp s.tables.time.ki e)
  have tmb' := tmb.trans (congrArg (fun t : Tmb => { t with a3 := a, gnss := g, onTime := on, lockedTime := l }) eq)
  have counter (k : Fin 40) (hk : ApartFromAlerts k) (hl : k.val < 28 ∨ 36 < k.val) :
      (settle (judgeA3 ((w.withTmb (Tmb.discipline s.tables.time.kp s.tables.time.ki e)).withTmb f))).cnt[k] =
        if 37 = k then s.cnt[k] + 1 else s.cnt[k] :=
    (settle_judgeA3_counter k _ hk hl).trans (taken.counters k)
  refine ⟨?_, ?_, ?_, ?_, ?_, ?_, ?_, counter 37 (by decide) (by decide), counter 39 (by decide) (by decide)⟩
  all_goals rw [tmb']
  · exact congrArg (fun x => clampFreq (x - (e * 100).tdiv (2 ^ s.tables.time.ki))) (freq.trans freq')
  · rfl
  · exact age
  · exact message
  · exact checks
  · exact label.trans label'
  · exact ns

/-- The quality, lock count, E and trigger that an edge's state gives TMB, and the locked time if it is 0. -/
theorem quality_of_judged (s : State) :
    (settle (judgeA3 s)).tmb.tq = s.tmb.tq ∧ (settle (judgeA3 s)).tmb.lockCount = s.tmb.lockCount ∧
      (settle (judgeA3 s)).tmb.err = s.tmb.err ∧ (settle (judgeA3 s)).tmb.refixArmed = s.tmb.refixArmed ∧
      (s.tmb.lockedTime = 0 → (settle (judgeA3 s)).tmb.lockedTime = 0) := by
  obtain ⟨a, g, o, l, e, hl⟩ := settle_judgeA3_tmb s
  rw [e]
  exact ⟨rfl, rfl, rfl, rfl, fun h => hl.elim (·.trans h) id⟩

theorem acquire_moves (k : Nat) (t : Tmb) :
    ∃ q n err l r, t.acquire k = { t with tq := q, lockCount := n, err := err, lockedTime := l, refixArmed := r } :=
  ⟨_, _, _, _, _, rfl⟩

theorem lock_moves (t : Tmb) :
    ∃ q n err l r, t.lock = { t with tq := q, lockCount := n, err := err, lockedTime := l, refixArmed := r } :=
  ⟨_, _, _, _, _, rfl⟩

/-- Settles O22: each of the edges is disciplined in the state that `Taken` gives, and its state gives the quality. -/
theorem disciplinedEdgeMovesFrequencyAndLock : Obligations.DisciplinedEdgeMovesFrequencyAndLock := by
  refine ⟨?_, ?_, ?_⟩
  · intro after m s on active locked v ns e hm fix window agreed
    obtain ⟨-, -, tq, lockCount, message, -, -, -, -, gnss, -⟩ := run_fields after s.tmb
    obtain ⟨w, taken, edge⟩ := ppsEdge_handled (s := v) (message.trans hm) fix (gnss.trans active) (fun _ => window)
      (.inr agreed)
    obtain ⟨-, -, -, tq', lockCount', -⟩ := taken.fields
    have handled := handleEdge_of_locked (e := e) (label := v.tmb.edgeLabel v.tmb.ns) (tq'.trans (tq.trans locked)) m.label
    have tables : w.tables = s.tables := taken.tables
    rw [tables] at handled
    refine ⟨_, stepAfter_of_supply on after ppsEdge, ?_⟩
    rw [edge, handled]
    by_cases near : e.natAbs ≤ 4 * s.tables.time.lockThreshold
    · have same : (w.withTmb (Tmb.discipline s.tables.time.kp s.tables.time.ki e)).withTmb id =
          w.withTmb (Tmb.discipline s.tables.time.kp s.tables.time.ki e) := rfl
      have d := disciplined_of_taken (f := id) (e := e) taken fun t => ⟨_, _, _, _, _, rfl⟩
      obtain ⟨hq, hn, -⟩ := quality_of_judged (w.withTmb (Tmb.discipline s.tables.time.kp s.tables.time.ki e))
      rw [same] at d
      rw [if_pos near]
      refine ⟨d.freq, d.slew, d.edgeAge, d.message, d.disCount, d.accepted, d.steps, d.label, d.ns, fun _ => ?_, fun far => ?_⟩
      · exact ⟨hq.trans (tq'.trans (tq.trans locked)), hn.trans (lockCount'.trans lockCount)⟩
      · exact absurd near (Nat.not_le.mpr far)
    · have d := disciplined_of_taken (e := e) taken (acquire_moves 0)
      obtain ⟨hq, hn, -⟩ :=
        quality_of_judged ((w.withTmb (Tmb.discipline s.tables.time.kp s.tables.time.ki e)).withTmb (Tmb.acquire 0))
      rw [if_neg near]
      refine ⟨d.freq, d.slew, d.edgeAge, d.message, d.disCount, d.accepted, d.steps, d.label, d.ns, fun h => ?_, fun _ => ?_⟩
      · exact absurd h near
      · exact ⟨hq, hn⟩
  · intro after m s on active acquiring v ns e hm fix small agreed count
    obtain ⟨-, -, tq, lockCount, message, -, -, -, -, gnss, -⟩ := run_fields after s.tmb
    obtain ⟨w, taken, edge⟩ := ppsEdge_handled (s := v) (message.trans hm) fix (gnss.trans active)
      (fun h => by simp [v, tq, acquiring] at h) (.inr agreed)
    obtain ⟨-, -, -, tq', lockCount', -⟩ := taken.fields
    have state : w.tmb.tq = .acquiring := tq'.trans (tq.trans acquiring)
    have handled := handleEdge_of_acquiring (e := e) (label := v.tmb.edgeLabel v.tmb.ns) state m.label
    have tables : w.tables = s.tables := taken.tables
    rw [acquireEdge_of_disciplined (tables ▸ small), lockCountAfter, tables, lockCount'.trans lockCount] at handled
    refine ⟨_, stepAfter_of_supply on after ppsEdge, ?_⟩
    rw [edge, handled]
    generalize hn : (if e.natAbs ≤ s.tables.time.lockThreshold then s.tmb.lockCount + 1 else 0) = n
    by_cases lock : s.tables.time.lockCount ≤ n
    · have d := disciplined_of_taken (e := e) taken lock_moves
      obtain ⟨hq, hk, he, hr, hl⟩ :=
        quality_of_judged ((w.withTmb (Tmb.discipline s.tables.time.kp s.tables.time.ki e)).withTmb Tmb.lock)
      rw [if_pos ⟨state, lock⟩]
      refine ⟨he, d.label, fun out => ?_, fun within => ⟨fun few => ?_, fun _ => ⟨hq, hk, hl rfl, hr⟩⟩⟩
      · rw [if_neg (Nat.not_le.mpr out)] at hn
        omega
      · rw [if_pos within] at hn
        omega
    · have d := disciplined_of_taken (e := e) taken (acquire_moves n)
      obtain ⟨hq, hk, he, -⟩ :=
        quality_of_judged ((w.withTmb (Tmb.discipline s.tables.time.kp s.tables.time.ki e)).withTmb (Tmb.acquire n))
      rw [if_neg fun h => lock h.2]
      refine ⟨he, d.label, fun out => ?_, fun within => ⟨fun few => ?_, fun many => ?_⟩⟩
      · rw [if_neg (Nat.not_le.mpr out)] at hn
        exact ⟨hq, hk.trans hn.symm⟩
      · rw [if_pos within] at hn
        exact ⟨hq, hk.trans hn.symm⟩
      · rw [if_pos within] at hn
        omega
  · intro after m s on active v e c hm fix
    refine ⟨_, stepAfter_of_supply on after ppsEdge, ?_, ?_⟩
    · intro holdover window near
      obtain ⟨-, -, tq, -, message, -, -, -, -, gnss, -⟩ := run_fields after s.tmb
      obtain ⟨w, taken, edge⟩ := ppsEdge_handled (s := v) (message.trans hm) fix (gnss.trans active) (fun _ => window)
        (.inl (by simp [edgeCompared, v, tq, holdover]))
      obtain ⟨-, -, -, tq', -⟩ := taken.fields
      have tables : w.tables = s.tables := taken.tables
      rw [edge, handleEdge_of_near (tq'.trans (tq.trans holdover)) (tables ▸ near), tables]
      have d := disciplined_of_taken (e := e) taken lock_moves
      obtain ⟨hq, hk, he, hr, hl⟩ :=
        quality_of_judged ((w.withTmb (Tmb.discipline s.tables.time.kp s.tables.time.ki e)).withTmb Tmb.lock)
      exact ⟨⟨d.freq, d.slew, he, d.edgeAge, d.disCount, d.label, d.ns, d.accepted, d.steps⟩, hq, hk, hl rfl, hr⟩
    · intro state small
      obtain ⟨-, -, tq, -, message, -, -, -, -, gnss, -⟩ := run_fields after s.tmb
      have quality : s.tmb.tq = .drifting ∨ s.tmb.tq = .holdover := state.imp_right (·.1)
      obtain ⟨w, taken, edge⟩ := ppsEdge_handled (s := v) (message.trans hm) fix (gnss.trans active)
        (fun h => by
          obtain drifting | ⟨-, window, -⟩ := state
          · simp [v, tq, drifting] at h
          · exact window)
        (.inl (by obtain h | h := quality <;> simp [edgeCompared, v, tq, h]))
      obtain ⟨-, -, -, tq', -⟩ := taken.fields
      have tables : w.tables = s.tables := taken.tables
      have tq'' : w.tmb.tq = s.tmb.tq := tq'.trans tq
      have far : w.tmb.tq = .drifting ∨ (w.tmb.tq = .holdover ∧ 4 * w.tables.time.lockThreshold < e.natAbs) := by
        rw [tq'', tables]
        exact state.imp_right fun h => ⟨h.1, h.2.2⟩
      have notAcquiring : w.tmb.tq ≠ .acquiring := by
        rw [tq'']
        obtain h | h := quality <;> simp [h]
      rw [edge, handleEdge_of_far far, acquireEdge_of_disciplined (tables ▸ small), if_neg fun h => notAcquiring h.1,
        lockCountAfter, tables]
      have d := disciplined_of_taken (e := e) taken (acquire_moves (if e.natAbs ≤ c.lockThreshold then 0 + 1 else 0))
      obtain ⟨hq, hk, he, -⟩ := quality_of_judged ((w.withTmb (Tmb.discipline s.tables.time.kp s.tables.time.ki e)).withTmb
        (Tmb.acquire (if e.natAbs ≤ c.lockThreshold then 0 + 1 else 0)))
      exact ⟨⟨d.freq, d.slew, he, d.edgeAge, d.disCount, d.label, d.ns, d.accepted, d.steps⟩, hq, hk⟩

/-! ### Edges that step station time -/

/-- An edge that its state disciplines without a step, in ACQUIRING and LOCKED. -/
theorem handleEdge_disciplines
    (h : (s.tmb.tq = .acquiring ∧ e.natAbs ≤ s.tables.time.stepThreshold) ∨ s.tmb.tq = .locked) (message : Nat) :
    ∃ f : Tmb → Tmb, (∀ t, ∃ q n err l r, f t = { t with tq := q, lockCount := n, err := err, lockedTime := l, refixArmed := r }) ∧
      handleEdge e label message s = (s.withTmb (Tmb.discipline s.tables.time.kp s.tables.time.ki e)).withTmb f := by
  obtain ⟨acquiring, small⟩ | locked := h
  · rw [handleEdge_of_acquiring acquiring, acquireEdge_of_disciplined small]
    split
    · exact ⟨Tmb.lock, lock_moves, rfl⟩
    · exact ⟨_, acquire_moves _, rfl⟩
  · rw [handleEdge_of_locked locked]
    split
    · exact ⟨id, fun t => ⟨_, _, _, _, _, rfl⟩, rfl⟩
    · exact ⟨_, acquire_moves 0, rfl⟩

theorem Taken.noneArmed {k : LabelCheck} (h : Taken k s t) (none : NoneArmed s) : NoneArmed t := by
  rw [NoneArmed, h.tables]
  exact none

/-- K37 and K39 after a taken edge and one step. -/
theorem accepted_and_stepped {k : LabelCheck} {v w x : State} (taken : Taken k v w)
    (counter : ∀ j : Fin 40, ApartFromAlerts j → j.val < 28 ∨ 36 < j.val →
      x.cnt[j] = if 39 = j then w.cnt[j] + 1 else w.cnt[j]) :
    x.cnt[37] = v.cnt[37] + 1 ∧ x.cnt[39] = v.cnt[39] + 1 := by
  have w37 := (taken.counters 37).trans (if_pos rfl)
  have w39 := (taken.counters 39).trans (if_neg (by decide))
  have x37 := (counter 37 (by decide) (by decide)).trans (if_neg (by decide))
  have x39 := (counter 39 (by decide) (by decide)).trans (if_pos rfl)
  exact ⟨x37.trans w37, x39.trans (congrArg (· + 1) w39)⟩

/-- TMB and the counters after an edge that steps station time to a boundary (R18, R19, R21). -/
theorem edge_steps_to_boundary {k : LabelCheck} {v w x : State} (taken : Taken k v w) (none : NoneArmed v) {l : Nat}
    (hx : x = settle (judgeA3 ((stepTo l 0 w).withTmb (Tmb.acquire 0)))) :
    Landed l 0 v.periodNs k.count v.tmb.freq x.tmb ∧ x.tmb.tq = .acquiring ∧ x.tmb.lockCount = 0 ∧ x.tmb.err = 0 ∧
      x.cnt[37] = v.cnt[37] + 1 ∧ x.cnt[39] = v.cnt[39] + 1 := by
  obtain ⟨-, -, freq, -, -, -, -, -, checks⟩ := taken.fields
  have armed := taken.noneArmed none
  have landed := stepTo_landed armed l 0
  have period : w.periodNs = v.periodNs := by rw [State.periodNs, State.periodNs, taken.sif]
  rw [period, checks, freq] at landed
  have steps (j : Fin 40) (hj : ApartFromAlerts j) := stepTo_counter armed l 0 j hj
  generalize stepTo l 0 w = z at landed steps hx
  obtain ⟨a, g, o, m, tmb, -⟩ := settle_judgeA3_tmb (z.withTmb (Tmb.acquire 0))
  have counter (j : Fin 40) (hj : ApartFromAlerts j) (hl : j.val < 28 ∨ 36 < j.val) :
      x.cnt[j] = if 39 = j then w.cnt[j] + 1 else w.cnt[j] := by
    rw [hx, settle_judgeA3_counter j _ hj hl]
    exact steps j hj
  refine ⟨?_, ?_, ?_, ?_, accepted_and_stepped taken counter⟩ <;> rw [hx, tmb]
  · exact landed.apart _ _ _ _ _ _ _
  · rfl
  · rfl
  · rfl

/-- TMB and the counters after the step of the label check, which comes after the edge's discipline (R27; log entry 13). -/
theorem edge_steps_by_label {o d : Int} {v w x : State} (taken : Taken ⟨o, 0, some d⟩ v w) (none : NoneArmed v)
    (h : (v.tmb.tq = .acquiring ∧ e.natAbs ≤ v.tables.time.stepThreshold) ∨ v.tmb.tq = .locked) {message l : Nat}
    (hl : (l : Int) = v.tmb.label + d) (range : l ≤ Config.maxLabel)
    (hx : x = settle (labelStep d (judgeA3 (handleEdge e label message w)))) :
    ∃ f, Landed l v.tmb.ns v.periodNs 0 f x.tmb ∧ x.cnt[37] = v.cnt[37] + 1 ∧ x.cnt[39] = v.cnt[39] + 1 := by
  obtain ⟨hlabel, hns, -, tq, -, -, -, -, checks⟩ := taken.fields
  obtain ⟨f, hf, handled⟩ := handleEdge_disciplines (s := w) (e := e) (label := label)
    (by rw [tq, taken.tables]; exact h) message
  obtain ⟨q, n, err, lt, r, eq⟩ := hf (w.tmb.discipline w.tables.time.kp w.tables.time.ki e)
  generalize hy : judgeA3 (handleEdge e label message w) = y at hx
  have ytmb : y.tmb.label = v.tmb.label ∧ y.tmb.ns = v.tmb.ns ∧ y.tmb.disCount = 0 := by
    have e : (handleEdge e label message w).tmb = f (w.tmb.discipline w.tables.time.kp w.tables.time.ki e) := by
      rw [handled]
      rfl
    rw [← hy, judgeA3_tmb, e, eq]
    exact ⟨hlabel, hns, checks⟩
  obtain ⟨ylabel, yns, ychecks⟩ := ytmb
  obtain ⟨-, ysif, -, -, -, -, ytables, -⟩ := beside_fields (judgeA3_beside (handleEdge e label message w))
  rw [hy, handled] at ysif ytables
  have armed : NoneArmed y := by
    rw [NoneArmed, ytables]
    exact taken.noneArmed none
  have target : min Config.maxLabel ((y.tmb.label : Int) + d).toNat = l := by
    rw [ylabel]
    omega
  have landed := stepTo_landed armed l y.tmb.ns
  have period : y.periodNs = v.periodNs := by rw [State.periodNs, State.periodNs, ysif, ← taken.sif]; rfl
  rw [yns, period, ychecks] at landed
  have stepped : x = settle (stepTo l v.tmb.ns y) := by
    rw [hx, labelStep, target, yns]
  obtain ⟨g, on, lt', tmb, -, -⟩ := settle_tmb (stepTo l v.tmb.ns y)
  have counter (j : Fin 40) (hj : ApartFromAlerts j) (hl : j.val < 28 ∨ 36 < j.val) :
      x.cnt[j] = if 39 = j then w.cnt[j] + 1 else w.cnt[j] := by
    have hw : y.cnt[j] = w.cnt[j] := by
      rw [← hy, judgeA3_counter hj, handled]
      rfl
    rw [stepped, settle_counter j _ hl, stepTo_counter armed l v.tmb.ns j hj, hw]
  refine ⟨y.tmb.freq, ?_, accepted_and_stepped taken counter⟩
  rw [stepped, tmb]
  exact landed.apart _ _ _ _ _ _ _

/-- Settles O23: the first edge, an edge above the step threshold, and the third equal disagreement. -/
theorem edgesStepStationTime : Obligations.EdgesStepStationTime := by
  intro after m s on active hm fix once none v e c difference
  obtain ⟨label, freq, tq, -, message, -, offset, checks, suspension, gnss, firstRun⟩ := run_fields after s.tmb
  have hm' : v.tmb.message = some m := message.trans hm
  have active' : v.tmb.gnss = .active := gnss.trans active
  have armed : NoneArmed v := none
  refine ⟨_, stepAfter_of_supply on after ppsEdge, ?_⟩
  intro stepped begun
  refine ⟨fun state => ?_, fun large state => ?_, fun disagrees hoffset two running state l hl range => ?_⟩
  · have state' : v.tmb.tq = .unset ∨ v.tmb.tq = .coarse := by rwa [show v.tmb.tq = s.tmb.tq from tq]
    obtain ⟨w, taken, edge⟩ := ppsEdge_handled hm' fix active'
      (fun h => by obtain h' | h' := state' <;> simp [h'] at h)
      (.inl (by obtain h' | h' := state' <;> simp [edgeCompared, h']))
    obtain ⟨-, -, -, tq', -⟩ := taken.fields
    have first := handleEdge_of_unset (s := w) (e := e) (label := v.tmb.edgeLabel v.tmb.ns) (by rwa [tq']) m.label
    obtain ⟨landed, hq, hk, he, k37, k39⟩ := edge_steps_to_boundary taken armed
      (congrArg settle (edge.trans (congrArg judgeA3 first)))
    exact ⟨⟨landed.label, landed.ns, landed.slew, landed.stepMark, landed.strobeNext, landed.disCount, k37, k39⟩,
      hq, hk, he, landed.freq.trans freq⟩
  · have quality : v.tmb.tq = .drifting ∨ v.tmb.tq = .acquiring ∨ v.tmb.tq = .holdover := by
      rw [show v.tmb.tq = s.tmb.tq from tq]
      exact state.imp_right fun h => h.imp And.left And.left
    obtain ⟨w, taken, edge⟩ := ppsEdge_handled hm' fix active'
      (fun h => by
        have notLocked : v.tmb.tq ≠ .locked := by obtain h' | h' | h' := quality <;> simp [h']
        have holdover : s.tmb.tq = .holdover := (show v.tmb.tq = s.tmb.tq from tq) ▸ h.resolve_left notLocked
        obtain h' | ⟨h', -⟩ | ⟨-, window, -⟩ := state
        · simp [h'] at holdover
        · simp [h'] at holdover
        · exact window)
      (by
        obtain h | ⟨h, agrees⟩ | ⟨h, -, -⟩ := state
        · exact .inl (by simp [edgeCompared, v, tq, h])
        · exact .inr (by omega)
        · exact .inl (by simp [edgeCompared, v, tq, h]))
    obtain ⟨-, -, -, tq', -, firstRun', -⟩ := taken.fields
    have tq'' : w.tmb.tq = s.tmb.tq := tq'.trans tq
    have tables : w.tables = s.tables := taken.tables
    have once' : w.tmb.inFirstRun = false := firstRun'.trans (firstRun.trans once)
    have handled : handleEdge e (v.tmb.edgeLabel v.tmb.ns) m.label w =
        (stepTo (v.tmb.edgeLabel v.tmb.ns) 0 w).withTmb (Tmb.acquire 0) := by
      have step (n : Nat) := acquireEdge_of_step (s := w) (e := e) (label := v.tmb.edgeLabel v.tmb.ns)
        (by rw [tables]; exact large) once' n
      obtain h | ⟨h, -⟩ | ⟨h, -, far⟩ := state
      · rw [handleEdge_of_far (.inl (tq''.trans h)), step]
      · rw [handleEdge_of_acquiring (tq''.trans h), step]
      · rw [handleEdge_of_far (.inr ⟨tq''.trans h, by rw [tables]; exact far⟩), step]
    obtain ⟨landed, hq, hk, he, k37, k39⟩ := edge_steps_to_boundary taken armed
      (congrArg settle (edge.trans (congrArg judgeA3 handled)))
    exact ⟨⟨landed.label, landed.ns, landed.slew, landed.stepMark, landed.strobeNext, landed.disCount, k37, k39⟩,
      hq, hk, he, landed.freq.trans freq⟩
  · have quality : v.tmb.tq = .acquiring ∨ v.tmb.tq = .locked := by
      rw [show v.tmb.tq = s.tmb.tq from tq]
      exact state.imp And.left And.left
    have compared : edgeCompared v.tmb = true := by
      have compares : v.tmb.suspension = Option.none := suspension.trans running
      obtain h | h := quality <;> simp [edgeCompared, h, compares]
    have check := edgeCheck_of_third (m := m) (label := v.tmb.edgeLabel v.tmb.ns) compared rfl disagrees
      (offset.trans hoffset) (checks.trans two)
    obtain ⟨w, taken, edge⟩ := acceptEdge_taken e (v.tmb.edgeLabel v.tmb.ns) m v
    rw [check] at taken edge
    have accepted := ppsEdge_of_accepted hm' fix active' fun h => by
      obtain ⟨h', -⟩ | ⟨-, window⟩ := state
      · simp [show v.tmb.tq = s.tmb.tq from tq, h'] at h
      · exact window
    obtain ⟨f, landed, k37, k39⟩ := edge_steps_by_label (e := e) (label := v.tmb.edgeLabel v.tmb.ns) taken armed
      (by
        rw [show v.tmb.tq = s.tmb.tq from tq]
        exact state.imp_right And.left)
      (by rw [show v.tmb.label = s.tmb.label from label]; exact hl) range
      (congrArg settle (accepted.trans edge))
    exact ⟨landed.label, landed.ns, landed.slew, landed.stepMark, landed.strobeNext, landed.disCount, k37, k39⟩

end Sys2Proof.Machine
end

section
/-!
SUPPORT. The second tick that nothing stands beside (R13): the state on the boundary, its one tick, and TMB's quantities after the
tick by whether R36's release is due at it.
-/

namespace Sys2Proof.Machine

open Config (second)

variable {s b t : State}

/-! ### The state on the boundary -/

/-- `b` stands on the boundary at the end of the second that runs in `s` (R13): the time to it has passed, and the label, the marks
and the repeat have moved on. -/
structure OnBoundary (s b : State) : Prop where
  tmb : ∃ label ns r w m rep next, b.tmb =
    { s.tmb with label := label, ns := ns, residue := r, slew := w, marks := m, repeating := rep, strobeNext := next }
  supply : b.supply = s.supply
  sif : b.sif = s.sif
  det : b.det = s.det
  evu : b.evu = s.evu
  wfs : b.wfs = s.wfs
  alu : b.alu = s.alu
  bmn : b.bmn = s.bmn
  hzc : b.hzc = s.hzc
  cmd : b.cmd = s.cmd
  cnt : b.cnt = s.cnt
  tables : b.tables = s.tables
  l1 : b.l1.state = s.l1.state ∧ b.l1.request = s.l1.request
  lnk : b.lnk.listenCount = s.lnk.listenCount ∧ b.lnk.radio = s.lnk.radio

theorem runToStation_onBoundary (s : State) : OnBoundary s (onNextBoundary (runToStation second s)) := by
  have next (t : Tmb) : ∃ label m rep, t.nextSecond = { t with label := label, marks := m, repeating := rep } := by
    unfold Tmb.nextSecond
    split
    · exact ⟨t.label, _, _, rfl⟩
    · exact ⟨_, _, _, rfl⟩
  have passed : ∃ dt, runToStation second s = passTime dt s ∨ runToStation second s = s := by
    unfold runToStation
    split
    · exact ⟨_, .inl rfl⟩
    · exact ⟨0, .inr rfl⟩
  have label := next (runToStation second s).tmb
  obtain ⟨dt, e | e⟩ := passed <;> rw [e] at label ⊢ <;> obtain ⟨l, m, rep, label⟩ := label
  · obtain ⟨n, r, w, run⟩ := Tmb.run_eq dt s.tmb
    refine ⟨?_, rfl, rfl, rfl, rfl, rfl, rfl, rfl, rfl, rfl, rfl, rfl, ?_, rfl, rfl⟩
    · rw [onNextBoundary, State.withTmb_tmb, label, passTime_tmb, run]
      exact ⟨_, _, _, _, _, _, _, rfl⟩
    · have load := passTime_load dt 1 s
      have state := congrArg Load.state load
      have request := congrArg Load.request load
      exact ⟨state, request⟩
  · refine ⟨?_, rfl, rfl, rfl, rfl, rfl, rfl, rfl, rfl, rfl, rfl, rfl, ⟨rfl, rfl⟩, rfl, rfl⟩
    rw [onNextBoundary, State.withTmb_tmb, label]
    exact ⟨_, _, _, _, _, _, _, rfl⟩

/-- TMB's quality, its counts and its view of L1 are not moved by the boundary. -/
theorem OnBoundary.fields (h : OnBoundary s b) :
    b.tmb.tq = s.tmb.tq ∧ b.tmb.err = s.tmb.err ∧ b.tmb.edgeAge = s.tmb.edgeAge ∧ b.tmb.gnss = s.tmb.gnss ∧
      b.tmb.onTime = s.tmb.onTime ∧ b.tmb.lockedTime = s.tmb.lockedTime ∧ b.tmb.refixCounter = s.tmb.refixCounter ∧
      b.tmb.refixArmed = s.tmb.refixArmed ∧ b.tmb.restartAge = s.tmb.restartAge ∧ b.tmb.way = s.tmb.way ∧
      b.tmb.freq = s.tmb.freq ∧ b.tmb.message = s.tmb.message := by
  obtain ⟨label, ns, r, w, m, rep, next, e⟩ := h.tmb
  rw [e]
  exact ⟨rfl, rfl, rfl, rfl, rfl, rfl, rfl, rfl, rfl, rfl, rfl, rfl⟩

/-- The label, the marks and the repeat stand until the boundary. -/
theorem runToStation_tmb (s : State) : (runToStation second s).tmb.label = s.tmb.label ∧
    (runToStation second s).tmb.marks = s.tmb.marks ∧ (runToStation second s).tmb.repeating = s.tmb.repeating ∧
    (runToStation second s).tables = s.tables := by
  unfold runToStation
  split
  · obtain ⟨n, r, w, e⟩ := Tmb.run_eq (s.tmb.delayFor (second - s.tmb.ns)) s.tmb
    rw [passTime_tmb, passTime_tables, e]
    exact ⟨rfl, rfl, rfl, rfl⟩
  · exact ⟨rfl, rfl, rfl, rfl⟩

/-- The state on the boundary that a plain tick finds, and what the second's end makes of it. -/
theorem plainTick_boundary (h : PlainTick s) :
    ∃ b past, OnBoundary s b ∧ b.tmb.label = s.tmb.label + 1 ∧ secondTicks s = [b] ∧
      runSecond s = (tickBlocks b).withTmb fun t => { t with ns := t.ns + past } := by
  obtain ⟨hlabel, hmarks, hrep, htables⟩ := runToStation_tmb s
  have once : (runToStation second s).tmb.inFirstRun = false := by
    rw [Tmb.inFirstRun, hlabel, hmarks, hrep]
    exact h.once
  have wraps : (runToStation second s).tmb.wrapsSilently = false := by
    simp only [Tmb.wrapsSilently, once, hlabel, Bool.not_false, Bool.true_and, decide_eq_false_iff_not]
    exact Nat.not_le.mpr h.label
  have label : (onNextBoundary (runToStation second s)).tmb.label = s.tmb.label + 1 := by
    rw [onNextBoundary, State.withTmb_tmb, Tmb.nextSecond_of_not_firstRun once, ← hlabel]
  have quiet (i : Fin 3) : stillDue (onNextBoundary (runToStation second s))
      (onNextBoundary (runToStation second s)).tmb.label i = false := by
    have entry : (onNextBoundary (runToStation second s)).tables.correction.get i = s.tables.correction.get i := by
      rw [(runToStation_onBoundary s).tables]
    rw [label, stillDue, entry]
    by_cases armed : (s.tables.correction.get i).status = .armed
    · simp [h.entries i armed]
    · simp [armed]
  refine ⟨_, (runToStation second s).tmb.ns - second, runToStation_onBoundary s, label, ?_, ?_⟩
  · rw [secondTicks, boundaryTicks, wraps, once]
    exact crossingTicks_of_none_due boundaryDepth quiet
  · rw [runSecond, secondBoundary_eq_ticks wraps, boundaryTicks, wraps, once]
    simp [crossingTicks_of_none_due boundaryDepth quiet]

/-- An occurrence inside a plain tick. -/
theorem stepTick_of_plain {p : State → Bool} (on : s.supply = .on) (ticks : secondTicks s = [b]) (hp : p b = true) :
    stepTick p s = .next (settle (runSecond s)) := by
  rw [stepTick, stepWhen, if_pos ⟨on, by simp [ticks, hp]⟩]

/-! ### TMB after the tick -/

/-- L1's on-time after the tick (R35). -/
def countedOn (s : State) : Nat := if s.l1.state = .on then countedSecond s.tmb.onTime else s.tmb.onTime

/-- The locked time after the tick (R35). -/
def countedLocked (s : State) : Nat :=
  if s.l1.state = .on ∧ s.tmb.tq = .locked then countedSecond s.tmb.lockedTime else s.tmb.lockedTime

/-- E after the tick's counts (R24). -/
def countedError (s : State) : Nat := if s.tmb.tq = .holdover ∨ s.tmb.tq = .drifting then grownError s else s.tmb.err

/-- R36's release is due at the tick. -/
def TickReleases (s : State) : Prop :=
  s.tmb.way = some .duty ∧ s.l1.state = .on ∧
    (s.tables.time.minLockTime ≤ countedLocked s ∨ s.tables.time.maxOnTime ≤ countedOn s)

/-- TMB after the tick's counts and the end of SETTLING (R35). -/
def keptTmb (s : State) : Tmb :=
  { s.tmb with
    edgeAge := min 65535 (s.tmb.edgeAge + 1), err := countedError s, onTime := countedOn s, lockedTime := countedLocked s
    refixCounter := s.tmb.refixCounter - 1, restartAge := min 601 (s.tmb.restartAge + 1)
    gnss := if s.tmb.gnss = .settling ∧ s.tables.time.gnssSettle ≤ countedOn s then .active else s.tmb.gnss }

/-- TMB after R36's release at the tick. -/
def releasedTmb (s : State) : Tmb :=
  { s.tmb with
    edgeAge := min 65535 (s.tmb.edgeAge + 1), restartAge := min 601 (s.tmb.restartAge + 1)
    tq := if s.tmb.tq = .locked then .holdover else s.tmb.tq
    err := if s.tmb.tq = .locked then s.tables.time.lockThreshold else countedError s
    refixArmed := if s.tmb.tq = .locked then s.tmb.refixArmed else false
    refixCounter := refixReload s
    gnss := .off, onTime := 0, lockedTime := 0 }

/-- HOLDOVER's and DRIFTING's entry after that (R23, R24). -/
def judgedTmb (s : State) (x : Tmb) : Tmb :=
  if x.tq = .locked ∧ s.tables.time.holdoverTimeout ≤ x.edgeAge then
    { x with tq := .holdover, err := s.tables.time.lockThreshold, lockedTime := 0 }
  else if s.tmb.tq = .holdover ∧ x.tq = .holdover ∧ s.tables.time.degradeBound < x.err then { x with tq := .drifting }
  else x

theorem settled_tmb (s : State) : (settleGnss (tickCounted s)).tmb = keptTmb s := by
  rw [settleGnss_tmb]
  simp only [tickCounted, State.withTmb_tmb, State.withTmb_tables, Tmb.tickCounts, beq_iff_eq, countedOn, countedLocked,
    keptTmb, countedError, countedSecond, grownError, State.l1]
  rfl

theorem settled_lda (s : State) : (settleGnss (tickCounted s)).lda = s.lda := by
  unfold settleGnss
  split <;> rfl

theorem settled_tables (s : State) : (settleGnss (tickCounted s)).tables = s.tables := by
  unfold settleGnss
  split <;> rfl

theorem settled_bmn (s : State) : (settleGnss (tickCounted s)).bmn = s.bmn := by
  unfold settleGnss
  split <;> rfl

theorem releaseDue_settled (s : State) : releaseDue (settleGnss (tickCounted s)) = true ↔ TickReleases s := by
  rw [releaseDue, settled_tmb, settled_lda, settled_tables, keptTmb]
  simp [TickReleases, and_assoc]

/-- At a tick without a release. -/
theorem tickReleased_of_kept (h : ¬TickReleases s) : tickReleased s = settleGnss (tickCounted s) := by
  rw [tickReleased, dutyRelease, if_neg fun due => h ((releaseDue_settled s).mp due)]

/-- At the tick of a release. -/
theorem tickReleased_of_release (h : TickReleases s) : tickReleased s = releaseGnss (settleGnss (tickCounted s)) := by
  rw [tickReleased, dutyRelease, if_pos ((releaseDue_settled s).mpr h)]

theorem tickReleased_tmb_of_release (h : TickReleases s) : (tickReleased s).tmb = releasedTmb s := by
  have on : (settleGnss (tickCounted s)).l1.state = .on := by
    rw [State.l1, settled_lda]
    exact h.2.1
  rw [tickReleased_of_release h, releaseGnss_tmb on, settled_tmb, refixReload, settled_tables, State.atLevel, settled_bmn]
  rfl

theorem tickReleased_tables (s : State) : (tickReleased s).tables = s.tables :=
  (beside_fields (tickReleased_beside s)).2.2.2.2.2.2.1

theorem tickJudged_tmb {x : Tmb} (h : (tickReleased s).tmb = x) (still : x.tq = .locked → s.tmb.tq = .locked) :
    (tickJudged s).tmb = judgedTmb s x := by
  have tables : (holdoverEntry (tickReleased s)).tables = s.tables :=
    (beside_fields (holdoverEntry_beside _)).2.2.2.2.2.2.1.trans (tickReleased_tables s)
  rw [tickJudged, driftingEntry_tmb, holdoverEntry_tmb, tables, tickReleased_tables, h, judgedTmb]
  by_cases entry : x.tq = .locked ∧ s.tables.time.holdoverTimeout ≤ x.edgeAge
  · have locked := still entry.1
    simp [if_pos entry, locked]
  · simp only [if_neg entry]

/-- TMB after the tick, but for A3. -/
theorem tickBlocks_tmb_eq (s : State) :
    (tickBlocks s).tmb = { (tickJudged s).tmb with a3 := a3Condition (tickJudged s).tmb } := by
  rw [tickBlocks_tmb, tmbTick_eq, judgeA3_tmb, dutyRequest_tmb]

theorem tickJudged_of_kept (h : ¬TickReleases s) : (tickJudged s).tmb = judgedTmb s (keptTmb s) :=
  tickJudged_tmb ((congrArg State.tmb (tickReleased_of_kept h)).trans (settled_tmb s)) id

theorem tickJudged_of_release (h : TickReleases s) : (tickJudged s).tmb = judgedTmb s (releasedTmb s) :=
  tickJudged_tmb (tickReleased_tmb_of_release h) fun locked => by
    by_contra unlocked
    simp [releasedTmb, unlocked] at locked

/-- The receiver's quantities after a tick without a release (R35 to R37). -/
theorem tick_of_kept (h : ¬TickReleases s) :
    (tickBlocks s).tmb.onTime = countedOn s ∧
      (tickBlocks s).tmb.lockedTime =
        (if s.tmb.tq = .locked ∧ s.tables.time.holdoverTimeout ≤ min 65535 (s.tmb.edgeAge + 1) then 0 else countedLocked s) ∧
      (tickBlocks s).tmb.refixCounter = s.tmb.refixCounter - 1 ∧ (tickBlocks s).tmb.refixArmed = s.tmb.refixArmed ∧
      (tickBlocks s).tmb.gnss =
        if s.tmb.gnss = .settling ∧ s.tables.time.gnssSettle ≤ countedOn s then .active else s.tmb.gnss := by
  rw [tickBlocks_tmb_eq, tickJudged_of_kept h, judgedTmb]
  split
  · next entry => exact ⟨rfl, (if_pos entry).symm, rfl, rfl, rfl⟩
  · next stays => split <;> exact ⟨rfl, (if_neg stays).symm, rfl, rfl, rfl⟩

/-- The receiver's quantities after the tick of a release (R36). -/
theorem tick_of_release (h : TickReleases s) :
    (tickBlocks s).tmb.onTime = 0 ∧ (tickBlocks s).tmb.lockedTime = 0 ∧ (tickBlocks s).tmb.refixCounter = refixReload s ∧
      (tickBlocks s).tmb.gnss = .off := by
  rw [tickBlocks_tmb_eq, tickJudged_of_release h, judgedTmb]
  split
  · exact ⟨rfl, rfl, rfl, rfl⟩
  · split <;> exact ⟨rfl, rfl, rfl, rfl⟩

/-- LOCKED is left for HOLDOVER at the timeout and by a release (R23, R36). -/
theorem tick_of_locked (locked : s.tmb.tq = .locked)
    (h : s.tables.time.holdoverTimeout ≤ min 65535 (s.tmb.edgeAge + 1) ∨ TickReleases s) :
    (tickBlocks s).tmb.tq = .holdover ∧ (tickBlocks s).tmb.err = s.tables.time.lockThreshold ∧
      (tickBlocks s).tmb.lockedTime = 0 := by
  rw [tickBlocks_tmb_eq]
  by_cases release : TickReleases s
  · rw [tickJudged_of_release release]
    simp [judgedTmb, releasedTmb, locked]
  · rw [tickJudged_of_kept release, judgedTmb, if_pos ⟨locked, h.resolve_right release⟩]
    exact ⟨rfl, rfl, rfl⟩

/-- E and the quality at a tick in HOLDOVER and DRIFTING (R24). -/
theorem tick_of_holdover (h : s.tmb.tq = .holdover ∨ s.tmb.tq = .drifting) :
    (tickBlocks s).tmb.err = grownError s ∧
      (s.tmb.tq = .holdover → s.tables.time.degradeBound < grownError s → (tickBlocks s).tmb.tq = .drifting) := by
  have counted : countedError s = grownError s := if_pos h
  have unlocked : s.tmb.tq ≠ .locked := by obtain h | h := h <;> simp [h]
  rw [tickBlocks_tmb_eq]
  by_cases release : TickReleases s
  · rw [tickJudged_of_release release]
    obtain h | h := h
    · by_cases drifts : s.tables.time.degradeBound < grownError s <;> simp [judgedTmb, releasedTmb, h, counted, drifts]
    · simp [judgedTmb, releasedTmb, h, counted]
  · rw [tickJudged_of_kept release]
    obtain h | h := h
    · by_cases drifts : s.tables.time.degradeBound < grownError s <;> simp [judgedTmb, keptTmb, h, counted, drifts]
    · simp [judgedTmb, keptTmb, h, counted]

/-- The quality at a tick in the other states. -/
theorem tick_of_unlocked (h : s.tmb.tq = .unset ∨ s.tmb.tq = .coarse ∨ s.tmb.tq = .acquiring) :
    (tickBlocks s).tmb.err = s.tmb.err ∧ (tickBlocks s).tmb.tq = s.tmb.tq := by
  have counted : countedError s = s.tmb.err := if_neg (by obtain h | h | h := h <;> simp [h])
  rw [tickBlocks_tmb_eq]
  by_cases release : TickReleases s
  · rw [tickJudged_of_release release]
    obtain h | h | h := h <;> simp [judgedTmb, releasedTmb, h, counted]
  · rw [tickJudged_of_kept release]
    obtain h | h | h := h <;> simp [judgedTmb, keptTmb, h, counted]

/-- A3 after the tick (R26). -/
theorem tick_a3 (s : State) : (tickBlocks s).tmb.a3 = a3Condition (tickBlocks s).tmb := by
  rw [tickBlocks_tmb_eq]
  rfl

/-- The refix trigger after a tick that releases nothing, and F, the message and the way at every tick. -/
theorem tick_standing (s : State) : (tickBlocks s).tmb.freq = s.tmb.freq ∧ (tickBlocks s).tmb.message = s.tmb.message ∧
    (tickBlocks s).tmb.label = s.tmb.label := by
  obtain ⟨label, -, freq, -, -, -, -, -, -, -, message⟩ := standing_fields (tickBlocks_standing s).1
  exact ⟨freq, message, label⟩

end Sys2Proof.Machine
end

section
/-!
PROOF. What a plain tick makes of time quality and of L1 (R23 to R26, R35 to R37): O17.
-/

namespace Sys2Proof.Machine

open Config (second)

variable {s b t : State}

/-! ### L1 at a tick -/

theorem Alerts.lda (h : Alerts s t) : t.lda = s.lda := by
  obtain ⟨a, c, q, rfl⟩ := h
  rfl

theorem judgeA3_lda (s : State) : (judgeA3 s).lda = s.lda := by
  unfold judgeA3
  dsimp only
  split
  · rfl
  · exact (reportCondition_alerts _ _ _ _).lda

/-- Of the blocks that tick only TMB touches the loads, by R36's release and R37's request. -/
theorem tickBlocks_lda (s : State) : (tickBlocks s).lda = (dutyRequest (tickJudged s)).lda := by
  have lnk (u : State) : (lnkTick u).lda = u.lda := rfl
  obtain ⟨q, e⟩ := wfsTick_eq (tmbTick s)
  rw [tickBlocks, lnk, (aluTick_alerts _).lda, e, tmbTick_eq, judgeA3_lda]

theorem tickJudged_lda (s : State) : (tickJudged s).lda = (tickReleased s).lda := by
  have holdover (u : State) : (holdoverEntry u).lda = u.lda := by
    unfold holdoverEntry
    split <;> rfl
  have drifting (was : TimeQuality) (u : State) : (driftingEntry was u).lda = u.lda := by
    unfold driftingEntry
    split <;> rfl
  rw [tickJudged, drifting, holdover]

theorem tickJudged_lda_of_kept (h : ¬TickReleases s) : (tickJudged s).lda = s.lda := by
  rw [tickJudged_lda, tickReleased_of_kept h, settled_lda]

theorem dutyRequest_onward (s : State) : Onward s (dutyRequest s) := by
  unfold dutyRequest
  split
  · exact requestGnss_onward s
  · exact .refl s

/-- An ON load's switch-off with a minimum rest (R157). -/
theorem switchOff_of_rest {l : Fin 8} (h : (s.lda.loads.get l).state = .on) (rest : 1 ≤ (s.tables.load.get l).minRest) :
    switchOff l s =
      tellOff l (updateLoad l
        (fun x =>
          { x with
            state := .resting, request := none, remembered := false, deferred := false, burst := 0
            rest := (s.tables.load.get l).minRest * second })
        (announceSwitch l s)) := by
  have positive : (s.tables.load.get l).minRest * second ≠ 0 := Nat.mul_ne_zero (by omega) (by decide)
  unfold switchOff
  rw [if_neg (not_not.mpr h)]
  dsimp only
  rw [if_neg positive]

/-- At the tick of a release L1 rests (R36, R157). -/
theorem tick_rests (h : TickReleases s) (rest : 1 ≤ (s.tables.load.get 1).minRest) :
    (tickBlocks s).l1.state = .resting ∧ (tickBlocks s).l1.rest = (s.tables.load.get 1).minRest * second := by
  have released : (tickReleased s).l1.state = .resting ∧
      (tickReleased s).l1.rest = (s.tables.load.get 1).minRest * second := by
    have lda (u : State) (f : Tmb → Tmb) : (u.withTmb f).lda = u.lda := rfl
    rw [tickReleased_of_release h]
    unfold releaseGnss
    dsimp only
    generalize hu : (if (settleGnss (tickCounted s)).tmb.tq = .locked then enterHoldover (settleGnss (tickCounted s))
      else (settleGnss (tickCounted s)).withTmb fun t => { t with refixArmed := false }) = u
    have same : u.lda = s.lda ∧ u.tables = s.tables := by
      have e : u.lda = (settleGnss (tickCounted s)).lda ∧ u.tables = (settleGnss (tickCounted s)).tables := by
        subst hu
        split <;> exact ⟨rfl, rfl⟩
      exact ⟨e.1.trans (settled_lda s), e.2.trans (settled_tables s)⟩
    obtain ⟨uLda, uTables⟩ := same
    generalize hv : u.withTmb (fun t => { t with refixCounter := refixReload u }) = v
    have vLda : v.lda = s.lda := by rw [← hv, lda, uLda]
    have vTables : v.tables = s.tables := by rw [← hv, State.withTmb_tables, uTables]
    have off := switchOff_of_rest (s := v) (l := 1) (by rw [vLda]; exact h.2.1) (by rw [vTables]; exact rest)
    rw [off, State.l1, tellOff_lda, vTables]
    exact ⟨congrArg Load.state (updateLoad_l1 _ _), congrArg Load.rest (updateLoad_l1 _ _)⟩
  have judged : (tickJudged s).l1 = (tickReleased s).l1 := by rw [State.l1, tickJudged_lda]
  obtain ⟨state, same, -⟩ := (dutyRequest_onward (tickJudged s)).rests (by rw [judged]; exact released.1)
  rw [judged, released.2] at same
  rw [State.l1, tickBlocks_lda]
  exact ⟨state, same⟩

/-- R37's request for an L1 that is off. -/
theorem tick_requests (way : s.tmb.way = some .duty) (off : s.l1.state = .off) (free : s.l1.request = none)
    (due : (tickBlocks s).tmb.refixCounter = 0 ∨
      ((tickBlocks s).tmb.refixArmed = true ∧ s.tables.time.refixBound < (tickBlocks s).tmb.err)) :
    (tickBlocks s).l1.state = .requested ∧ (tickBlocks s).l1.request.isSome = true := by
  have kept : ¬TickReleases s := by
    rintro ⟨-, on, -⟩
    rw [off] at on
    cases on
  have duty : (tickJudged s).tmb.way = some .duty := by
    have stands := congrArg Tmb.way (tickBlocks_standing s).1
    rw [tickBlocks_tmb_eq] at stands
    exact stands.trans way
  have tables : (tickJudged s).tables = s.tables := (beside_fields (tickJudged_beside s)).2.2.2.2.2.2.1
  have falls : refixDue (tickJudged s) = true := by
    rw [tickBlocks_tmb_eq] at due
    rw [refixDue, tables]
    obtain zero | ⟨armed, above⟩ := due
    · simp only at zero
      simp [zero]
    · simp only at armed above
      simp [armed, above]
  have lda := tickJudged_lda_of_kept kept
  have unrequested : ¬(gnssRequested (tickJudged s) || ((tickJudged s).lda.loads.get 1).state == .on) = true := by
    rw [gnssRequested, lda]
    simp [show (s.lda.loads.get 1).request = none from free, show (s.lda.loads.get 1).state = .off from off]
  have placed (r : Request) : (placeRequest 1 r (tickJudged s)).l1.state = .requested ∧
      (placeRequest 1 r (tickJudged s)).l1.request.isSome = true := by
    have state : (tickJudged s).l1.state = .off := by rw [State.l1, lda]; exact off
    unfold placeRequest
    rw [updateLoad_l1, state]
    exact ⟨rfl, rfl⟩
  rw [State.l1, tickBlocks_lda, dutyRequest, if_pos ⟨duty, falls⟩, requestGnss, if_neg unrequested]
  exact placed _

/-! ### The occurrences -/

theorem OnBoundary.counted (h : OnBoundary s b) : countedOn b = countedOn s ∧ countedLocked b = countedLocked s ∧
    countedError b = countedError s ∧ grownError b = grownError s ∧ refixReload b = refixReload s ∧
    (TickReleases b ↔ TickReleases s) := by
  obtain ⟨tq, err, -, -, onTime, lockedTime, -, -, -, way, -, -⟩ := h.fields
  have on : countedOn b = countedOn s := by rw [countedOn, countedOn, h.l1.1, onTime]
  have locked : countedLocked b = countedLocked s := by rw [countedLocked, countedLocked, h.l1.1, tq, lockedTime]
  have grown : grownError b = grownError s := by rw [grownError, grownError, err, h.tables]
  refine ⟨on, locked, by rw [countedError, countedError, tq, err, grown], grown, ?_, ?_⟩
  · rw [refixReload, refixReload, State.atLevel, State.atLevel, h.bmn, h.tables]
  · rw [TickReleases, TickReleases, on, locked, way, h.l1.1, h.tables]

/-- The occurrence's step, if it comes about at the tick. -/
theorem stepTickIf_of_plain {p : State → State → Bool} (on : s.supply = .on) (ticks : secondTicks s = [b])
    (hp : p b (tickBlocks b) = true) : stepTickIf p s = .next (settle (runSecond s)) :=
  stepTick_of_plain (p := fun s => p s (tickBlocks s)) on ticks hp

/-- What follows at once leaves TMB's quality, E, A3, the counter and the trigger. -/
theorem settled_quality {n : Nat} {x : State} (h : t = settle (x.withTmb fun t => { t with ns := t.ns + n })) :
    t.tmb.tq = x.tmb.tq ∧ t.tmb.err = x.tmb.err ∧ t.tmb.a3 = x.tmb.a3 ∧ t.tmb.refixCounter = x.tmb.refixCounter ∧
      t.tmb.restartAge = x.tmb.restartAge ∧ t.tmb.edgeAge = x.tmb.edgeAge ∧ t.tmb.label = x.tmb.label ∧
      t.tmb.freq = x.tmb.freq ∧ t.tmb.message = x.tmb.message ∧ (x.tmb.lockedTime = 0 → t.tmb.lockedTime = 0) := by
  obtain ⟨g, o, l, e, -, hl⟩ := settle_tmb (x.withTmb fun t => { t with ns := t.ns + n })
  rw [h, e]
  refine ⟨rfl, rfl, rfl, rfl, rfl, rfl, rfl, rfl, rfl, fun zero => ?_⟩
  obtain same | none := hl
  · exact same.trans zero
  · exact none

/-- The entries of HOLDOVER and DRIFTING and the end of the restart age (R23, R24, R26). -/
theorem tick_moves_quality (h : PlainTick s) :
    (s.tmb.tq = .locked → s.tables.time.holdoverTimeout ≤ s.tmb.edgeAge + 1 → s.tmb.edgeAge < 65535 →
      ∃ t, exec .holdoverEntry s = .next t ∧ t.tmb.tq = .holdover ∧ t.tmb.err = s.tables.time.lockThreshold ∧
        t.tmb.lockedTime = 0 ∧ t.tmb.freq = s.tmb.freq) ∧
      (s.tmb.tq = .holdover → s.tables.time.degradeBound < grownError s →
        ∃ t, exec .driftingEntry s = .next t ∧ t.tmb.tq = .drifting ∧ t.tmb.err = grownError s ∧ t.tmb.a3 = true) ∧
      ((s.tmb.tq = .unset ∨ s.tmb.tq = .coarse) → s.tmb.restartAge = 600 →
        ∃ t, exec .restartAgeExpiry s = .next t ∧ t.tmb.restartAge = 601 ∧ t.tmb.a3 = true ∧ t.tmb.tq = s.tmb.tq) := by
  obtain ⟨b, past, boundary, -, ticks, run⟩ := plainTick_boundary h
  obtain ⟨tq, -, edgeAge, -, -, -, -, -, restartAge, -, freq, -⟩ := boundary.fields
  obtain ⟨-, -, -, grown, -, -⟩ := boundary.counted
  obtain ⟨-, age, restart⟩ := tickBlocks_standing b
  rw [edgeAge] at age
  rw [restartAge] at restart
  obtain ⟨tickFreq, -, -⟩ := tick_standing b
  obtain ⟨htq, herr, ha3, -, hrestart, -, -, hfreq, -, hlocked⟩ := settled_quality (t := settle (runSecond s)) (congrArg settle run)
  refine ⟨fun locked timeout below => ?_, fun holdover bound => ?_, fun state old => ?_⟩
  · have due : b.tables.time.holdoverTimeout ≤ min 65535 (b.tmb.edgeAge + 1) := by
      rw [boundary.tables, edgeAge]
      omega
    obtain ⟨tickTq, tickErr, tickLocked⟩ := tick_of_locked (tq.trans locked) (.inl due)
    refine ⟨settle (runSecond s), ?_, htq.trans tickTq, ?_, hlocked tickLocked, ?_⟩
    · refine (stepTickIf_of_plain h.supply ticks ?_ : execHoldoverEntry s = _)
      simp only [tq, locked, tickTq, boundary.tables, age]
      simp
      omega
    · rw [herr, tickErr, boundary.tables]
    · rw [hfreq, tickFreq, freq]
  · obtain ⟨tickErr, drifts⟩ := tick_of_holdover (.inl (tq.trans holdover))
    have tickTq := drifts (tq.trans holdover) (by rw [grown, boundary.tables]; exact bound)
    refine ⟨settle (runSecond s), ?_, htq.trans tickTq, ?_, ?_⟩
    · refine (stepTickIf_of_plain h.supply ticks ?_ : execDriftingEntry s = _)
      simp [tq, holdover, tickTq]
    · rw [herr, tickErr, grown]
    · rw [ha3, tick_a3, a3Condition, tickTq]
  · have unlocked : b.tmb.tq = .unset ∨ b.tmb.tq = .coarse ∨ b.tmb.tq = .acquiring := by
      rw [tq]
      exact state.imp_right .inl
    obtain ⟨-, tickTq⟩ := tick_of_unlocked unlocked
    have restarted : (tickBlocks b).tmb.restartAge = 601 := by
      rw [restart, old]
      rfl
    refine ⟨settle (runSecond s), ?_, hrestart.trans restarted, ?_, ?_⟩
    · refine (stepTickIf_of_plain h.supply ticks ?_ : execRestartAgeExpiry s = _)
      rw [restarted, restartAge, old, tickTq, tq]
      obtain state | state := state <;> simp [state]
    · rw [ha3, tick_a3, a3Condition, restarted, tickTq, tq]
      obtain state | state := state <;> simp [state]
    · rw [htq, tickTq, tq]

/-- The end of SETTLING, and R36's release (R35, R36). -/
theorem tick_settles_or_releases (h : PlainTick s) (on : s.l1.state = .on) :
    (s.tmb.gnss = .settling → s.tables.time.gnssSettle ≤ countedSecond s.tmb.onTime →
        (s.tmb.way = some .duty →
          countedSecond s.tmb.onTime < s.tables.time.maxOnTime ∧
            (if s.tmb.tq = .locked then countedSecond s.tmb.lockedTime else s.tmb.lockedTime) < s.tables.time.minLockTime) →
      ∃ u, exec .gnssSettled s = .next (settle u) ∧ u.tmb.gnss = .active ∧ u.tmb.onTime = countedSecond s.tmb.onTime) ∧
      (s.tmb.way = some .duty → 1 ≤ (s.tables.load.get 1).minRest →
        (s.tables.time.maxOnTime ≤ countedSecond s.tmb.onTime ∨
          (s.tmb.tq = .locked ∧ s.tables.time.minLockTime ≤ countedSecond s.tmb.lockedTime)) →
        ∃ t, exec .dutyRelease s = .next t ∧ t.l1.state = .resting ∧
          t.l1.rest = (s.tables.load.get 1).minRest * second ∧ t.tmb.gnss = .off ∧
          t.tmb.onTime = 0 ∧ t.tmb.refixCounter = refixReload s ∧ (s.tmb.tq = .locked → t.tmb.tq = .holdover)) := by
  obtain ⟨b, past, boundary, -, ticks, run⟩ := plainTick_boundary h
  obtain ⟨tq, -, -, gnss, -, -, -, -, -, way, -, -⟩ := boundary.fields
  obtain ⟨counted, -, -, -, reload, releases⟩ := boundary.counted
  have onTime : countedOn s = countedSecond s.tmb.onTime := if_pos on
  have lockedTime : countedLocked s = if s.tmb.tq = .locked then countedSecond s.tmb.lockedTime else s.tmb.lockedTime := by
    simp [countedLocked, on]
  refine ⟨fun settling long bounds => ?_, fun duty rest bound => ?_⟩
  · have kept : ¬TickReleases b := by
      rw [releases]
      rintro ⟨duty, -, ends⟩
      obtain ⟨onBound, lockBound⟩ := bounds duty
      rw [onTime, lockedTime] at ends
      omega
    obtain ⟨tickOn, -, -, -, tickGnss⟩ := tick_of_kept kept
    rw [gnss, boundary.tables, counted, onTime, if_pos ⟨settling, long⟩] at tickGnss
    refine ⟨runSecond s, ?_, ?_, ?_⟩
    · refine (stepTickIf_of_plain h.supply ticks ?_ : execGnssSettled s = _)
      simp [gnss, settling, tickGnss]
    · rw [run]
      exact tickGnss
    · rw [run]
      exact tickOn.trans (counted.trans onTime)
  · have release : TickReleases b := by
      rw [releases]
      refine ⟨duty, on, ?_⟩
      rw [onTime, lockedTime]
      obtain long | ⟨locked, long⟩ := bound
      · exact .inr long
      · rw [if_pos locked]
        exact .inl long
    obtain ⟨resting, restLeft⟩ := tick_rests release (by rw [boundary.tables]; exact rest)
    obtain ⟨tickOn, -, tickCounter, tickGnss⟩ := tick_of_release release
    have l1 : (runSecond s).l1 = (tickBlocks b).l1 := by rw [run]; rfl
    obtain ⟨state, left, tmb⟩ := (settle_onward (s := runSecond s) (by rw [l1, resting]; simp)).rests (by rw [l1, resting])
    rw [run, State.withTmb_tmb] at tmb
    refine ⟨settle (runSecond s), ?_, state, ?_, ?_⟩
    · refine (stepTickIf_of_plain h.supply ticks ?_ : execDutyRelease s = _)
      have was : (b.lda.loads.get 1).state = .on := boundary.l1.1.trans on
      have now : ((tickBlocks b).lda.loads.get 1).state = .resting := resting
      simp [was, now]
    · rw [left, l1, restLeft, boundary.tables]
    · rw [run, tmb]
      refine ⟨tickGnss, tickOn, tickCounter.trans reload, fun locked => ?_⟩
      exact (tick_of_locked (tq.trans locked) (.inr release)).1

/-- R37's two grounds at a tick. -/
theorem tick_requests_gnss (h : PlainTick s) (way : s.tmb.way = some .duty) (off : s.l1.state = .off)
    (free : s.l1.request = none) :
    (s.tmb.refixCounter ≤ 1 →
      ∃ t, exec .refixRequest s = .next t ∧ t.tmb.refixCounter = 0 ∧ (t.l1.state = .requested ∨ t.l1.state = .on)) ∧
      (s.tmb.refixArmed = true → (s.tmb.tq = .holdover ∨ s.tmb.tq = .drifting) →
        s.tables.time.refixBound < grownError s →
        ∃ t, exec .refixBoundCrossed s = .next t ∧ t.tmb.err = grownError s ∧
          (t.l1.state = .requested ∨ t.l1.state = .on)) := by
  obtain ⟨b, past, boundary, -, ticks, run⟩ := plainTick_boundary h
  obtain ⟨tq, -, -, -, -, -, counter, armed, -, way', -, -⟩ := boundary.fields
  obtain ⟨-, -, -, grown, -, releases⟩ := boundary.counted
  have kept : ¬TickReleases b := by
    rw [releases]
    rintro ⟨-, on, -⟩
    simp [off] at on
  obtain ⟨-, -, tickCounter, tickArmed, -⟩ := tick_of_kept kept
  have unrequested : gnssRequested b = false := by
    have none : (b.lda.loads.get 1).request = none := boundary.l1.2.trans free
    simp [gnssRequested, none]
  have requests := tick_requests (way'.trans way) (boundary.l1.1.trans off) (boundary.l1.2.trans free)
  have l1 : (runSecond s).l1 = (tickBlocks b).l1 := by rw [run]; rfl
  have asks (requested : (tickBlocks b).l1.state = .requested) :
      (settle (runSecond s)).l1.state = .requested ∨ (settle (runSecond s)).l1.state = .on :=
    (settle_onward (s := runSecond s) (by rw [l1, requested]; simp)).asks (.inl (by rw [l1, requested]))
  obtain ⟨-, herr, -, hcounter, -⟩ := settled_quality (t := settle (runSecond s)) (congrArg settle run)
  refine ⟨fun last => ?_, fun trigger state above => ?_⟩
  · have zero : (tickBlocks b).tmb.refixCounter = 0 := by
      rw [tickCounter, counter]
      omega
    obtain ⟨requested, some⟩ := requests (.inl zero)
    refine ⟨settle (runSecond s), ?_, hcounter.trans zero, asks requested⟩
    · refine (stepTickIf_of_plain h.supply ticks ?_ : execRefixRequest s = _)
      rw [unrequested, zero, gnssRequested, some]
      rfl
  · obtain ⟨tickErr, -⟩ := tick_of_holdover (s := b) (by rw [tq]; exact state)
    rw [grown] at tickErr
    have triggered := tickArmed.trans (armed.trans trigger)
    have bound : b.tables.time.refixBound < (tickBlocks b).tmb.err := by
      rw [tickErr, boundary.tables]
      exact above
    obtain ⟨requested, some⟩ := requests (.inr ⟨triggered, bound⟩)
    refine ⟨settle (runSecond s), ?_, herr.trans tickErr, asks requested⟩
    · refine (stepTickIf_of_plain h.supply ticks ?_ : execRefixBoundCrossed s = _)
      rw [unrequested, triggered, gnssRequested, some, decide_eq_true bound]
      rfl

/-- Settles O17: the tick's stages by whether R36's release is due at it. -/
theorem tickMovesTimeQualityAndReceiver : Obligations.TickMovesTimeQualityAndReceiver :=
  ⟨fun _ => tick_moves_quality, fun _ => tick_settles_or_releases, fun _ => tick_requests_gnss⟩

end Sys2Proof.Machine
end

section
/-!
SUPPORT. ALU at a second tick (R100 to R108): a raise by what it makes of the queue and the re-checks; the re-check of a class
without a raised alert; and a raised alert that waits in a queue with room.
-/

namespace Sys2Proof.Machine

variable {s t : State} {cls : Fin 8} {r : Option Nat} {x : AlertInstance}

/-! ### The queue -/

theorem mem_insertAlert {x y : AlertInstance} {q : List AlertInstance} : y ∈ insertAlert x q ↔ y = x ∨ y ∈ q := by
  induction q with
  | nil => simp [insertAlert]
  | cons z q ih =>
    unfold insertAlert
    split
    · simp
    · simp only [List.mem_cons, ih]
      tauto

theorem length_insertAlert (x : AlertInstance) (q : List AlertInstance) : (insertAlert x q).length = q.length + 1 := by
  induction q with
  | nil => rfl
  | cons z q ih =>
    unfold insertAlert
    split
    · rfl
    · simp [ih]

theorem count_alu (k : Fin 40) (s : State) : (count k s).alu = s.alu := by
  obtain ⟨q, -, e⟩ := count_eq k s
  rw [e]

/-- A raise into a queue with room (R100). -/
theorem raiseAlert_of_room (h : s.alu.queue.length < 12) (cls : Fin 8) (p : Option AlertPayload) :
    (raiseAlert cls p s).alu.queue = insertAlert (newInstance cls p (count 17 s)) s.alu.queue ∧
      (raiseAlert cls p s).alu.recheck = s.alu.recheck := by
  have room : (count 17 s).alu.queue.length < Config.alertLimit := by rw [count_alu]; exact h
  unfold raiseAlert
  dsimp only
  rw [if_pos room, enterAlert, State.withAlu, count_alu]
  exact ⟨rfl, rfl⟩

theorem startRecheck_queue (c : Fin 8) (s : State) : (startRecheck c s).alu.queue = s.alu.queue := by
  unfold startRecheck
  dsimp only
  split <;> rfl

theorem startRecheck_recheck_ne {c : Fin 8} (h : cls ≠ c) (s : State) :
    (startRecheck c s).alu.recheck.get cls = s.alu.recheck.get cls := by
  unfold startRecheck
  dsimp only
  split
  · simp [State.withAlu, Eight.get_set, h]
  · rfl

/-! ### The re-check of a class without a raised alert -/

/-- The class has no raised alert, and its re-check is `r`. -/
structure Rechecking (cls : Fin 8) (r : Option Nat) (s : State) : Prop where
  recheck : s.alu.recheck.get cls = r
  absent : ∀ y ∈ s.alu.queue, y.cls ≠ cls

theorem rechecking_of_not_pending (h : classPending cls s = false) : Rechecking cls (s.alu.recheck.get cls) s := by
  refine ⟨rfl, fun y hy e => ?_⟩
  have := List.any_eq_false.mp h y hy
  simp [e] at this

theorem Rechecking.of_alu (h : Rechecking cls r s) (e : t.alu = s.alu) : Rechecking cls r t :=
  ⟨by rw [e]; exact h.recheck, by rw [e]; exact h.absent⟩

theorem Rechecking.count (h : Rechecking cls r s) (k : Fin 40) : Rechecking cls r (count k s) := h.of_alu (count_alu k s)

theorem Rechecking.startRecheck {c : Fin 8} (h : Rechecking cls r s) (ne : cls ≠ c) : Rechecking cls r (startRecheck c s) :=
  ⟨(startRecheck_recheck_ne ne s).trans h.recheck, by rw [startRecheck_queue]; exact h.absent⟩

theorem Rechecking.enterAlert {y : AlertInstance} (h : Rechecking cls r s) (ne : y.cls ≠ cls) :
    Rechecking cls r (enterAlert y s) := by
  refine ⟨h.recheck, fun z hz => ?_⟩
  obtain rfl | old := mem_insertAlert.mp hz
  · exact ne
  · exact h.absent z old

/-- A raise of another class, with a push-out or a loss if the queue is full (R101). -/
theorem Rechecking.raiseAlert {c : Fin 8} (h : Rechecking cls r s) (ne : cls ≠ c) (p : Option AlertPayload) :
    Rechecking cls r (raiseAlert c p s) := by
  have counted := h.count 17
  have entered (u : State) : (newInstance c p u).cls ≠ cls := fun e => ne e.symm
  unfold Machine.raiseAlert
  dsimp only
  split
  · exact counted.enterAlert (entered _)
  · split
    · exact counted.enterAlert (entered _)
    · next last hlast =>
      split
      · have other : cls ≠ last.cls := fun e => counted.absent last (List.mem_of_getLast? hlast) e.symm
        have dropped : Rechecking cls r ((Machine.count 17 s).withAlu fun a => { a with queue := a.queue.dropLast }) :=
          ⟨counted.recheck, fun y hy => counted.absent y (List.dropLast_subset _ hy)⟩
        exact ((dropped.count 21).startRecheck other).enterAlert (entered _)
      · exact (counted.count 21).startRecheck ne

theorem Rechecking.updateClass {f : AlertInstance → AlertInstance} (h : Rechecking cls r s) (c : Fin 8)
    (hf : ∀ y, (f y).cls = y.cls) : Rechecking cls r (updateClass c f s) := by
  refine ⟨h.recheck, fun z hz => ?_⟩
  obtain ⟨y, hy, rfl⟩ := List.mem_map.mp hz
  have same : (if y.cls = c then f y else y).cls = y.cls := by split <;> simp [hf]
  rw [same]
  exact h.absent y hy

/-- A report of a condition: a class whose re-check runs is not raised (R105). -/
theorem Rechecking.reportCondition {c : Fin 8} (h : Rechecking cls r s) (hr : r.isSome = true) (value : Bool)
    (p : AlertPayload) : Rechecking cls r (reportCondition c value p s) := by
  have recorded : Rechecking cls r (s.withAlu fun a => { a with conds := a.conds.set c ⟨value, some p⟩ }) :=
    ⟨h.recheck, h.absent⟩
  unfold Machine.reportCondition
  dsimp only
  split
  · split
    · exact recorded.updateClass c fun _ => rfl
    · split
      · exact recorded
      · split
        · exact recorded
        · next idle =>
          by_cases ne : cls = c
          · subst ne
            rw [recorded.recheck] at idle
            exact absurd hr idle
          · exact recorded.raiseAlert ne _
  · split
    · exact recorded.updateClass c fun _ => rfl
    · exact recorded

theorem Rechecking.judgeA3 (h : Rechecking cls r s) (hr : r.isSome = true) : Rechecking cls r (judgeA3 s) := by
  unfold Machine.judgeA3
  dsimp only
  split
  · exact h
  · exact Rechecking.reportCondition (s := s.withTmb _) (h.of_alu rfl) hr _ _

theorem recheckTick_of_none {c : Fin 8} (h : s.alu.recheck.get c = none) : recheckTick c s = s := by
  unfold recheckTick
  split
  · rfl
  · next e => rw [h] at e; cases e

theorem recheckTick_of_some {c : Fin 8} {n : Nat} (h : s.alu.recheck.get c = some n) :
    recheckTick c s =
      if 1 < n then s.withAlu fun a => { a with recheck := a.recheck.set c (some (n - 1)) }
      else if (s.alu.conds.get c).value && (s.tables.alert.get c).enable then
        raiseAlert c (s.alu.conds.get c).payload (s.withAlu fun a => { a with recheck := a.recheck.set c none })
      else s.withAlu fun a => { a with recheck := a.recheck.set c none } := by
  unfold recheckTick
  split
  · next e => rw [h] at e; cases e
  · next m e =>
    obtain rfl : m = n := by rw [h] at e; exact Option.some.inj e.symm
    rfl

/-- Another class's re-check at the tick. -/
theorem Rechecking.recheckTick {c : Fin 8} (h : Rechecking cls r s) (ne : cls ≠ c) : Rechecking cls r (recheckTick c s) := by
  have moved (v : Option Nat) : Rechecking cls r (s.withAlu fun a => { a with recheck := a.recheck.set c v }) :=
    ⟨by simp [State.withAlu, Eight.get_set, ne, h.recheck], h.absent⟩
  cases hc : s.alu.recheck.get c with
  | none => rw [recheckTick_of_none hc]; exact h
  | some n =>
    rw [recheckTick_of_some hc]
    split
    · exact moved _
    · split
      · exact (moved _).raiseAlert ne _
      · exact moved _

theorem Rechecking.foldl_recheckTick (h : Rechecking cls r s) {l : List (Fin 8)} (ne : cls ∉ l) :
    Rechecking cls r (l.foldl (fun s c => Machine.recheckTick c s) s) := by
  induction l generalizing s with
  | nil => exact h
  | cons c l ih =>
    rw [List.mem_cons, not_or] at ne
    exact ih (h.recheckTick ne.1) ne.2

/-- A re-check that does not end at the tick loses one second (R105). -/
theorem Rechecking.recheckTicks {n : Nat} (h : Rechecking cls (some n) s) (station : 3 ≤ cls.val) (long : 1 < n) :
    Rechecking cls (some (n - 1)) (recheckTicks s) := by
  have mem : ∀ c : Fin 8, 3 ≤ c.val → c ∈ ([3, 4, 5, 6, 7] : List (Fin 8)) := by decide
  obtain ⟨before, after, e⟩ := List.append_of_mem (mem cls station)
  have distinct : (before ++ cls :: after).Nodup := e ▸ (by decide : ([3, 4, 5, 6, 7] : List (Fin 8)).Nodup)
  obtain ⟨notBefore, notAfter⟩ : cls ∉ before ∧ cls ∉ after := by
    rw [List.nodup_middle, List.nodup_cons, List.mem_append, not_or] at distinct
    exact distinct.1
  have first := h.foldl_recheckTick notBefore
  have ticked : Rechecking cls (some (n - 1)) (Machine.recheckTick cls (before.foldl (fun s c => Machine.recheckTick c s) s)) := by
    rw [recheckTick_of_some first.recheck, if_pos long]
    exact ⟨by simp [State.withAlu, Eight.get_set], first.absent⟩
  rw [Machine.recheckTicks, e, List.foldl_append, List.foldl_cons]
  exact ticked.foldl_recheckTick notAfter

/-- Instances that leave the queue start the re-checks of their own classes. -/
theorem Rechecking.waitsTick (h : Rechecking cls r s) : Rechecking cls r (waitsTick s) := by
  have kept : Rechecking cls r
      (s.withAlu fun a => { a with queue := (a.queue.filter fun x => !expiresNow s x).map waitTick }) := by
    refine ⟨h.recheck, fun z hz => ?_⟩
    obtain ⟨y, hy, rfl⟩ := List.mem_map.mp hz
    have same : (waitTick y).cls = y.cls := by
      unfold waitTick
      split <;> rfl
    rw [same]
    exact h.absent y (List.mem_filter.mp hy).1
  unfold Machine.waitsTick
  refine List.foldlRecOn (motive := Rechecking cls r) _ _ kept fun u hu y hy => ?_
  exact (hu.count 20).startRecheck fun e => h.absent y (List.mem_filter.mp hy).1 e.symm

/-! ### A raised alert in a queue with room -/

/-- A raised alert as `x` stands in the queue, but for its occurrences, payload and cleared flag. -/
def Held (x : AlertInstance) (s : State) : Prop :=
  ∃ y ∈ s.alu.queue, y.id = x.id ∧ y.cls = x.cls ∧ y.order = x.order ∧ y.state = x.state ∧ y.wait = x.wait ∧ y.sends = x.sends

/-- How many of the classes' re-checks end at the tick. -/
def endingRechecks (l : List (Fin 8)) (s : State) : Nat :=
  l.countP fun c => (s.alu.recheck.get c).any fun n => decide (n ≤ 1)

/-- `x` stands in the queue, which has room for `k` raises and those of the classes in `l`. -/
structure Fits (k : Nat) (l : List (Fin 8)) (x : AlertInstance) (s : State) : Prop where
  held : Held x s
  room : s.alu.queue.length + k + endingRechecks l s ≤ 12

theorem Fits.of_alu {k : Nat} {l : List (Fin 8)} (h : Fits k l x s) (e : t.alu = s.alu) : Fits k l x t := by
  obtain ⟨held, room⟩ := h
  rw [Held, ← e] at held
  rw [endingRechecks, ← e] at room
  exact ⟨held, room⟩

theorem Fits.weaken {k : Nat} {l : List (Fin 8)} (h : Fits (k + 1) l x s) : Fits k l x s :=
  ⟨h.held, by have := h.room; omega⟩

/-- A raise takes one place. -/
theorem Fits.raiseAlert {k : Nat} {l : List (Fin 8)} (h : Fits (k + 1) l x s) (c : Fin 8) (p : Option AlertPayload) :
    Fits k l x (raiseAlert c p s) := by
  obtain ⟨y, hy, same⟩ := h.held
  have room := h.room
  obtain ⟨queue, recheck⟩ := raiseAlert_of_room (s := s) (by omega) c p
  refine ⟨⟨y, ?_, same⟩, ?_⟩
  · rw [queue]
    exact mem_insertAlert.mpr (.inr hy)
  · rw [endingRechecks, queue, recheck, length_insertAlert, ← endingRechecks]
    omega

theorem Fits.updateClass {k : Nat} {l : List (Fin 8)} {f : AlertInstance → AlertInstance} (h : Fits k l x s) (c : Fin 8)
    (hf : ∀ y, ∃ o p d, f y = { y with occurrences := o, payload := p, cleared := d }) : Fits k l x (updateClass c f s) := by
  obtain ⟨y, hy, same⟩ := h.held
  refine ⟨⟨_, List.mem_map_of_mem hy, ?_⟩, ?_⟩
  · split
    · obtain ⟨o, p, d, e⟩ := hf y
      rw [e]
      exact same
    · exact same
  · have length : (Machine.updateClass c f s).alu.queue.length = s.alu.queue.length := List.length_map _
    have ending : endingRechecks l (Machine.updateClass c f s) = endingRechecks l s := rfl
    rw [length, ending]
    exact h.room

theorem Fits.reportCondition {k : Nat} {l : List (Fin 8)} (h : Fits (k + 1) l x s) (c : Fin 8) (value : Bool)
    (p : AlertPayload) : Fits k l x (reportCondition c value p s) := by
  have recorded : Fits (k + 1) l x (s.withAlu fun a => { a with conds := a.conds.set c ⟨value, some p⟩ }) := ⟨h.held, h.room⟩
  unfold Machine.reportCondition
  dsimp only
  split
  · split
    · exact recorded.weaken.updateClass c fun _ => ⟨_, _, _, rfl⟩
    · split
      · exact recorded.weaken
      · split
        · exact recorded.weaken
        · exact recorded.raiseAlert c _
  · split
    · exact recorded.weaken.updateClass c fun _ => ⟨_, _, _, rfl⟩
    · exact recorded.weaken

theorem Fits.judgeA3 {k : Nat} {l : List (Fin 8)} (h : Fits (k + 1) l x s) : Fits k l x (judgeA3 s) := by
  unfold Machine.judgeA3
  dsimp only
  split
  · exact h.weaken
  · exact Fits.reportCondition (s := s.withTmb _) (h.of_alu rfl) 3 _ _

theorem endingRechecks_set {c : Fin 8} {l : List (Fin 8)} (h : c ∉ l) (v : Option Nat) (s : State) :
    endingRechecks l (s.withAlu fun a => { a with recheck := a.recheck.set c v }) = endingRechecks l s := by
  refine List.countP_congr fun d hd => ?_
  have ne : d ≠ c := fun e => h (e ▸ hd)
  simp [State.withAlu, Eight.get_set, ne]

/-- A class's re-check at the tick takes a place if it ends. -/
theorem Fits.recheckTick {k : Nat} {c : Fin 8} {l : List (Fin 8)} (h : Fits k (c :: l) x s) (hc : c ∉ l) :
    Fits k l x (recheckTick c s) := by
  have room := h.room
  rw [endingRechecks, List.countP_cons, ← endingRechecks] at room
  have moved (v : Option Nat) {j : Nat} (hj : s.alu.queue.length + j + endingRechecks l s ≤ 12) :
      Fits j l x (s.withAlu fun a => { a with recheck := a.recheck.set c v }) :=
    ⟨h.held, by rw [endingRechecks_set hc]; exact hj⟩
  cases hs : s.alu.recheck.get c with
  | none =>
    rw [recheckTick_of_none hs]
    exact ⟨h.held, by omega⟩
  | some n =>
    rw [recheckTick_of_some hs]
    rw [hs] at room
    split
    · exact moved _ (by omega)
    · next ends =>
      have last : n ≤ 1 := by omega
      simp only [Option.any_some, last, decide_true, if_true] at room
      split
      · exact (moved none (j := k + 1) (by omega)).raiseAlert c _
      · exact moved _ (by omega)

theorem Fits.foldl_recheckTick {k : Nat} {l : List (Fin 8)} (h : Fits k l x s) (distinct : l.Nodup) :
    Fits k [] x (l.foldl (fun s c => Machine.recheckTick c s) s) := by
  induction l generalizing s with
  | nil => exact h
  | cons c l ih =>
    obtain ⟨hc, rest⟩ := List.nodup_cons.mp distinct
    exact ih (h.recheckTick hc) rest

theorem foldl_startRecheck_queue (l : List AlertInstance) (s : State) :
    (l.foldl (fun s x => startRecheck x.cls (count 20 s)) s).alu.queue = s.alu.queue := by
  induction l generalizing s with
  | nil => rfl
  | cons y l ih => rw [List.foldl_cons, ih, startRecheck_queue, count_alu]

theorem waitsTick_queue (s : State) :
    (waitsTick s).alu.queue = (s.alu.queue.filter fun x => !expiresNow s x).map waitTick := foldl_startRecheck_queue _ _

/-- A SENT alert's wait that does not end at the tick loses one second (R108). -/
theorem Held.waitsTick (h : Held x s) (sent : x.state = .sent) (long : 1 < x.wait) :
    Held { x with wait := x.wait - 1 } (waitsTick s) := by
  obtain ⟨y, hy, id, cls, order, state, wait, sends⟩ := h
  have stays : expiresNow s y = false := by
    have : (y.wait == 1) = false := by
      rw [beq_eq_false_iff_ne]
      omega
    simp [expiresNow, this]
  refine ⟨waitTick y, ?_, ?_⟩
  · rw [waitsTick_queue]
    exact List.mem_map_of_mem (List.mem_filter.mpr ⟨hy, by simp [stays]⟩)
  · rw [waitTick, if_pos (state.trans sent)]
    exact ⟨id, cls, order, state, by rw [wait], sends⟩

/-! ### A tick of all blocks -/

/-- Before A3 is judged a tick leaves ALU as it is. -/
theorem tickRequested_alu (s : State) : (dutyRequest (tickJudged s)).alu = s.alu := by
  have off (u : State) : (switchOff 1 u).alu = u.alu := (butSwitching_fields (switchOff_butSwitching 1 u)).2.2.2.2.2.1
  have release (u : State) : (dutyRelease u).alu = u.alu := by
    unfold dutyRelease releaseGnss
    dsimp only
    split
    · rw [off]
      split <;> rfl
    · rfl
  have settled (u : State) : (settleGnss u).alu = u.alu := by
    unfold settleGnss
    split <;> rfl
  have holdover (u : State) : (holdoverEntry u).alu = u.alu := by
    unfold holdoverEntry
    split <;> rfl
  have drifting (was : TimeQuality) (u : State) : (driftingEntry was u).alu = u.alu := by
    unfold driftingEntry
    split <;> rfl
  have request (u : State) : (dutyRequest u).alu = u.alu := by
    unfold dutyRequest requestGnss placeRequest
    split
    · split <;> rfl
    · rfl
  rw [request, tickJudged, drifting, holdover, tickReleased, release, settled]
  rfl

theorem wfsTick_alu (s : State) : (wfsTick s).alu = s.alu := by
  obtain ⟨q, e⟩ := wfsTick_eq s
  rw [e]

theorem tickBlocks_alu (s : State) : (tickBlocks s).alu = (waitsTick (recheckTicks (wfsTick (tmbTick s)))).alu := by
  have lnk (u : State) : (lnkTick u).alu = u.alu := rfl
  rw [tickBlocks, lnk, aluTick]

/-- The re-check of a class without a raised alert at a tick (R105). -/
theorem tick_recheck {n : Nat} (station : 3 ≤ cls.val) (h : s.alu.recheck.get cls = some n) (long : 1 < n)
    (absent : classPending cls s = false) : (tickBlocks s).alu.recheck.get cls = some (n - 1) := by
  have start : Rechecking cls (some n) s := h ▸ rechecking_of_not_pending absent
  have judged : Rechecking cls (some n) (tmbTick s) := by
    rw [tmbTick_eq]
    exact (start.of_alu (tickRequested_alu s)).judgeA3 rfl
  have held := judged.of_alu (wfsTick_alu _)
  rw [tickBlocks_alu]
  exact ((held.recheckTicks station long).waitsTick).recheck

theorem endingRechecks_le (s : State) :
    endingRechecks [3, 4, 5, 6, 7] s ≤ (s.alu.recheck.toList.filter fun r => r.any fun n => decide (n ≤ 1)).length := by
  have all : s.alu.recheck.toList = ([0, 1, 2, 3, 4, 5, 6, 7] : List (Fin 8)).map s.alu.recheck.get := rfl
  rw [← List.countP_eq_length_filter, all, List.countP_map]
  exact List.Sublist.countP_le (by decide)

/-- A SENT alert that waits in a queue with room for what the tick may raise (R108). -/
theorem tick_waits
    (room : s.alu.queue.length + (1 + (s.alu.recheck.toList.filter fun r => r.any fun n => decide (n ≤ 1)).length) ≤ 12)
    (mem : x ∈ s.alu.queue) (sent : x.state = .sent) (long : 1 < x.wait) :
    Held { x with wait := x.wait - 1 } (tickBlocks s) := by
  have start : Fits 1 [3, 4, 5, 6, 7] x s :=
    ⟨⟨x, mem, rfl, rfl, rfl, rfl, rfl, rfl⟩, by have := endingRechecks_le s; omega⟩
  have judged : Fits 0 [3, 4, 5, 6, 7] x (tmbTick s) := by
    rw [tmbTick_eq]
    exact Fits.judgeA3 (start.of_alu (tickRequested_alu s))
  have checked := (judged.of_alu (wfsTick_alu _)).foldl_recheckTick (by decide)
  rw [← recheckTicks] at checked
  rw [Held, tickBlocks_alu]
  exact checked.held.waitsTick sent long

end Sys2Proof.Machine
end

section
/-!
PROOF. What a plain tick leaves, what it counts, and the holds and the listen period that end at it (R13, R91, R131): O16.
-/

namespace Sys2Proof.Machine

open Config (second)

variable {s b t : State}

/-! ### What a tick leaves beside TMB and ALU -/

/-- The holds that run on at a tick, each with a second less (R91). -/
def heldOn (l : List Hold) : List Hold := (l.filter fun h => decide (1 < h.seconds)).map fun h => { h with seconds := h.seconds - 1 }

/-- The listen count after a tick (R131). -/
def listenCountAfter (s : State) : Nat :=
  if s.tables.station.listenPeriod ≤ s.lnk.listenCount + 1 then 0 else s.lnk.listenCount + 1

/-- What a second tick leaves beside TMB, ALU and the loads, and what it makes of the holds, the job and the listen count. -/
structure Ticked (s t : State) : Prop where
  sif : t.sif = s.sif
  bmn : t.bmn = s.bmn
  hzc : t.hzc = s.hzc
  cmd : t.cmd = s.cmd
  tables : t.tables = s.tables
  det : ∀ c, (t.det.get c).unblanked = (s.det.get c).unblanked
  evu : { t.evu with table := t.evu.table.map EventRecord.unblanked } =
    { s.evu with table := s.evu.table.map EventRecord.unblanked }
  wfs : t.wfs = { s.wfs with
    holds := heldOn s.wfs.holds
    job := s.wfs.job.filter fun j => decide (∀ h ∈ s.wfs.holds, h.seconds ≤ 1 → h.event ≠ j.event) }
  listenCount : t.lnk.listenCount = listenCountAfter s

theorem tickBlocks_ticked (s : State) :
    Ticked s (tickBlocks s) ∧ (tickBlocks s).lnk.radio = s.lnk.radio ∧
      (tickBlocks s).lnk.listening = listenJudgement (tickBlocks s) := by
  obtain ⟨-, sif, wfs, bmn, hzc, cmd, tables, det, evu, lnk⟩ := beside_fields (tmbTick_beside s)
  obtain ⟨q, e⟩ := wfsTick_eq (tmbTick s)
  obtain ⟨a, c, q', e'⟩ := aluTick_alerts (wfsTick (tmbTick s))
  rw [e] at e'
  have listenCount := congrArg Lnk.listenCount lnk
  have radio := congrArg Lnk.radio lnk
  dsimp only at listenCount radio
  rw [tickBlocks, e, e']
  refine ⟨⟨sif, bmn, hzc, cmd, tables, det, evu, ?_, ?_⟩, radio, rfl⟩
  · rw [← wfs]
    rfl
  · rw [listenCountAfter, ← listenCount, ← tables]
    rfl

/-- What follows at once leaves the same. -/
theorem Ticked.settle {n : Nat} (h : Ticked b t) : Ticked b (settle (t.withTmb fun t => { t with ns := t.ns + n })) := by
  have same := settle_butSwitching (t.withTmb fun t => { t with ns := t.ns + n })
  obtain ⟨-, -, -, sif, wfs, -, bmn, hzc, cmd, tables, -⟩ := butSwitching_fields same
  exact ⟨sif.trans h.sif, bmn.trans h.bmn, hzc.trans h.hzc, cmd.trans h.cmd, tables.trans h.tables,
    fun c => (butSwitching_det same c).trans (h.det c), (butSwitching_evu same).trans h.evu, wfs.trans h.wfs,
    (congrArg Lnk.listenCount (butSwitching_lnk same)).trans h.listenCount⟩

/-- The boundary leaves all of that. -/
theorem OnBoundary.ticked (h : OnBoundary s b) (k : Ticked b t) : Ticked s t := by
  have listenCount : listenCountAfter b = listenCountAfter s := by
    rw [listenCountAfter, listenCountAfter, h.tables, h.lnk.1]
  obtain ⟨sif, bmn, hzc, cmd, tables, det, evu, wfs, count⟩ := k
  rw [h.det] at det
  rw [h.evu] at evu
  rw [h.wfs] at wfs
  exact ⟨sif.trans h.sif, bmn.trans h.bmn, hzc.trans h.hzc, cmd.trans h.cmd, tables.trans h.tables, det, evu, wfs,
    count.trans listenCount⟩

/-- What the obligation names of it. -/
theorem Ticked.standing (h : Ticked s t) :
    t.wfs.segments = s.wfs.segments ∧ t.sif = s.sif ∧ t.bmn = s.bmn ∧ t.hzc = s.hzc ∧ t.cmd = s.cmd ∧ t.tables = s.tables ∧
      t.evu.phase = s.evu.phase ∧ t.evu.contrib = s.evu.contrib ∧
      ∀ c, (t.det.get c).sta = (s.det.get c).sta ∧ (t.det.get c).lta = (s.det.get c).lta ∧
        (t.det.get c).state = (s.det.get c).state := by
  have segments := congrArg Wfs.segments h.wfs
  have phase := congrArg Evu.phase h.evu
  have contrib := congrArg Evu.contrib h.evu
  refine ⟨segments, h.sif, h.bmn, h.hzc, h.cmd, h.tables, phase, contrib, fun c => ?_⟩
  have sta := congrArg Detector.sta (h.det c)
  have lta := congrArg Detector.lta (h.det c)
  have state := congrArg Detector.state (h.det c)
  exact ⟨sta, lta, state⟩

/-- Records stand with their numbers. -/
theorem Ticked.findRecord (h : Ticked s t) (n : Nat) : (findRecord t n).isSome = (findRecord s n).isSome := by
  have table : t.evu.table.map EventRecord.unblanked = s.evu.table.map EventRecord.unblanked := congrArg Evu.table h.evu
  have unblanked (u : State) : (Machine.findRecord u n).isSome =
      ((u.evu.table.map EventRecord.unblanked).find? (·.number == n)).isSome := by
    rw [List.find?_map, Option.isSome_map]
    rfl
  rw [unblanked, unblanked, table]

/-! ### Holds that end -/

/-- A hold in its last second is not among those that run on. -/
theorem Ticked.holdOf (h : Ticked s t) {n : Nat} (last : ∀ x ∈ s.wfs.holds, x.event = n → x.seconds ≤ 1) :
    holdOf t n = none := by
  refine List.find?_eq_none.mpr fun x hx e => ?_
  rw [h.wfs] at hx
  obtain ⟨y, hy, rfl⟩ := List.mem_map.mp hx
  obtain ⟨mem, long⟩ := List.mem_filter.mp hy
  have short := last y mem (by simpa using e)
  simp only [decide_eq_true_eq] at long
  omega

/-- The retrieval job on the event of a hold that ends is cancelled. -/
theorem Ticked.job (h : Ticked s t) {n : Nat} (some : (Machine.holdOf s n).isSome = true)
    (last : ∀ x ∈ s.wfs.holds, x.event = n → x.seconds ≤ 1) : ∀ j ∈ t.wfs.job, j.event ≠ n := by
  intro j hj e
  obtain ⟨x, hx⟩ := Option.isSome_iff_exists.mp some
  have event : x.event = n := by simpa using List.find?_some hx
  have mem := List.mem_of_find?_eq_some hx
  have job : t.wfs.job =
      s.wfs.job.filter fun j => decide (∀ h ∈ s.wfs.holds, h.seconds ≤ 1 → h.event ≠ j.event) := congrArg Wfs.job h.wfs
  rw [job] at hj
  have stays := of_decide_eq_true (Option.mem_filter_iff.mp hj).2
  exact stays x mem (last x mem event) (event.trans e.symm)

/-! ### The obligation -/

/-- A second tick, with every count of seconds. -/
theorem tick_counts (h : PlainTick s) :
    ∃ b past, OnBoundary s b ∧ secondTicks s = [b] ∧
      runSecond s = (tickBlocks b).withTmb (fun t => { t with ns := t.ns + past }) ∧
      Ticked s (settle (runSecond s)) ∧ (settle (runSecond s)).tmb.label = s.tmb.label + 1 := by
  obtain ⟨b, past, boundary, label, ticks, run⟩ := plainTick_boundary h
  refine ⟨b, past, boundary, ticks, run, ?_, ?_⟩
  · rw [run]
    exact boundary.ticked (tickBlocks_ticked b).1.settle
  · obtain ⟨-, -, -, -, -, -, hlabel, -⟩ := settled_quality (t := settle (runSecond s)) (congrArg settle run)
    rw [hlabel, (tick_standing b).2.2, label]

/-- Settles O16: the tick of a plain second by its stages. -/
theorem secondTickAdvancesCountsAndEndsHolds : Obligations.SecondTickAdvancesCountsAndEndsHolds := by
  refine ⟨fun s h => ?_, fun n s h some last => ?_, fun s h => ?_⟩
  · intro on onTime lockedTime released unlocks
    obtain ⟨b, past, boundary, ticks, run, ticked, label⟩ := tick_counts h
    obtain ⟨tq, err, edgeAge, -, -, -, counter, -, restartAge, -, freq, message⟩ := boundary.fields
    obtain ⟨counted, locked, -, grown, reload, releases⟩ := boundary.counted
    obtain ⟨-, age, restart⟩ := tickBlocks_standing b
    obtain ⟨tickFreq, tickMessage, -⟩ := tick_standing b
    obtain ⟨htq, herr, -, hcounter, hrestart, hage, -, hfreq, hmessage, -⟩ :=
      settled_quality (t := settle (runSecond s)) (congrArg settle run)
    have alu : (runSecond s).alu = (tickBlocks b).alu := by rw [run]; rfl
    have uTmb : (runSecond s).tmb.onTime = (tickBlocks b).tmb.onTime ∧
        (runSecond s).tmb.lockedTime = (tickBlocks b).tmb.lockedTime := by rw [run]; exact ⟨rfl, rfl⟩
    refine ⟨runSecond s, settle (runSecond s), stepOf_of_supply h.supply runSecond, rfl, fun kept => ?_, fun release => ?_,
      fun cls n station recheck long absent => ?_, ?_, label, ?_, ?_, ?_, ?_, fun holdover => ?_, fun unlocked => ?_,
      ticked.listenCount, congrArg Wfs.holds ticked.wfs, ticked.standing⟩
    · obtain ⟨tickOn, tickLocked, tickCounter, -⟩ := tick_of_kept (s := b) fun due => kept (releases.mp due)
      rw [tq, edgeAge, boundary.tables, locked] at tickLocked
      exact ⟨uTmb.1.trans (tickOn.trans counted), uTmb.2.trans tickLocked, hcounter.trans (tickCounter.trans (by rw [counter]))⟩
    · obtain ⟨tickOn, tickLocked, tickCounter, -⟩ := tick_of_release (s := b) (releases.mpr release)
      exact ⟨uTmb.1.trans tickOn, uTmb.2.trans tickLocked, hcounter.trans (tickCounter.trans reload)⟩
    · rw [alu]
      rw [← boundary.alu] at recheck
      exact tick_recheck station recheck long (by rw [classPending, boundary.alu]; exact absent)
    · intro raises room x mem sent long
      rw [alu]
      rw [← boundary.alu] at mem
      obtain ⟨y, hy, id, cls, order, state, wait, sends⟩ :=
        tick_waits (s := b) (by rw [boundary.alu]; exact room) mem sent long
      exact ⟨y, hy, id, cls, order, state.trans sent, wait, sends⟩
    · rw [hage, age, edgeAge]
    · rw [hrestart, restart, restartAge]
    · rw [hfreq, tickFreq, freq]
    · rw [hmessage, tickMessage, message]
    · rw [herr, (tick_of_holdover (s := b) (by rw [tq]; exact holdover)).1, grown]
    · obtain ⟨tickErr, tickTq⟩ := tick_of_unlocked (s := b) (by rw [tq]; exact unlocked)
      exact ⟨herr.trans (tickErr.trans err), htq.trans (tickTq.trans tq)⟩
  · obtain ⟨b, past, boundary, ticks, run, ticked, -⟩ := tick_counts h
    have before : (holdOf b n.toNat).isSome = true := by
      rw [holdOf, boundary.wfs]
      exact some
    have after : holdOf (tickBlocks b) n.toNat = none :=
      (tickBlocks_ticked b).1.holdOf (by rw [boundary.wfs]; exact last)
    refine ⟨settle (runSecond s), ?_, ticked.holdOf last, congrArg Wfs.holds ticked.wfs, ticked.findRecord n.toNat,
      ticked.job some last⟩
    refine (stepTickIf_of_plain h.supply ticks ?_ : execHoldExpiry n s = _)
    rw [before, after]
    rfl
  · obtain ⟨b, past, boundary, ticks, run, -, -⟩ := tick_counts h
    obtain ⟨ticked, radio, listening⟩ := tickBlocks_ticked b
    have lnk : (runSecond s).lnk = (tickBlocks b).lnk := by rw [run]; rfl
    have count : (tickBlocks b).lnk.listenCount = listenCountAfter s := (boundary.ticked ticked).listenCount
    have station : (tickBlocks b).tables.station = s.tables.station := by rw [ticked.tables, boundary.tables]
    have level (l : ShedLevel) : (tickBlocks b).atLevel l = s.atLevel l := by
      rw [State.atLevel, State.atLevel, ticked.bmn, boundary.bmn]
    refine ⟨fun period window => ⟨runSecond s, ?_, ?_, ?_⟩, fun reached within warming ready => ⟨runSecond s, ?_, ?_, ?_⟩⟩
    · refine (stepTickIf_of_plain h.supply ticks ?_ : execListenPeriod s = _)
      rw [count, listenCountAfter, if_pos period]
      rfl
    · rw [lnk, count, listenCountAfter, if_pos period]
    · have first : decide ((tickBlocks b).lnk.listenCount < (tickBlocks b).tables.station.listenWindow) = true := by
        rw [count, listenCountAfter, if_pos period, station]
        exact decide_eq_true window
      rw [lnk, listening, listenJudgement, first]
      simp
    · refine (stepTickIf_of_plain h.supply ticks ?_ : execListenWindowEnd s = _)
      rw [count, listenCountAfter, if_neg (by omega), boundary.tables, boundary.lnk.1]
      exact decide_eq_true ⟨by omega, by omega⟩
    · rw [lnk, count, listenCountAfter, if_neg (by omega), reached]
    · have past : decide ((tickBlocks b).lnk.listenCount < (tickBlocks b).tables.station.listenWindow) = false := by
        rw [count, listenCountAfter, if_neg (by omega), station]
        exact decide_eq_false (by omega)
      have radio' := radio.trans boundary.lnk.2
      rw [lnk, listening, listenJudgement, past, radio', level, level]
      cases s.atLevel .essential <;> cases s.atLevel .survival <;> simp [warming, ready]

end Sys2Proof.Machine
end

section
/-!
SUPPORT. Station time and the correction entries at a boundary (R13, R18, R29 to R32): the view `State.clock` and what each
operation of a crossing makes of it.
-/

namespace Sys2Proof.Machine

open Config (second)

variable {s t : State} {i : Fin 3}

/-! ### The view -/

/-- Station time, the inserted seconds, the counts that a tick moves, the correction entries and K39. -/
structure Clock where
  label : Nat
  ns : Nat
  slew : Option Slew
  stepMark : Bool
  marks : List Nat
  repeating : Bool
  suspension : Option Nat
  restartAge : Nat
  edgeAge : Nat
  entries : Three CorrectionEntry
  steps : BitVec 32

/-- What the state has of it. -/
def State.clock (s : State) : Clock where
  label := s.tmb.label
  ns := s.tmb.ns
  slew := s.tmb.slew
  stepMark := s.tmb.stepMark
  marks := s.tmb.marks
  repeating := s.tmb.repeating
  suspension := s.tmb.suspension
  restartAge := s.tmb.restartAge
  edgeAge := s.tmb.edgeAge
  entries := s.tables.correction
  steps := s.cnt[(39 : Fin 40)]

/-- A tick (R13). -/
def Clock.tick (c : Clock) : Clock :=
  { c with restartAge := min 601 (c.restartAge + 1), edgeAge := min 65535 (c.edgeAge + 1) }

/-- An entry is FIRED and counts (R29). -/
def Clock.fire (i : Fin 3) (c : Clock) : Clock :=
  { c with entries := c.entries.set i { c.entries.get i with status := .fired }, steps := c.steps + 1 }

/-- A step's landing (R18, R30). -/
def Clock.land (label ns : Nat) (c : Clock) : Clock :=
  { c with
    label := label, ns := ns, slew := none, stepMark := true
    marks := c.marks.filter fun l => decide (label ≤ l), repeating := c.repeating && c.label == label }

/-- A fired INSERT's mark (R30). -/
def Clock.mark (label : Nat) (c : Clock) : Clock :=
  { c with
    marks := if c.marks.contains label then c.marks else c.marks ++ [label]
    repeating := c.repeating && c.label != label, suspension := some 3 }

/-- The entry is ARMED with this target (R29). -/
def Clock.due (c : Clock) (target : Nat) (i : Fin 3) : Prop :=
  (c.entries.get i).status = .armed ∧ (c.entries.get i).target = target

theorem stillDue_iff (s : State) (target : Nat) (i : Fin 3) : stillDue s target i = true ↔ s.clock.due target i := by
  simp [stillDue, Clock.due, State.clock]

theorem stillDue_eq_false (h : ¬s.clock.due target i) : stillDue s target i = false := by
  rw [← Bool.not_eq_true, stillDue_iff]
  exact h

/-! ### The operations -/

@[simp] theorem clock_tickBlocks (s : State) : (tickBlocks s).clock = s.clock.tick := by
  obtain ⟨stands, edge, restart⟩ := tickBlocks_standing s
  obtain ⟨label, ns, -, slew, mark, -, -, marks, repeating, suspension, -⟩ := standing_fields stands
  simp only [State.clock, Clock.tick, label, ns, slew, mark, marks, repeating, suspension, edge, restart,
    (tickBlocks_ticked s).1.tables, tickBlocks_counter 39 s]

theorem clock_fired (i : Fin 3) (s : State) : (count 39 (endEntry i .fired s)).clock = s.clock.fire i := by
  have counter := count_getElem 39 39 (endEntry i .fired s)
  rw [if_pos rfl, endEntry_cnt] at counter
  have entries : (endEntry i .fired s).tables.correction =
      s.tables.correction.set i { s.tables.correction.get i with status := .fired } := by
    obtain ⟨q, e⟩ := endEntry_eq i .fired s
    rw [e]
  simp only [State.clock, Clock.fire, counter, count_tmb, count_tables, endEntry_tmb, entries]

@[simp] theorem clock_landAt (label ns period : Nat) (s : State) :
    (s.withTmb (Tmb.landAt label ns period)).clock = s.clock.land label ns := rfl

@[simp] theorem clock_markSecond (label : Nat) (s : State) :
    (s.withTmb (Tmb.markSecond label)).clock = s.clock.mark label := rfl

theorem clock_withNs (n : Nat) (s : State) :
    (s.withTmb fun t => { t with ns := t.ns + n }).clock = { s.clock with ns := s.clock.ns + n } := rfl

theorem clock_settle (s : State) : (settle s).clock = s.clock := by
  obtain ⟨g, o, l, e, -⟩ := settle_tmb s
  obtain ⟨-, -, -, -, -, -, -, tables⟩ := settle_fields s
  simp only [State.clock, e, tables, settle_counter 39 s]

/-- A step that passes over no ARMED entry. -/
theorem stepOver_of_none_passed {label ns : Nat}
    (h : ∀ i, ¬PassedOver (sinceEpoch s.tmb.label s.tmb.ns) (sinceEpoch label ns) (s.entry i)) :
    stepOver label ns s = s.withTmb (Tmb.landAt label ns s.periodNs) := by
  have landed (i : Fin 3) :
      missOne (sinceEpoch s.tmb.label s.tmb.ns) (sinceEpoch label ns) i (s.withTmb (Tmb.landAt label ns s.periodNs)) =
        s.withTmb (Tmb.landAt label ns s.periodNs) := if_neg (h i)
  simp only [stepOver, List.foldl_cons, List.foldl_nil, landed]

/-- No ARMED entry's target lies between a boundary and a station time. -/
def Clock.Free (c : Clock) (label ns : Nat) : Prop :=
  ∀ i, (c.entries.get i).status = .armed →
    (c.entries.get i).target ≤ c.label ∨ label * second + ns ≤ (c.entries.get i).target * second

theorem clock_stepOver {label ns : Nat} (zero : s.clock.ns = 0) (hns : ns < second) (h : s.clock.Free label ns) :
    (stepOver label ns s).clock = s.clock.land label ns := by
  rw [stepOver_of_none_passed, clock_landAt]
  rintro i ⟨armed, above, below⟩
  have zero' : s.tmb.ns = 0 := zero
  have clear : (s.entry i).target ≤ s.tmb.label ∨ label * second + ns ≤ (s.entry i).target * second := h i armed
  simp only [sinceEpoch, zero', Config.second] at above below clear hns
  omega

/-! ### A firing -/

theorem fireNext_of_due {land : Bool → State → State} {target : Nat} {x : Nat × State} (h : x.2.clock.due target i) :
    fireNext land target x i =
      (enteredAfter x.1 (fireOne land x.1 i x.2), fireOne land x.1 i x.2) := by
  rw [fireNext, if_pos ((stillDue_iff _ _ _).mpr h)]

theorem fireNext_of_not_due {land : Bool → State → State} {target : Nat} {x : Nat × State} (h : ¬x.2.clock.due target i) :
    fireNext land target x i = x := by
  rw [fireNext, if_neg fun due => h ((stillDue_iff _ _ _).mp due)]

/-- The one entry that is due fires (R29). -/
theorem fireDue_of_one {land : Bool → State → State} {target : Nat} (due : s.clock.due target i)
    (before : ∀ j, j ≠ i → ¬s.clock.due target j)
    (after : ∀ j, j ≠ i → ¬(fireOne land target i s).clock.due target j) :
    fireDue land target s = fireOne land target i s := by
  simp only [fireDue, List.foldl_cons, List.foldl_nil]
  match i with
  | 0 =>
    have late (j : Fin 3) (hj : j ≠ 0) := fireNext_of_not_due (land := land)
      (x := (enteredAfter target (fireOne land target 0 s), fireOne land target 0 s)) (after j hj)
    rw [fireNext_of_due (x := (target, s)) due, late 1 (by decide), late 2 (by decide)]
  | 1 =>
    have late := fireNext_of_not_due (land := land)
      (x := (enteredAfter target (fireOne land target 1 s), fireOne land target 1 s)) (after 2 (by decide))
    rw [fireNext_of_not_due (x := (target, s)) (before 0 (by decide)), fireNext_of_due (x := (target, s)) due, late]
  | 2 =>
    rw [fireNext_of_not_due (x := (target, s)) (before 0 (by decide)), fireNext_of_not_due (x := (target, s)) (before 1 (by decide)),
      fireNext_of_due (x := (target, s)) due]

theorem crossBoundary_of_no_due (d : Nat) (ticks : Bool) (h : ∀ i, ¬s.clock.due s.clock.label i) :
    crossBoundary d ticks s = if ticks then tickBlocks s else s := by
  cases d with
  | zero => rfl
  | succ d =>
    rw [crossBoundary, fireDue_of_none_due fun i => stillDue_eq_false (target := s.tmb.label) (h i)]

/-- The kind of an entry that fires, and what the firing makes of the state (R31). -/
theorem fireOne_insert (land : Bool → State → State) (entered : Nat) (h : (s.clock.entries.get i).kind = .insert) :
    (fireOne land entered i s).clock = (s.clock.fire i).mark entered := by
  have kind : (s.tables.correction.get i).kind = .insert := h
  unfold fireOne
  dsimp only
  rw [kind]
  dsimp only
  rw [clock_markSecond, clock_fired]

theorem fireOne_none (land : Bool → State → State) (entered : Nat) (h : (s.clock.entries.get i).kind = .none) :
    (fireOne land entered i s).clock = s.clock.fire i := by
  have kind : (s.tables.correction.get i).kind = .none := h
  unfold fireOne
  dsimp only
  rw [kind]
  exact clock_fired i s

/-- A fired DELETE: station time moves on by one second, without a tick of its own. -/
theorem fireOne_delete (land : Bool → State → State) (entered : Nat) (h : (s.clock.entries.get i).kind = .delete)
    (zero : s.clock.ns = 0) (range : s.clock.label < Config.maxLabel) (free : (s.clock.fire i).Free (s.clock.label + 1) 0) :
    ∃ u, u.clock = (s.clock.fire i).land (s.clock.label + 1) 0 ∧ fireOne land entered i s = land false u := by
  have kind : (s.tables.correction.get i).kind = .delete := h
  have fired := clock_fired i s
  unfold fireOne
  dsimp only
  rw [kind]
  dsimp only
  generalize count 39 (endEntry i .fired s) = v at fired
  have label : v.tmb.label = s.clock.label := congrArg Clock.label fired
  have ns : v.tmb.ns = 0 := (congrArg Clock.ns fired).trans zero
  rw [fireDelete_cases, if_pos ns, label, ns, Nat.min_eq_right range]
  refine ⟨_, ?_, rfl⟩
  rw [clock_stepOver ns (by decide) (fired ▸ free), fired]

/-- Station time after a fired STEP, in ns since the epoch (R31). -/
def Clock.stepped (c : Clock) (ms : Int) : Nat := clampTotal ((c.label * second + c.ns : Nat) + ms * 1000000)

/-- A fired STEP: station time moves by its amount, with a tick of its own where it lands on a boundary. -/
theorem fireOne_step (land : Bool → State → State) (entered : Nat) (h : (s.clock.entries.get i).kind = .step)
    (moves : (s.clock.entries.get i).amount ≠ 0) (zero : s.clock.ns = 0) {n : Nat}
    (hn : s.clock.stepped (s.clock.entries.get i).amount = n) (free : (s.clock.fire i).Free (n / second) (n % second)) :
    ∃ u, u.clock = (s.clock.fire i).land (n / second) (n % second) ∧
      fireOne land entered i s = if n % second = 0 then land true u else u := by
  have kind : (s.tables.correction.get i).kind = .step := h
  have amount : (s.tables.correction.get i).amount ≠ 0 := moves
  have fired := clock_fired i s
  unfold fireOne
  dsimp only
  rw [kind]
  dsimp only
  generalize count 39 (endEntry i .fired s) = v at fired
  have label : v.tmb.label = s.clock.label := congrArg Clock.label fired
  have ns : v.tmb.ns = s.clock.ns := congrArg Clock.ns fired
  have total : clampTotal ((v.tmb.label * second + v.tmb.ns : Nat) + (s.tables.correction.get i).amount * 1000000) = n := by
    rw [label, ns]
    exact hn
  unfold fireStep
  rw [if_neg amount]
  dsimp only
  rw [total]
  refine ⟨_, ?_, rfl⟩
  rw [clock_stepOver (ns.trans zero) (Nat.mod_lt _ (by decide)) (fired ▸ free), fired]

/-- A fired STEP of 0 ms moves nothing and is still a step. -/
theorem fireOne_step_zero (land : Bool → State → State) (entered : Nat) (h : (s.clock.entries.get i).kind = .step)
    (still : (s.clock.entries.get i).amount = 0) :
    (fireOne land entered i s).clock = { s.clock.fire i with slew := none, stepMark := true } := by
  have kind : (s.tables.correction.get i).kind = .step := h
  have amount : (s.tables.correction.get i).amount = 0 := still
  unfold fireOne
  dsimp only
  rw [kind]
  dsimp only
  rw [fireStep, if_pos amount, ← clock_fired]
  rfl

/-- A STEP of whole seconds from a boundary. -/
theorem stepped_of_seconds {c : Clock} (zero : c.ns = 0) {label : Nat} {ms : Int}
    (h : (c.label : Int) * 1000 + ms = label * 1000) (range : label ≤ Config.maxLabel) : c.stepped ms = label * second := by
  simp only [Clock.stepped, zero, clampTotal, Config.second, Config.maxLabel] at *
  omega

/-! ### The boundary that a second's end crosses -/

/-- No entry is ARMED. -/
def Clock.Idle (c : Clock) : Prop := ∀ i, (c.entries.get i).status ≠ .armed

theorem Clock.Idle.free {c : Clock} (h : c.Idle) (label ns : Nat) : c.Free label ns := fun i hi => absurd hi (h i)

theorem Clock.Idle.not_due {c : Clock} (h : c.Idle) (target : Nat) (i : Fin 3) : ¬c.due target i := fun due => h i due.1

theorem Clock.fire_entry (c : Clock) (i j : Fin 3) :
    (c.fire i).entries.get j = if j = i then { c.entries.get i with status := .fired } else c.entries.get j := by
  rw [Clock.fire, Three.get_set]

/-- The state on the boundary at the end of a second that is not run again. -/
theorem onBoundary_clock (once : s.tmb.inFirstRun = false) (range : s.tmb.label < Config.maxLabel) :
    ∃ b w, b.clock =
        { s.clock with
          label := s.tmb.label + 1, ns := 0, slew := w
          marks := s.tmb.marks.filter fun l => decide (s.tmb.label + 1 ≤ l), repeating := false } ∧
      b.supply = s.supply ∧
      runSecond s = (enterBoundary b).withTmb fun t => { t with ns := t.ns + ((runToStation second s).tmb.ns - second) } := by
  obtain ⟨hlabel, hmarks, hrep, htables⟩ := runToStation_tmb s
  have once' : (runToStation second s).tmb.inFirstRun = false := by
    rw [Tmb.inFirstRun, hlabel, hmarks, hrep]
    exact once
  have wraps : (runToStation second s).tmb.wrapsSilently = false := by
    simp only [Tmb.wrapsSilently, once', hlabel, Bool.not_false, Bool.true_and, decide_eq_false_iff_not]
    exact Nat.not_le.mpr range
  have boundary := runToStation_onBoundary s
  refine ⟨onNextBoundary (runToStation second s), (runToStation second s).tmb.slew, ?_, boundary.supply, ?_⟩
  · obtain ⟨label, ns, r, w, m, rep, next, e⟩ := boundary.tmb
    have stepMark := congrArg Tmb.stepMark e
    have suspension := congrArg Tmb.suspension e
    have restartAge := congrArg Tmb.restartAge e
    have edgeAge := congrArg Tmb.edgeAge e
    have nextSecond : (onNextBoundary (runToStation second s)).tmb.label = s.tmb.label + 1 ∧
        (onNextBoundary (runToStation second s)).tmb.marks = s.tmb.marks.filter (fun l => decide (s.tmb.label + 1 ≤ l)) ∧
        (onNextBoundary (runToStation second s)).tmb.repeating = false ∧
        (onNextBoundary (runToStation second s)).tmb.slew = (runToStation second s).tmb.slew := by
      rw [onNextBoundary, State.withTmb_tmb, Tmb.nextSecond_of_not_firstRun once', ← hlabel, ← hmarks]
      exact ⟨rfl, rfl, rfl, rfl⟩
    obtain ⟨label, marks, repeating, slew⟩ := nextSecond
    simp only [State.clock, label, marks, repeating, slew, stepMark, suspension, restartAge, edgeAge, boundary.tables,
      boundary.cnt]
    rfl
  · unfold runSecond secondBoundary
    dsimp only
    rw [wraps, once']
    rfl

/-- The crossing of a boundary at which one entry fires. -/
theorem enterBoundary_of_one (due : s.clock.due s.clock.label i) (before : ∀ j, j ≠ i → ¬s.clock.due s.clock.label j)
    (after : (fireOne (crossBoundary 3) s.clock.label i s).clock.entries = (s.clock.fire i).entries) :
    (enterBoundary s).clock = (fireOne (crossBoundary 3) s.clock.label i s).clock.tick := by
  have one : fireDue (crossBoundary 3) s.tmb.label s = fireOne (crossBoundary 3) s.clock.label i s := by
    refine fireDue_of_one due before fun j hj hdue => before j hj ?_
    have entry : (fireOne (crossBoundary 3) s.tmb.label i s).clock.entries.get j = s.clock.entries.get j := by
      refine (congrArg (fun v => v.get j) after).trans ?_
      rw [Clock.fire_entry, if_neg hj]
    rw [Clock.due, entry] at hdue
    exact hdue
  rw [enterBoundary, crossBoundary, one]
  exact clock_tickBlocks _

end Sys2Proof.Machine
end

section
/-!
PROOF. Correction entries that fire at the boundary a second's end crosses, inserted seconds, and steps over targets (R29 to R32): O19.
-/

namespace Sys2Proof.Machine

open Config (second)

variable {s b t : State} {i j : Fin 3}

/-! ### One entry fires -/

/-- The firing of an entry that leaves no other ARMED. -/
theorem fireOne_alone (idle : (s.clock.fire i).Idle) (zero : s.clock.ns = 0) (range : s.clock.label < Config.maxLabel) :
    ((s.clock.entries.get i).kind = .none →
        (fireOne (crossBoundary 3) s.clock.label i s).clock = s.clock.fire i) ∧
      ((s.clock.entries.get i).kind = .insert →
        (fireOne (crossBoundary 3) s.clock.label i s).clock = (s.clock.fire i).mark s.clock.label) ∧
      ((s.clock.entries.get i).kind = .delete →
        (fireOne (crossBoundary 3) s.clock.label i s).clock = (s.clock.fire i).land (s.clock.label + 1) 0) ∧
      ((s.clock.entries.get i).kind = .step → (s.clock.entries.get i).amount = 0 →
        (fireOne (crossBoundary 3) s.clock.label i s).clock = { s.clock.fire i with slew := none, stepMark := true }) ∧
      ∀ n, (s.clock.entries.get i).kind = .step → (s.clock.entries.get i).amount ≠ 0 →
        s.clock.stepped (s.clock.entries.get i).amount = n →
        (fireOne (crossBoundary 3) s.clock.label i s).clock =
          if n % second = 0 then ((s.clock.fire i).land (n / second) (n % second)).tick
          else (s.clock.fire i).land (n / second) (n % second) := by
  have quiet {u : State} {label ns : Nat} (hu : u.clock = (s.clock.fire i).land label ns) (k : Fin 3) :
      ¬u.clock.due u.clock.label k := by
    rw [hu]
    exact fun due => idle k due.1
  refine ⟨fireOne_none _ _, fireOne_insert _ _, fun kind => ?_, fireOne_step_zero _ _, fun n kind moves hn => ?_⟩
  · obtain ⟨u, hu, e⟩ := fireOne_delete (crossBoundary 3) s.clock.label kind zero range (idle.free _ _)
    rw [e, crossBoundary_of_no_due 3 false (quiet hu)]
    exact hu
  · obtain ⟨u, hu, e⟩ := fireOne_step (crossBoundary 3) s.clock.label kind moves zero hn (idle.free _ _)
    rw [e]
    split
    · rw [crossBoundary_of_no_due 3 true (quiet hu), if_pos rfl, clock_tickBlocks, hu]
    · exact hu

/-- Such a firing changes that entry's status and counts once, whatever its kind. -/
theorem fireOne_alone_entries (idle : (s.clock.fire i).Idle) (zero : s.clock.ns = 0)
    (range : s.clock.label < Config.maxLabel) :
    (fireOne (crossBoundary 3) s.clock.label i s).clock.entries = (s.clock.fire i).entries ∧
      (fireOne (crossBoundary 3) s.clock.label i s).clock.steps = (s.clock.fire i).steps := by
  obtain ⟨none, insert, delete, still, moves⟩ := fireOne_alone idle zero range
  cases kind : (s.clock.entries.get i).kind with
  | none => rw [none kind]; exact ⟨rfl, rfl⟩
  | insert => rw [insert kind]; exact ⟨rfl, rfl⟩
  | delete => rw [delete kind]; exact ⟨rfl, rfl⟩
  | step =>
    by_cases amount : (s.clock.entries.get i).amount = 0
    · rw [still kind amount]; exact ⟨rfl, rfl⟩
    · rw [moves _ kind amount rfl]
      split <;> exact ⟨rfl, rfl⟩

/-- SECOND_TICK at the end of a second that is not run again. -/
theorem secondTick_clock (on : s.supply = .on) (once : s.tmb.inFirstRun = false) (range : s.tmb.label < Config.maxLabel) :
    ∃ b w, b.clock =
        { s.clock with
          label := s.tmb.label + 1, ns := 0, slew := w
          marks := s.tmb.marks.filter fun l => decide (s.tmb.label + 1 ≤ l), repeating := false } ∧
      exec .secondTick s = .next (settle (runSecond s)) ∧
      (settle (runSecond s)).clock =
        { (enterBoundary b).clock with
          ns := (enterBoundary b).clock.ns + ((runToStation second s).tmb.ns - second) } := by
  obtain ⟨b, w, hb, -, run⟩ := onBoundary_clock once range
  refine ⟨b, w, hb, stepOf_of_supply on runSecond, ?_⟩
  rw [clock_settle, run, clock_withNs]

/-- The marked seconds after an INSERT (R30). -/
theorem Clock.mem_mark (n l : Nat) (c : Clock) : l ∈ (c.mark n).marks ↔ l = n ∨ l ∈ c.marks :=
  Tmb.mem_marks_markSecond n l { Cold.tmb with marks := c.marks }

/-- Where a STEP within its range takes station time from a boundary (R31). -/
theorem stepped_cases {c : Clock} {label : Nat} {ms : Int} (zero : c.ns = 0) (hlabel : c.label = label + 1)
    (range : label + 2 ≤ Config.maxLabel) (low : -1000 ≤ ms) (high : ms ≤ 1000) :
    (c.stepped ms / second, c.stepped ms % second) =
      if ms = 1000 then (label + 2, 0)
      else if 0 ≤ ms then (label + 1, ms.toNat * 1000000)
      else (label, (1000 + ms).toNat * 1000000) := by
  have total : c.stepped ms = (label * 1000 + (1000 + ms).toNat) * 1000000 := by
    simp only [Clock.stepped, zero, hlabel, clampTotal, Config.second, Config.maxLabel] at range ⊢
    omega
  rw [total]
  unfold Config.second
  split
  · ext <;> simp only <;> omega
  · split <;> ext <;> simp only <;> omega

/-- One ARMED entry at the boundary (R29, R31). -/
theorem one_entry_fires (h : FiringTick i s) :
    let e := s.tables.correction.get i
    let past := (runToStation Config.second s).tmb.ns - Config.second
    ∃ t, exec .secondTick s = .next t ∧
      t.tables.correction.get i = { e with status := .fired } ∧
      (∀ j, j ≠ i → t.tables.correction.get j = s.tables.correction.get j) ∧ t.cnt[39] = s.cnt[39] + 1 ∧
      (e.kind = .insert →
        t.tmb.label = s.tmb.label + 1 ∧ t.tmb.repeating = false ∧ t.tmb.suspension = some 3 ∧
          (∀ l, l ∈ t.tmb.marks ↔ l = s.tmb.label + 1 ∨ (l ∈ s.tmb.marks ∧ s.tmb.label + 1 ≤ l)) ∧
          t.tmb.stepMark = s.tmb.stepMark ∧ t.tmb.restartAge = min 601 (s.tmb.restartAge + 1)) ∧
      (e.kind = .delete →
        t.tmb.label = s.tmb.label + 2 ∧ t.tmb.ns = past ∧ t.tmb.slew = none ∧ t.tmb.stepMark = true ∧
          t.tmb.restartAge = min 601 (s.tmb.restartAge + 1)) ∧
      (e.kind = .step → -1000 ≤ e.amount → e.amount ≤ 1000 →
        t.tmb.slew = none ∧ t.tmb.stepMark = true ∧
          (t.tmb.label, t.tmb.ns) =
            (if e.amount = 1000 then (s.tmb.label + 2, past)
             else if 0 ≤ e.amount then (s.tmb.label + 1, e.amount.toNat * 1000000 + past)
             else (s.tmb.label, (1000 + e.amount).toNat * 1000000 + past)) ∧
          t.tmb.restartAge = min 601 (s.tmb.restartAge + if e.amount = 1000 ∨ e.amount = -1000 then 2 else 1)) := by
  intro e past
  have range : s.tmb.label + 1 < Config.maxLabel := h.label
  obtain ⟨b, w, hb, step, hclock⟩ := secondTick_clock h.supply h.once (by omega)
  rw [show (runToStation second s).tmb.ns - second = past from rfl] at hclock
  clear_value past
  have entries : b.clock.entries = s.tables.correction := by rw [hb]; rfl
  have entry : b.clock.entries.get i = e := by rw [entries]
  have label : b.clock.label = s.tmb.label + 1 := by rw [hb]
  have zero : b.clock.ns = 0 := by rw [hb]
  have idle : (b.clock.fire i).Idle := by
    intro j
    rw [Clock.fire_entry]
    split
    · simp
    · next ne =>
      rw [entries]
      exact h.alone j ne
  have range' : b.clock.label < Config.maxLabel := label ▸ range
  have due : b.clock.due b.clock.label i := by
    rw [Clock.due, entry, label]
    exact ⟨h.armed, h.target⟩
  obtain ⟨firedEntries, firedSteps⟩ := fireOne_alone_entries idle zero range'
  obtain ⟨-, insert, delete, still, moves⟩ := fireOne_alone idle zero range'
  have crossed := enterBoundary_of_one due
    (fun j ne due => by
      rw [Clock.due, entries] at due
      exact h.alone j ne due.1) firedEntries
  rw [entry] at insert delete still moves
  rw [crossed] at hclock
  generalize (fireOne (crossBoundary 3) b.clock.label i b).clock = f at hclock firedEntries firedSteps insert delete still moves
  generalize settle (runSecond s) = t at hclock step
  have field {α : Type} (g : Clock → α) := congrArg g hclock
  have tEntries : t.tables.correction = (b.clock.fire i).entries := (field Clock.entries).trans firedEntries
  refine ⟨t, step, ?_, fun j ne => ?_, ?_, fun kind => ?_, fun kind => ?_, fun kind low high => ?_⟩
  · rw [tEntries, Clock.fire_entry, if_pos rfl, entry]
  · rw [tEntries, Clock.fire_entry, if_neg ne, entries]
  · have start : b.clock.steps = s.cnt[39] := by rw [hb]; rfl
    exact (field Clock.steps).trans (firedSteps.trans (congrArg (· + 1) start))
  · rw [insert kind, hb] at hclock
    refine ⟨congrArg Clock.label hclock, congrArg Clock.repeating hclock, congrArg Clock.suspension hclock, fun l => ?_,
      congrArg Clock.stepMark hclock, congrArg Clock.restartAge hclock⟩
    have marks := congrArg Clock.marks hclock
    refine (iff_of_eq (congrArg (l ∈ ·) marks)).trans ((Clock.mem_mark _ l _).trans ?_)
    simp [Clock.fire]
  · rw [delete kind, hb] at hclock
    have ns : t.tmb.ns = 0 + past := congrArg Clock.ns hclock
    exact ⟨congrArg Clock.label hclock, ns.trans (Nat.zero_add _), congrArg Clock.slew hclock, congrArg Clock.stepMark hclock,
      congrArg Clock.restartAge hclock⟩
  · by_cases zeroStep : e.amount = 0
    · rw [still kind zeroStep, hb] at hclock
      refine ⟨congrArg Clock.slew hclock, congrArg Clock.stepMark hclock, ?_, ?_⟩
      · have at0 : (t.tmb.label, t.tmb.ns) = (s.tmb.label + 1, 0 + past) :=
          Prod.ext (congrArg Clock.label hclock) (congrArg Clock.ns hclock)
        rw [at0, zeroStep]
        rfl
      · rw [zeroStep]
        exact congrArg Clock.restartAge hclock
    · have lands := stepped_cases (ms := e.amount) zero label h.label low high
      have age : b.clock.restartAge = s.tmb.restartAge := by rw [hb]; rfl
      have place : (t.tmb.label, t.tmb.ns) = (b.clock.stepped e.amount / second, b.clock.stepped e.amount % second + past) ∧
          t.tmb.slew = none ∧ t.tmb.stepMark = true ∧ t.tmb.restartAge =
            if b.clock.stepped e.amount % second = 0 then min 601 (min 601 (s.tmb.restartAge + 1) + 1)
            else min 601 (s.tmb.restartAge + 1) := by
        rw [moves _ kind zeroStep rfl] at hclock
        generalize b.clock.stepped e.amount = n at hclock
        rw [← age]
        by_cases lands : n % second = 0
        · rw [if_pos lands] at hclock ⊢
          exact ⟨Prod.ext (congrArg Clock.label hclock) (congrArg Clock.ns hclock), congrArg Clock.slew hclock,
            congrArg Clock.stepMark hclock, congrArg Clock.restartAge hclock⟩
        · rw [if_neg lands] at hclock ⊢
          exact ⟨Prod.ext (congrArg Clock.label hclock) (congrArg Clock.ns hclock), congrArg Clock.slew hclock,
            congrArg Clock.stepMark hclock, congrArg Clock.restartAge hclock⟩
      obtain ⟨time, slew, mark, restart⟩ := place
      rw [time, slew, mark, restart]
      generalize b.clock.stepped e.amount = n at lands
      have quotient := congrArg Prod.fst lands
      have rest := congrArg Prod.snd lands
      simp only at quotient rest
      rw [quotient, rest]
      by_cases plus : e.amount = 1000
      · simp [plus]
        omega
      · by_cases minus : e.amount = -1000
        · simp [minus]
          omega
        · have inside : ¬(e.amount = 1000 ∨ e.amount = -1000) := by simp [plus, minus]
          rw [if_neg plus, if_neg plus, if_neg inside]
          by_cases up : 0 ≤ e.amount
          · have moved : e.amount.toNat * 1000000 ≠ 0 := by omega
            rw [if_pos up, if_pos up, if_neg moved]
            exact ⟨rfl, rfl, rfl, rfl⟩
          · have moved : (1000 + e.amount).toNat * 1000000 ≠ 0 := by omega
            rw [if_neg up, if_neg up, if_neg moved]
            exact ⟨rfl, rfl, rfl, rfl⟩

/-! ### Several entries fire -/

/-- A landing at which nothing is due, by its clock. -/
theorem crossBoundary_idle_clock (d : Nat) (ticks : Bool) {u : State} (h : ∀ k, ¬u.clock.due u.clock.label k) :
    (crossBoundary d ticks u).clock = if ticks then u.clock.tick else u.clock := by
  rw [crossBoundary_of_no_due d ticks h]
  split
  · exact clock_tickBlocks u
  · rfl

/-- The crossing by what is due at it: the clock after the firings, and the tick. -/
theorem enterBoundary_clock (s : State) : (enterBoundary s).clock = (fireDue (crossBoundary 3) s.clock.label s).clock.tick :=
  clock_tickBlocks _

theorem once_of_noInserted (h : NoInserted s.tmb) : s.tmb.inFirstRun = false := by
  simp [Tmb.inFirstRun, h.1]

/-- The clock on the boundary where no second is marked. -/
theorem boundary_of_noInserted (on : s.supply = .on) (none : NoInserted s.tmb) (range : s.tmb.label < Config.maxLabel) :
    ∃ b w, b.clock = { s.clock with label := s.tmb.label + 1, ns := 0, slew := w, marks := [], repeating := false } ∧
      exec .secondTick s = .next (settle (runSecond s)) ∧
      ∃ p, (settle (runSecond s)).clock = { (enterBoundary b).clock with ns := p } := by
  obtain ⟨b, w, hb, step, hclock⟩ := secondTick_clock on (once_of_noInserted none) range
  rw [none.1] at hb
  exact ⟨b, w, hb, step, _, hclock⟩

/-- The entries that are ARMED. -/
def Clock.armed (c : Clock) (k : Fin 3) : Prop := (c.entries.get k).status = .armed

/-- A firing leaves the other entries, and no ARMED one but they. -/
theorem Clock.armed_of_fire {c : Clock} {k : Fin 3} (h : (c.fire i).armed k) :
    k ≠ i ∧ c.armed k ∧ (c.fire i).entries.get k = c.entries.get k := by
  have entry := c.fire_entry i k
  unfold Clock.armed at h
  by_cases e : k = i
  · rw [entry, if_pos e] at h
    cases h
  · rw [if_neg e] at entry
    refine ⟨e, ?_, entry⟩
    rw [Clock.armed, ← entry]
    exact h

/-- Two entries that are due fire in entry order (R29). -/
theorem fireDue_of_two {land : Bool → State → State} {target : Nat} {u v : State} (lt : i < j) (due : s.clock.due target i)
    (hu : fireOne land target i s = u) (due' : u.clock.due target j) (hv : fireOne land (enteredAfter target u) j u = v)
    (others : ∀ x : State, x = s ∨ x = u ∨ x = v → ∀ k, k ≠ i → k ≠ j → ¬x.clock.due target k) :
    fireDue land target s = v := by
  have first : fireNext land target (target, s) i = (enteredAfter target u, u) := by
    rw [fireNext_of_due (x := (target, s)) due, hu]
  have second : fireNext land target (enteredAfter target u, u) j = (enteredAfter (enteredAfter target u) v, v) := by
    rw [fireNext_of_due (x := (enteredAfter target u, u)) due', hv]
  have skip (n : Nat) (x : State) (hx : x = s ∨ x = u ∨ x = v) (k : Fin 3) (ki : k ≠ i) (kj : k ≠ j) :
      fireNext land target (n, x) k = (n, x) := fireNext_of_not_due (others x hx k ki kj)
  simp only [fireDue, List.foldl_cons, List.foldl_nil]
  have order : ∀ i j : Fin 3, i < j → i = 0 ∧ j = 1 ∨ i = 0 ∧ j = 2 ∨ i = 1 ∧ j = 2 := by decide
  obtain ⟨rfl, rfl⟩ | ⟨rfl, rfl⟩ | ⟨rfl, rfl⟩ := order i j lt
  · rw [first, second, skip _ v (by simp) 2 (by decide) (by decide)]
  · rw [first, skip _ u (by simp) 1 (by decide) (by decide), second]
  · rw [skip _ s (by simp) 0 (by decide) (by decide), first, second]

/-- K39 after two firings. -/
theorem two_steps (n : BitVec 32) : n + 1 + 1 = n + 2 := by
  rw [BitVec.add_assoc]
  rfl

/-- A DELETE at the boundary, and an INSERT at the label that it enters: both fire, with one tick. -/
theorem delete_then_insert (on : s.supply = .on) (none : NoInserted s.tmb) (range : s.tmb.label + 2 ≤ Config.maxLabel)
    (ne : i ≠ j) (armed : ∀ k, (s.tables.correction.get k).status = .armed ↔ k = i ∨ k = j)
    (delete : (s.tables.correction.get i).kind = .delete) (target : (s.tables.correction.get i).target = s.tmb.label + 1)
    (insert : (s.tables.correction.get j).kind = .insert) (target' : (s.tables.correction.get j).target = s.tmb.label + 2) :
    ∃ t, exec .secondTick s = .next t ∧ t.tmb.label = s.tmb.label + 2 ∧ t.tmb.marks = [s.tmb.label + 2] ∧
      t.tmb.repeating = false ∧ (t.tables.correction.get i).status = .fired ∧
      (t.tables.correction.get j).status = .fired ∧ t.cnt[39] = s.cnt[39] + 2 ∧
      t.tmb.restartAge = min 601 (s.tmb.restartAge + 1) := by
  obtain ⟨b, w, hb, step, p, hclock⟩ := boundary_of_noInserted on none (by omega)
  have label : b.clock.label = s.tmb.label + 1 := by rw [hb]
  have entries : b.clock.entries = s.tables.correction := by rw [hb]; rfl
  have isArmed (k : Fin 3) : b.clock.armed k ↔ k = i ∨ k = j := by
    rw [Clock.armed, entries]
    exact armed k
  have left (k : Fin 3) (hk : (b.clock.fire i).armed k) : k = j :=
    have ⟨ki, hk, _⟩ := Clock.armed_of_fire hk
    ((isArmed k).mp hk).resolve_left ki
  have stays : (b.clock.fire i).entries.get j = s.tables.correction.get j := by
    rw [Clock.fire_entry, if_neg (Ne.symm ne), entries]
  obtain ⟨u, hu, deleted⟩ := fireOne_delete (crossBoundary 3) b.clock.label (s := b) (i := i)
    (by rw [entries]; exact delete) (by rw [hb]) (by rw [label]; omega) fun k hk => by
      obtain rfl := left k hk
      rw [stays, target', label]
      simp only [Config.second]
      omega
  have uLabel : u.clock.label = s.tmb.label + 2 := by rw [hu, label]; rfl
  have uEntries : u.clock.entries = (b.clock.fire i).entries := by rw [hu]; rfl
  have uDue : u.clock.due u.clock.label j := by
    rw [Clock.due, uEntries, stays, uLabel]
    exact ⟨(armed j).mpr (.inr rfl), target'⟩
  have marked : (fireOne (crossBoundary 2) u.clock.label j u).clock = (u.clock.fire j).mark u.clock.label :=
    fireOne_insert _ _ (by rw [uEntries, stays]; exact insert)
  have landed : (crossBoundary 3 false u).clock = (u.clock.fire j).mark u.clock.label := by
    refine Eq.trans (congrArg State.clock ?_) marked
    refine fireDue_of_one uDue (fun k kj due => kj (left k ?_)) fun k kj due => kj (left k ?_)
    · rw [Clock.armed, ← uEntries]
      exact due.1
    · have still : ((fireOne (crossBoundary 2) u.clock.label j u).clock.entries.get k).status = .armed := due.1
      rw [marked] at still
      obtain ⟨-, hk, -⟩ := Clock.armed_of_fire (c := u.clock) (i := j) still
      rw [Clock.armed, ← uEntries]
      exact hk
  have crossed : fireDue (crossBoundary 3) b.clock.label b = crossBoundary 3 false u := by
    rw [← deleted]
    refine fireDue_of_one ?_ (fun k ki due => ?_) fun k ki due => ?_
    · rw [Clock.due, entries, label]
      exact ⟨(armed i).mpr (.inl rfl), target⟩
    · obtain rfl := ((isArmed k).mp due.1).resolve_left ki
      have := due.2
      rw [entries, target', label] at this
      omega
    · rw [deleted, landed] at due
      obtain ⟨kj, hk, -⟩ := Clock.armed_of_fire (c := u.clock) (i := j) due.1
      refine kj (left k ?_)
      rw [Clock.armed, ← uEntries]
      exact hk
  rw [enterBoundary_clock, crossed, landed, hu, hb] at hclock
  have fired : (settle (runSecond s)).tables.correction = (u.clock.fire j).entries := by
    rw [hu, hb]
    exact congrArg Clock.entries hclock
  refine ⟨_, step, congrArg Clock.label hclock, ?_, ?_, ?_, ?_, ?_, congrArg Clock.restartAge hclock⟩
  · refine (congrArg Clock.marks hclock).trans ?_
    simp [Clock.tick, Clock.mark, Clock.fire, Clock.land]
  · refine (congrArg Clock.repeating hclock).trans ?_
    simp [Clock.tick, Clock.mark, Clock.fire, Clock.land]
  · rw [fired, Clock.fire_entry, if_neg ne, uEntries, Clock.fire_entry, if_pos rfl]
  · rw [fired, Clock.fire_entry, if_pos rfl]
  · exact (congrArg Clock.steps hclock).trans (two_steps _)

/-- A STEP of one second and another entry at one boundary (R29; log entry 13). -/
theorem step_then_entry (on : s.supply = .on) (none : NoInserted s.tmb) (range : s.tmb.label + 3 ≤ Config.maxLabel)
    (lt : i < j) (armed : ∀ k, (s.tables.correction.get k).status = .armed ↔ k = i ∨ k = j)
    (target : ∀ k, k = i ∨ k = j → (s.tables.correction.get k).target = s.tmb.label + 1)
    (kind : (s.tables.correction.get i).kind = .step) (amount : (s.tables.correction.get i).amount = 1000) :
    ∃ t, exec .secondTick s = .next t ∧ (t.tables.correction.get i).status = .fired ∧
      (t.tables.correction.get j).status = .fired ∧ t.cnt[39] = s.cnt[39] + 2 ∧
      ((s.tables.correction.get j).kind = .insert →
        t.tmb.label = s.tmb.label + 2 ∧ t.tmb.marks = [s.tmb.label + 2] ∧ t.tmb.repeating = false) ∧
      ((s.tables.correction.get j).kind = .delete → t.tmb.label = s.tmb.label + 3 ∧ NoInserted t.tmb) := by
  obtain ⟨b, w, hb, step, p, hclock⟩ := boundary_of_noInserted on none (by omega)
  have ne : i ≠ j := Fin.ne_of_lt lt
  have label : b.clock.label = s.tmb.label + 1 := by rw [hb]
  have zero : b.clock.ns = 0 := by rw [hb]
  have entries : b.clock.entries = s.tables.correction := by rw [hb]; rfl
  have isArmed (k : Fin 3) : b.clock.armed k ↔ k = i ∨ k = j := by
    rw [Clock.armed, entries]
    exact armed k
  have left (k : Fin 3) (hk : (b.clock.fire i).armed k) : k = j :=
    have ⟨ki, hk, _⟩ := Clock.armed_of_fire hk
    ((isArmed k).mp hk).resolve_left ki
  have stays : (b.clock.fire i).entries.get j = s.tables.correction.get j := by
    rw [Clock.fire_entry, if_neg (Ne.symm ne), entries]
  have stepped : b.clock.stepped (b.clock.entries.get i).amount = (s.tmb.label + 2) * second := by
    rw [entries, amount]
    exact stepped_of_seconds zero (by rw [label]; omega) (by omega)
  have quotient : (s.tmb.label + 2) * second / second = s.tmb.label + 2 := Nat.mul_div_cancel _ (by decide)
  have rest : (s.tmb.label + 2) * second % second = 0 := Nat.mul_mod_left _ _
  obtain ⟨u, hu, fired⟩ := fireOne_step (crossBoundary 3) b.clock.label (s := b) (i := i) (by rw [entries]; exact kind)
    (by rw [entries, amount]; decide) zero stepped fun k hk => by
      obtain rfl := left k hk
      rw [stays, target _ (.inr rfl)]
      exact .inl (Nat.le_of_eq label.symm)
  rw [quotient, rest] at hu
  rw [if_pos rest] at fired
  have uEntries : u.clock.entries = (b.clock.fire i).entries := by rw [hu]; rfl
  have landed : (crossBoundary 3 true u).clock = u.clock.tick := by
    rw [crossBoundary_idle_clock, if_pos rfl]
    intro k due
    obtain rfl := left k (by rw [Clock.armed, ← uEntries]; exact due.1)
    have at1 := due.2
    rw [uEntries, stays, target _ (.inr rfl), hu] at at1
    simp only [Clock.land] at at1
    omega
  generalize crossBoundary 3 true u = v at fired landed
  have vEntries : v.clock.entries = (b.clock.fire i).entries := by rw [landed]; exact uEntries
  have vLabel : v.clock.label = s.tmb.label + 2 := by rw [landed, hu]; rfl
  have vZero : v.clock.ns = 0 := by rw [landed, hu]; rfl
  have entered : enteredAfter b.clock.label v = v.clock.label := if_pos vZero
  have idle : (v.clock.fire j).Idle := fun k hk => by
    obtain ⟨kj, hk, -⟩ := Clock.armed_of_fire (c := v.clock) hk
    refine kj (left k ?_)
    rw [Clock.armed, ← vEntries]
    exact hk
  have vRange : v.clock.label < Config.maxLabel := by rw [vLabel]; omega
  obtain ⟨zEntries, zSteps⟩ := fireOne_alone_entries idle vZero vRange
  obtain ⟨-, insert, delete, -, -⟩ := fireOne_alone idle vZero vRange
  rw [show v.clock.entries.get j = s.tables.correction.get j by rw [vEntries, stays]] at insert delete
  rw [← entered] at zEntries zSteps insert delete
  have crossed : fireDue (crossBoundary 3) b.clock.label b = fireOne (crossBoundary 3) (enteredAfter b.clock.label v) j v := by
    refine fireDue_of_two lt ?_ fired ?_ rfl fun x hx k ki kj due => ?_
    · rw [Clock.due, entries, label]
      exact ⟨(armed i).mpr (.inl rfl), target i (.inl rfl)⟩
    · rw [Clock.due, vEntries, stays, label]
      exact ⟨(armed j).mpr (.inr rfl), target j (.inr rfl)⟩
    · have isLeft : (b.clock.fire i).armed k ∨ b.clock.armed k := by
        obtain rfl | rfl | rfl := hx
        · exact .inr due.1
        · rw [Clock.armed, ← vEntries]
          exact .inl due.1
        · have still := due.1
          rw [zEntries] at still
          exact absurd still (idle k)
      obtain h | h := isLeft
      · exact kj (left k h)
      · exact ((isArmed k).mp h).elim ki kj
  rw [enterBoundary_clock, crossed] at hclock
  generalize (fireOne (crossBoundary 3) (enteredAfter b.clock.label v) j v).clock = f at hclock zEntries zSteps insert delete
  have tEntries : (settle (runSecond s)).tables.correction = (v.clock.fire j).entries :=
    (congrArg Clock.entries hclock).trans zEntries
  have vMarks : v.clock.marks = [] ∧ v.clock.repeating = false := by
    rw [landed, hu, hb]
    exact ⟨rfl, rfl⟩
  have vSteps : v.clock.steps = s.cnt[39] + 1 := by
    rw [landed, hu, hb]
    rfl
  refine ⟨_, step, ?_, ?_, ?_, fun isInsert => ?_, fun isDelete => ?_⟩
  · rw [tEntries, Clock.fire_entry, if_neg ne, vEntries, Clock.fire_entry, if_pos rfl]
  · rw [tEntries, Clock.fire_entry, if_pos rfl]
  · refine (congrArg Clock.steps hclock).trans (zSteps.trans ?_)
    exact (congrArg (· + 1) vSteps).trans (two_steps _)
  · rw [insert isInsert] at hclock
    refine ⟨(congrArg Clock.label hclock).trans vLabel, (congrArg Clock.marks hclock).trans ?_,
      (congrArg Clock.repeating hclock).trans ?_⟩
    · simp [Clock.tick, Clock.mark, Clock.fire, vMarks, entered, vLabel]
    · simp [Clock.tick, Clock.mark, Clock.fire, vMarks]
  · rw [delete isDelete] at hclock
    refine ⟨(congrArg Clock.label hclock).trans (congrArg (· + 1) (entered.trans vLabel)),
      (congrArg Clock.marks hclock).trans ?_, (congrArg Clock.repeating hclock).trans ?_⟩
    · simp [Clock.tick, Clock.land, Clock.fire, vMarks]
    · simp [Clock.tick, Clock.land, Clock.fire, vMarks]

/-- INSERT, STEP of -1,000 ms and INSERT at one boundary: two seconds stand marked (log entry 14). -/
theorem insert_step_insert (on : s.supply = .on) (none : NoInserted s.tmb) (range : s.tmb.label + 1 ≤ Config.maxLabel)
    (all : ∀ i, (s.tables.correction.get i).status = .armed ∧ (s.tables.correction.get i).target = s.tmb.label + 1)
    (kind0 : (s.tables.correction.get 0).kind = .insert) (kind1 : (s.tables.correction.get 1).kind = .step)
    (amount : (s.tables.correction.get 1).amount = -1000) (kind2 : (s.tables.correction.get 2).kind = .insert) :
    ∃ t, exec .secondTick s = .next t ∧ t.tmb.label = s.tmb.label ∧ t.tmb.marks = [s.tmb.label + 1, s.tmb.label] ∧
      t.tmb.repeating = false ∧ (∀ i, (t.tables.correction.get i).status = .fired) ∧ t.cnt[39] = s.cnt[39] + 3 := by
  obtain ⟨b, w, hb, step, p, hclock⟩ := boundary_of_noInserted on none (by omega)
  have label : b.clock.label = s.tmb.label + 1 := by rw [hb]
  have entries : b.clock.entries = s.tables.correction := by rw [hb]; rfl
  have due0 : b.clock.due b.clock.label 0 := by
    rw [Clock.due, entries, label]
    exact all 0
  have fired0 := fireOne_insert (s := b) (i := 0) (crossBoundary 3) b.clock.label (by rw [entries]; exact kind0)
  have next0 : fireNext (crossBoundary 3) b.clock.label (b.clock.label, b) 0 =
      (enteredAfter b.clock.label (fireOne (crossBoundary 3) b.clock.label 0 b),
        fireOne (crossBoundary 3) b.clock.label 0 b) := fireNext_of_due due0
  generalize fireOne (crossBoundary 3) b.clock.label 0 b = u at fired0 next0
  have uEntries : u.clock.entries = b.clock.entries.set 0 { b.clock.entries.get 0 with status := .fired } := by rw [fired0]; rfl
  have uEntry (k : Fin 3) (hk : k ≠ 0) : u.clock.entries.get k = s.tables.correction.get k := by
    rw [uEntries, Three.get_set, if_neg hk, entries]
  have uZero : u.clock.ns = 0 := by rw [fired0, hb]; rfl
  have uLabel : u.clock.label = s.tmb.label + 1 := by rw [fired0]; exact label
  have entered0 : enteredAfter b.clock.label u = u.clock.label := if_pos uZero
  have due1 : u.clock.due b.clock.label 1 := by
    rw [Clock.due, uEntry 1 (by decide), label]
    exact all 1
  have stepped : u.clock.stepped (u.clock.entries.get 1).amount = s.tmb.label * second := by
    rw [uEntry 1 (by decide), amount]
    exact stepped_of_seconds uZero (by rw [uLabel]; omega) (by omega)
  have quotient : s.tmb.label * second / second = s.tmb.label := Nat.mul_div_cancel _ (by decide)
  have rest : s.tmb.label * second % second = 0 := Nat.mul_mod_left _ _
  obtain ⟨x, hx, fired1⟩ := fireOne_step (crossBoundary 3) (enteredAfter b.clock.label u) (s := u) (i := 1)
    (by rw [uEntry 1 (by decide)]; exact kind1) (by rw [uEntry 1 (by decide), amount]; decide) uZero stepped fun k hk => by
      obtain ⟨-, hk, same⟩ := Clock.armed_of_fire (c := u.clock) hk
      have k0 : k ≠ 0 := by
        rintro rfl
        rw [Clock.armed, uEntries, Three.get_set, if_pos rfl] at hk
        cases hk
      rw [same, uEntry k k0, (all k).2]
      exact .inl (Nat.le_of_eq uLabel.symm)
  rw [quotient, rest] at hx
  rw [if_pos rest] at fired1
  have landed : (crossBoundary 3 true x).clock = x.clock.tick := by
    rw [crossBoundary_idle_clock, if_pos rfl]
    intro k due
    have here := due.1
    rw [hx] at here
    obtain ⟨-, hk, same⟩ := Clock.armed_of_fire (c := u.clock) here
    have k0 : k ≠ 0 := by
      rintro rfl
      rw [Clock.armed, uEntries, Three.get_set, if_pos rfl] at hk
      cases hk
    have at2 : (x.clock.entries.get k).target = x.clock.label := due.2
    have xEntry : x.clock.entries.get k = s.tables.correction.get k := by
      rw [hx]
      exact same.trans (uEntry k k0)
    rw [xEntry, (all k).2, hx] at at2
    simp only [Clock.land] at at2
    omega
  have next1 : fireNext (crossBoundary 3) b.clock.label (enteredAfter b.clock.label u, u) 1 =
      (enteredAfter (enteredAfter b.clock.label u) (crossBoundary 3 true x), crossBoundary 3 true x) := by
    rw [fireNext_of_due (x := (enteredAfter b.clock.label u, u)) due1, fired1]
  generalize crossBoundary 3 true x = v at landed next1
  have vEntries : v.clock.entries = (u.clock.fire 1).entries := by rw [landed, hx]; rfl
  have vEntry : v.clock.entries.get 2 = s.tables.correction.get 2 := by
    rw [vEntries, Clock.fire_entry, if_neg (by decide), uEntry 2 (by decide)]
  have vZero : v.clock.ns = 0 := by rw [landed, hx]; rfl
  have vLabel : v.clock.label = s.tmb.label := by rw [landed, hx]; rfl
  have entered1 : enteredAfter (enteredAfter b.clock.label u) v = s.tmb.label := (if_pos vZero).trans vLabel
  have due2 : v.clock.due b.clock.label 2 := by
    rw [Clock.due, vEntry, label]
    exact all 2
  have fired2 := fireOne_insert (s := v) (i := 2) (crossBoundary 3) s.tmb.label (by rw [vEntry]; exact kind2)
  have next2 : (fireNext (crossBoundary 3) b.clock.label (s.tmb.label, v) 2).2 = fireOne (crossBoundary 3) s.tmb.label 2 v := by
    rw [fireNext_of_due (x := (s.tmb.label, v)) due2]
  have crossed : fireDue (crossBoundary 3) b.clock.label b = fireOne (crossBoundary 3) s.tmb.label 2 v := by
    simp only [fireDue, List.foldl_cons, List.foldl_nil]
    rw [next0, next1, entered1, next2]
  rw [enterBoundary_clock, crossed, fired2] at hclock
  have tEntries : (settle (runSecond s)).tables.correction = (v.clock.fire 2).entries := congrArg Clock.entries hclock
  have vMarks : v.clock.marks = [s.tmb.label + 1] ∧ v.clock.repeating = false ∧ v.clock.steps = s.cnt[39] + 1 + 1 := by
    rw [landed, hx, fired0, hb]
    refine ⟨?_, rfl, rfl⟩
    simp [Clock.tick, Clock.land, Clock.fire, Clock.mark]
  obtain ⟨marks, repeating, steps⟩ := vMarks
  refine ⟨_, step, (congrArg Clock.label hclock).trans vLabel, (congrArg Clock.marks hclock).trans ?_,
    (congrArg Clock.repeating hclock).trans ?_, fun k => ?_, ?_⟩
  · simp [Clock.tick, Clock.fire, Clock.mark, marks]
  · simp [Clock.tick, Clock.fire, Clock.mark, repeating]
  · rw [tEntries, Clock.fire_entry]
    split
    · rfl
    · next k2 =>
      rw [vEntries, Clock.fire_entry]
      split
      · rfl
      · next k1 =>
        have k0 : k = 0 := by omega
        rw [k0, uEntries, Three.get_set, if_pos rfl]
  · refine (congrArg Clock.steps hclock).trans ((congrArg (· + 1) steps).trans ?_)
    rw [two_steps, BitVec.add_assoc]
    rfl

/-! ### Inserted seconds, and steps -/

/-- The end of an inserted second's first run (R30). -/
theorem first_run_ends (on : s.supply = .on) (fresh : s.tmb.repeating = false) (marked : s.tmb.label ∈ s.tmb.marks) :
    ∃ t, exec .secondTick s = .next t ∧ t.tmb.label = s.tmb.label ∧ t.tmb.repeating = true ∧
      (∀ l, l ∈ t.tmb.marks ↔ l ∈ s.tmb.marks ∧ l ≠ s.tmb.label) ∧
      t.tmb.edgeAge = min 65535 (s.tmb.edgeAge + 1) ∧ t.tmb.restartAge = min 601 (s.tmb.restartAge + 1) ∧
      t.tmb.suspension = s.tmb.suspension ∧ t.tables = s.tables ∧ t.cnt[39] = s.cnt[39] := by
  obtain ⟨hlabel, hmarks, hrep, -⟩ := runToStation_tmb s
  have first : (runToStation second s).tmb.inFirstRun = true := by
    simp [Tmb.inFirstRun, hlabel, hmarks, hrep, fresh, marked]
  have wraps : (runToStation second s).tmb.wrapsSilently = false := by simp [Tmb.wrapsSilently, first]
  have boundary := runToStation_onBoundary s
  have run : runSecond s = (tickBlocks (onNextBoundary (runToStation second s))).withTmb fun t =>
      { t with ns := t.ns + ((runToStation second s).tmb.ns - second) } := by
    unfold runSecond secondBoundary
    dsimp only
    rw [wraps, first]
    rfl
  have moved : (onNextBoundary (runToStation second s)).tmb.label = s.tmb.label ∧
      (onNextBoundary (runToStation second s)).tmb.repeating = true ∧
      (onNextBoundary (runToStation second s)).tmb.marks = s.tmb.marks.filter fun l => l != s.tmb.label := by
    rw [onNextBoundary, State.withTmb_tmb, Tmb.nextSecond_of_firstRun first, ← hlabel, ← hmarks]
    exact ⟨rfl, rfl, rfl⟩
  obtain ⟨label, repeating, marks⟩ := moved
  obtain ⟨l, ns, r, w, m, rep, next, e⟩ := boundary.tmb
  have suspension := congrArg Tmb.suspension e
  have restartAge := congrArg Tmb.restartAge e
  have edgeAge := congrArg Tmb.edgeAge e
  have tables := (tickBlocks_ticked (onNextBoundary (runToStation second s))).1.tables.trans boundary.tables
  have steps : (onNextBoundary (runToStation second s)).clock.steps = s.cnt[39] := by
    rw [State.clock, boundary.cnt]
    rfl
  have hclock := clock_settle (runSecond s)
  rw [run, clock_withNs, clock_tickBlocks, ← run] at hclock
  generalize (runToStation second s).tmb.ns - second = past at hclock run
  generalize onNextBoundary (runToStation second s) = b at *
  have field {α : Type} (g : Clock → α) := congrArg g hclock
  refine ⟨_, stepOf_of_supply on runSecond, (field Clock.label).trans label, (field Clock.repeating).trans repeating,
    fun l => ?_, ?_, ?_, (field Clock.suspension).trans suspension, ?_, (field Clock.steps).trans steps⟩
  · have hm : (settle (runSecond s)).tmb.marks = s.tmb.marks.filter fun l => l != s.tmb.label :=
      (field Clock.marks).trans marks
    rw [hm]
    simp
  · exact (field Clock.edgeAge).trans (congrArg (fun n => min 65535 (n + 1)) edgeAge)
  · exact (field Clock.restartAge).trans (congrArg (fun n => min 601 (n + 1)) restartAge)
  · rw [(settle_fields _).2.2.2.2.2.2.2, run]
    exact tables

/-- The end of a repeat (R30). -/
theorem repeat_ends (on : s.supply = .on) (again : s.tmb.repeating = true) (range : s.tmb.label < Config.maxLabel)
    (entries : ∀ i, (s.tables.correction.get i).status = .armed → (s.tables.correction.get i).target ≠ s.tmb.label + 1) :
    ∃ t, exec .secondTick s = .next t ∧ t.tmb.label = s.tmb.label + 1 ∧ t.tmb.repeating = false ∧
      ∀ l, l ∈ t.tmb.marks ↔ l ∈ s.tmb.marks ∧ s.tmb.label + 1 ≤ l := by
  obtain ⟨b, w, hb, step, hclock⟩ := secondTick_clock on (by simp [Tmb.inFirstRun, again]) range
  have quiet : ∀ i, ¬b.clock.due b.clock.label i := by
    rw [hb]
    exact fun i due => entries i due.1 due.2
  rw [enterBoundary, crossBoundary_idle_clock boundaryDepth true quiet, if_pos rfl, hb] at hclock
  refine ⟨_, step, congrArg Clock.label hclock, congrArg Clock.repeating hclock, fun l => ?_⟩
  have marks : (settle (runSecond s)).tmb.marks = s.tmb.marks.filter fun l => decide (s.tmb.label + 1 ≤ l) :=
    congrArg Clock.marks hclock
  rw [marks]
  simp

/-- A step makes the ARMED entries that it passes over MISSED, counts none of them and leaves the others (R32). -/
theorem step_passes_over (label ns : Nat) (i : Fin 3) (s : State) (hs : s.tmb.ns < second) (hns : ns < second) :
    let e := s.tables.correction.get i
    let passed := e.status = .armed ∧ s.tmb.label * 1000000000 + s.tmb.ns < e.target * 1000000000 ∧
      e.target * 1000000000 < label * 1000000000 + ns
    let t := stepOver label ns s
    t.tmb.label = label ∧ t.tmb.ns = ns ∧ t.tmb.slew = none ∧ t.tmb.stepMark = true ∧ t.tmb.freq = s.tmb.freq ∧
      t.tmb.tq = s.tmb.tq ∧ t.cnt = s.cnt ∧
      (passed → t.tables.correction.get i = { e with status := .missed }) ∧
      (¬passed → t.tables.correction.get i = e) := by
  intro e passed t
  have whole (l n : Nat) (h : n < second) : sinceEpoch l n = l * 1000000000 + n := by
    simp only [sinceEpoch, Config.second] at h ⊢
    omega
  have entry := stepOver_entry label ns i s
  rw [whole _ _ hs, whole _ _ hns] at entry
  obtain ⟨missed, stands⟩ := entry
  obtain ⟨c, q, eq⟩ := stepOver_eq label ns s
  have tmb : t.tmb = s.tmb.landAt label ns s.periodNs := congrArg State.tmb eq
  have cnt := congrArg State.cnt eq
  rw [tmb]
  exact ⟨rfl, rfl, rfl, rfl, rfl, rfl, cnt, missed, stands⟩

/-- Settles O19: the firings by their clocks, the two runs of an inserted second, and the steps. -/
theorem correctionEntriesFireOrAreMissed : Obligations.CorrectionEntriesFireOrAreMissed := by
  refine ⟨fun i s => one_entry_fires, fun i j s => delete_then_insert, fun i j s => step_then_entry,
    fun s => insert_step_insert, fun s => first_run_ends, fun s => repeat_ends, step_passes_over, fun i status s => ?_⟩
  obtain ⟨q, last, -, e⟩ := queueNotice_eq
    (.correction i (s.tables.correction.get i).kind (s.tables.correction.get i).target (status == .fired)) 0
    { s with tables := { s.tables with
      correction := s.tables.correction.set i { s.tables.correction.get i with status := status } } }
  rw [endEntry, e]
  exact last

end Sys2Proof.Machine
end

section
/-!
PROOF. What stored entries do in their owning blocks at the write (R177): O40.
-/

namespace Sys2Proof.Machine

open Config (second)

variable {s t : State}

/-! ### CHANNEL entries (R58 to R60) -/

theorem updateDetector_get (c j : Fin 6) (f : Detector → Detector) (s : State) :
    (updateDetector c f s).det.get j = if j = c then f (s.det.get c) else s.det.get j := Six.get_set _ _ _ _

/-- A write's change of a detector, with the trigger-off that a TRIGGERED one reports (R58, R59). -/
def detChange (c : Fin 6) (f : Detector → Detector) (s : State) : State :=
  if (s.det.get c).state = .triggered then offBatchTriggerOff c (updateDetector c f s).now (updateDetector c f s)
  else updateDetector c f s

theorem detChange_get (c j : Fin 6) (f : Detector → Detector) (s : State) :
    (detChange c f s).det.get j = if j = c then f (s.det.get c) else s.det.get j := by
  unfold detChange
  split
  · rw [offBatchTriggerOff_det, updateDetector_get]
  · exact updateDetector_get c j f s

theorem detChange_triggered {c : Fin 6} (h : (s.det.get c).state = .triggered) (f : Detector → Detector) :
    (detChange c f s).evu.triggered.get c = false := by
  rw [detChange, if_pos h, offBatchTriggerOff_triggered, Six.get_set, if_pos rfl]

/-- A write of a CHANNEL entry by what it changes. -/
theorem detWrite_eq (c : Fin 6) (old : ChannelEntry) (s : State) :
    detWrite c old s =
      if (s.tables.channel.get c).enable && (s.det.get c).state == .off then
        updateDetector c (fun d => { Cold.detector true with baseline := d.baseline, blank := d.blank }) s
      else if !(s.tables.channel.get c).enable && (s.det.get c).state != .off then
        detChange c (fun d => { d with state := .off, timer := 0, rearm := false }) s
      else if (s.det.get c).state != .off && !(s.det.get c).awaiting &&
          ((s.tables.channel.get c).a != old.a || (s.tables.channel.get c).b != old.b || (s.tables.channel.get c).h != old.h) then
        detChange c Detector.rewarm s
      else s := rfl

theorem detWrite_acts (c : Fin 6) (old : ChannelEntry) (s : State) :
    let new := s.tables.channel.get c
    let d := s.det.get c
    let x := (detWrite c old s).det.get c
    (new.enable = true → d.state = .off →
      x.state = .warming ∧ x.awaiting = true ∧ x.sta = 0 ∧ x.lta = 0 ∧ x.warm = 0 ∧ x.rearm = false ∧ x.timer = 0 ∧
        x.blank = d.blank) ∧
      (new.enable = false → d.state ≠ .off → x.state = .off ∧ x.sta = d.sta ∧ x.lta = d.lta ∧ x.blank = d.blank ∧
        (d.state = .triggered → (detWrite c old s).evu.triggered.get c = false)) ∧
      (new.enable = true → d.state ≠ .off → d.awaiting = false → (new.a ≠ old.a ∨ new.b ≠ old.b ∨ new.h ≠ old.h) →
        x.state = .warming ∧ x.warm = 0 ∧ x.rearm = false ∧ x.baseline = d.baseline ∧ x.sta = d.sta ∧ x.lta = d.lta ∧
          x.blank = d.blank) ∧
      (new.enable = true → d.state ≠ .off → new.a = old.a → new.b = old.b → new.h = old.h → x = d) ∧
      (new.enable = false → d.state = .off → x = d) ∧ ∀ c', c' ≠ c → (detWrite c old s).det.get c' = s.det.get c' := by
  intro new d x
  refine ⟨fun enable off => ?_, fun disable on => ?_, fun enable on awaiting changed => ?_, fun enable on a b h => ?_,
    fun disable off => ?_, fun c' ne => ?_⟩
  · have e : detWrite c old s =
        updateDetector c (fun d => { Cold.detector true with baseline := d.baseline, blank := d.blank }) s := by
      rw [detWrite_eq, if_pos (by simp [show (s.tables.channel.get c).enable = true from enable, show (s.det.get c).state = .off from off])]
    have xe : x = { Cold.detector true with baseline := d.baseline, blank := d.blank } := by
      unfold x
      rw [e, updateDetector_get, if_pos rfl]
    rw [xe]
    exact ⟨rfl, rfl, rfl, rfl, rfl, rfl, rfl, rfl⟩
  · have e : detWrite c old s = detChange c (fun d => { d with state := .off, timer := 0, rearm := false }) s := by
      have hd : (s.tables.channel.get c).enable = false := disable
      have ho : (s.det.get c).state ≠ .off := on
      rw [detWrite_eq, if_neg (by simp [hd]), if_pos (by simp [hd, ho])]
    have xe : x = { d with state := .off, timer := 0, rearm := false } := by
      unfold x
      rw [e, detChange_get, if_pos rfl]
    rw [xe]
    refine ⟨rfl, rfl, rfl, rfl, fun triggered => ?_⟩
    rw [e]
    exact detChange_triggered triggered _
  · have e : detWrite c old s = detChange c Detector.rewarm s := by
      have hd : (s.tables.channel.get c).enable = true := enable
      have ho : (s.det.get c).state ≠ .off := on
      have ha : (s.det.get c).awaiting = false := awaiting
      have hc : ((s.tables.channel.get c).a != old.a || (s.tables.channel.get c).b != old.b ||
          (s.tables.channel.get c).h != old.h) = true := by
        simp only [Bool.or_eq_true, bne_iff_ne]
        tauto
      rw [detWrite_eq, if_neg (by simp [ho]), if_neg (by simp [hd]), if_pos (by simp [ho, ha, hc])]
    have xe : x = d.rewarm := by
      unfold x
      rw [e, detChange_get, if_pos rfl]
    rw [xe]
    exact ⟨rfl, rfl, rfl, rfl, rfl, rfl, rfl⟩
  · have hd : (s.tables.channel.get c).enable = true := enable
    have ho : (s.det.get c).state ≠ .off := on
    have same : ((s.tables.channel.get c).a != old.a || (s.tables.channel.get c).b != old.b ||
        (s.tables.channel.get c).h != old.h) = false := by
      simp only [Bool.or_eq_false_iff, bne_eq_false_iff_eq]
      exact ⟨⟨a, b⟩, h⟩
    unfold x
    rw [detWrite_eq, if_neg (by simp [ho]), if_neg (by simp [hd]), if_neg (by simp [same])]
  · have hd : (s.tables.channel.get c).enable = false := disable
    have ho : (s.det.get c).state = .off := off
    unfold x
    rw [detWrite_eq, if_neg (by simp [hd]), if_neg (by simp [ho]), if_neg (by simp [ho])]
  · rw [detWrite_eq]
    split
    · rw [updateDetector_get, if_neg ne]
    · split
      · rw [detChange_get, if_neg ne]
      · split
        · rw [detChange_get, if_neg ne]
        · rfl

/-! ### ALERT entries (R113 to R115) -/

/-- A raise leaves the recorded conditions and counts once in K17. -/
theorem raiseAlert_conds (cls : Fin 8) (p : Option AlertPayload) (s : State) :
    (raiseAlert cls p s).alu.conds = s.alu.conds ∧ (raiseAlert cls p s).cnt[17] = s.cnt[17] + 1 := by
  have counted : (count 17 s).alu.conds = s.alu.conds ∧ (count 17 s).cnt[(17 : Fin 40)] = s.cnt[(17 : Fin 40)] + 1 := by
    refine ⟨by rw [count_alu], ?_⟩
    rw [count_getElem, if_pos rfl]
  have lost (u : State) : (count 21 u).alu.conds = u.alu.conds ∧ (count 21 u).cnt[(17 : Fin 40)] = u.cnt[(17 : Fin 40)] := by
    refine ⟨by rw [count_alu], ?_⟩
    rw [count_getElem, if_neg (by decide)]
  have started (c : Fin 8) (u : State) : (startRecheck c u).alu.conds = u.alu.conds ∧
      (startRecheck c u).cnt[(17 : Fin 40)] = u.cnt[(17 : Fin 40)] := by
    unfold startRecheck
    dsimp only
    split <;> exact ⟨rfl, rfl⟩
  have entered (x : AlertInstance) (u : State) : (enterAlert x u).alu.conds = u.alu.conds ∧
      (enterAlert x u).cnt[(17 : Fin 40)] = u.cnt[(17 : Fin 40)] := ⟨rfl, rfl⟩
  have dropped (u : State) : (u.withAlu fun a => { a with queue := a.queue.dropLast }).alu.conds = u.alu.conds ∧
      (u.withAlu fun a => { a with queue := a.queue.dropLast }).cnt[(17 : Fin 40)] = u.cnt[(17 : Fin 40)] := ⟨rfl, rfl⟩
  change (raiseAlert cls p s).alu.conds = s.alu.conds ∧ (raiseAlert cls p s).cnt[(17 : Fin 40)] = s.cnt[(17 : Fin 40)] + 1
  rw [← counted.1, ← counted.2]
  unfold raiseAlert
  generalize count 17 s = v
  dsimp only
  generalize newInstance cls p v = x
  split
  · exact entered x v
  · split
    · exact entered x v
    · split
      · next last _ _ =>
        rw [(entered _ _).1, (entered _ _).2, (started _ _).1, (started _ _).2, (lost _).1, (lost _).2, (dropped v).1, (dropped v).2]
        exact ⟨rfl, rfl⟩
      · rw [(started _ _).1, (started _ _).2, (lost _).1, (lost _).2]
        exact ⟨rfl, rfl⟩

/-- The class's recorded condition is true, without a raised alert or a re-check (R113, R115). -/
def Standing (cls : Fin 8) (s : State) : Prop :=
  (s.alu.conds.get cls).value = true ∧ classPending cls s = false ∧ s.alu.recheck.get cls = none

theorem raiseAtWrite_of_standing {cls : Fin 8} (h : Standing cls s) :
    raiseAtWrite cls s = raiseAlert cls (s.alu.conds.get cls).payload s := by
  obtain ⟨value, absent, idle⟩ := h
  simp [raiseAtWrite, value, absent, idle]

theorem raiseAtWrite_of_not_standing {cls : Fin 8} (h : ¬Standing cls s) : raiseAtWrite cls s = s := by
  unfold raiseAtWrite
  dsimp only
  rw [if_neg]
  intro all
  simp only [Bool.and_eq_true, Bool.not_eq_true', Option.isNone_iff_eq_none] at all
  exact h ⟨all.1.1, all.1.2, all.2⟩

/-- A raise into a queue with room leaves the class pending (R100). -/
theorem raiseAlert_pending {cls : Fin 8} (h : s.alu.queue.length < 12) (p : Option AlertPayload) :
    classPending cls (raiseAlert cls p s) = true := by
  rw [classPending, (raiseAlert_of_room h cls p).1]
  refine List.any_eq_true.mpr ⟨newInstance cls p (count 17 s), mem_insertAlert.mpr (.inl rfl), ?_⟩
  simp [newInstance]

/-- A class without a raised alert has none to change. -/
theorem map_of_not_pending {cls : Fin 8} (h : classPending cls s = false) (f : AlertInstance → AlertInstance) :
    (s.alu.queue.map fun x => if x.cls = cls then f x else x) = s.alu.queue := by
  conv_rhs => rw [← List.map_id s.alu.queue]
  refine List.map_congr_left fun x hx => if_neg fun e => ?_
  have := List.any_eq_false.mp h x hx
  simp [e] at this

/-- A write of an ALERT entry by what it changes. -/
theorem aluWrite_eq (cls : Fin 8) (old : AlertEntry) (s : State) :
    aluWrite cls old s =
      if !(s.tables.alert.get cls).enable then
        if old.enable then
          s.withAlu fun a => { a with queue := a.queue.filter (·.cls != cls), recheck := a.recheck.set cls none }
        else s
      else if !old.enable then
        if decide (3 ≤ cls.val) && (s.tables.alert.get cls).mode == .level then raiseAtWrite cls s else s
      else if decide (3 ≤ cls.val) && old.mode == .edge && (s.tables.alert.get cls).mode == .level then
        if classPending cls s then updateClass cls (fun x => { x with cleared := !(s.alu.conds.get cls).value }) s
        else raiseAtWrite cls s
      else if decide (3 ≤ cls.val) && old.mode == .level && (s.tables.alert.get cls).mode == .edge then
        updateClass cls (fun x => { x with cleared := false })
          (s.withAlu fun a => { a with recheck := a.recheck.set cls none })
      else s := rfl

/-- An enable of a LEVEL class, or its change to LEVEL (R113, R115). -/
theorem aluWrite_to_level {cls : Fin 8} {old : AlertEntry} (enable : (s.tables.alert.get cls).enable = true)
    (station : 3 ≤ cls.val) (level : (s.tables.alert.get cls).mode = .level) (h : old.enable = false ∨ old.mode = .edge) :
    (old.enable = true ∧ classPending cls s = true ∧
        aluWrite cls old s = updateClass cls (fun x => { x with cleared := !(s.alu.conds.get cls).value }) s) ∨
      ((old.enable = true → classPending cls s = false) ∧ aluWrite cls old s = raiseAtWrite cls s) := by
  rw [aluWrite_eq, if_neg (by simp [enable])]
  cases was : old.enable with
  | false => simp [station, level]
  | true =>
    have edge : old.mode = .edge := h.resolve_left (by simp [was])
    cases classPending cls s <;> simp [station, level, edge]

theorem aluWrite_acts (cls : Fin 8) (old : AlertEntry) (s : State) :
    let new := s.tables.alert.get cls
    let t := aluWrite cls old s
    let standing := (s.alu.conds.get cls).value = true ∧ classPending cls s = false ∧ s.alu.recheck.get cls = none
    let mark (f : AlertInstance → AlertInstance) : List AlertInstance :=
      s.alu.queue.map fun x => if x.cls = cls then f x else x
    (new.enable = false → old.enable = true →
      t.alu.queue = s.alu.queue.filter (fun x => x.cls != cls) ∧ t.alu.recheck.get cls = none ∧ t.cnt = s.cnt) ∧
    (new.enable = true → 3 ≤ cls.val → new.mode = .level → (old.enable = false ∨ old.mode = .edge) →
      (standing → t.cnt[17] = s.cnt[17] + 1 ∧ (s.alu.queue.length < 12 → classPending cls t = true)) ∧
      (¬standing → t.cnt = s.cnt ∧ t.alu.recheck = s.alu.recheck ∧
        t.alu.queue =
          (if old.enable then mark fun x => { x with cleared := !(s.alu.conds.get cls).value } else s.alu.queue))) ∧
    (new.enable = true → old.enable = true → 3 ≤ cls.val → old.mode = .level → new.mode = .edge →
      t.alu.queue = mark (fun x => { x with cleared := false }) ∧ t.alu.recheck.get cls = none ∧ t.cnt = s.cnt) ∧
    (new.enable = old.enable → new.mode = old.mode → t = s) ∧
    (new.enable = true → old.enable = false → new.mode = .edge → t = s) ∧ t.alu.conds = s.alu.conds := by
  intro new t standing mark
  refine ⟨fun disable was => ?_, fun enable station level change => ⟨fun stands => ?_, fun lies => ?_⟩,
    fun enable was station level edge => ?_, fun enable mode => ?_, fun enable was edge => ?_, ?_⟩
  · have off : (s.tables.alert.get cls).enable = false := disable
    have e : t = s.withAlu fun a => { a with queue := a.queue.filter (·.cls != cls), recheck := a.recheck.set cls none } := by
      unfold t
      rw [aluWrite_eq, if_pos (by simp [off]), if_pos was]
    rw [e]
    exact ⟨rfl, (Eight.get_set _ _ _ _).trans (if_pos rfl), rfl⟩
  · obtain ⟨-, pending, -⟩ | ⟨-, e⟩ := aluWrite_to_level enable station level change
    · exact absurd stands.2.1 (by simp [pending])
    · have raised : t = raiseAlert cls (s.alu.conds.get cls).payload s := e.trans (raiseAtWrite_of_standing stands)
      rw [raised]
      exact ⟨(raiseAlert_conds _ _ s).2, fun room => raiseAlert_pending room _⟩
  · obtain ⟨was, -, e⟩ | ⟨absent, e⟩ := aluWrite_to_level enable station level change
    · rw [show t = _ from e, if_pos was]
      exact ⟨rfl, rfl, rfl⟩
    · rw [show t = s from e.trans (raiseAtWrite_of_not_standing lies)]
      refine ⟨rfl, rfl, ?_⟩
      split
      · next was => exact (map_of_not_pending (absent was) _).symm
      · rfl
  · have on : (s.tables.alert.get cls).enable = true := enable
    have now : (s.tables.alert.get cls).mode = .edge := edge
    have e : t = updateClass cls (fun x => { x with cleared := false })
        (s.withAlu fun a => { a with recheck := a.recheck.set cls none }) := by
      unfold t
      rw [aluWrite_eq, if_neg (by simp [on]), if_neg (by simp [was]), if_neg (by simp [now]),
        if_pos (by simp [station, level, now])]
    rw [e]
    exact ⟨rfl, (Eight.get_set _ _ _ _).trans (if_pos rfl), rfl⟩
  · have same : (s.tables.alert.get cls).enable = old.enable := enable
    have kept : (s.tables.alert.get cls).mode = old.mode := mode
    unfold t
    rw [aluWrite_eq, same, kept]
    cases old.enable <;> cases old.mode <;> simp
  · have on : (s.tables.alert.get cls).enable = true := enable
    have now : (s.tables.alert.get cls).mode = .edge := edge
    unfold t
    rw [aluWrite_eq, if_neg (by simp [on]), if_pos (by simp [was]), if_neg (by simp [now])]
  · have raised : (raiseAtWrite cls s).alu.conds = s.alu.conds := by
      unfold raiseAtWrite
      dsimp only
      split
      · exact (raiseAlert_conds _ _ s).1
      · rfl
    unfold t
    rw [aluWrite_eq]
    split
    · split <;> rfl
    · split
      · split
        · exact raised
        · rfl
      · split
        · split
          · rfl
          · exact raised
        · split <;> rfl

/-! ### BATTERY entries and the inrush fields (R150, R159) -/

theorem batteryWrite_acts (s : State) :
    let full := s.tables.battery.capacity * 1000
    let t := batteryWrite s
    (t.bmn.q, t.bmn.r) = (if full < s.bmn.q then (full, 0) else (s.bmn.q, s.bmn.r)) ∧
      t.bmn = { s.bmn with q := t.bmn.q, r := t.bmn.r } := by
  have e : batteryWrite s =
      if s.tables.battery.capacity * 1000 < s.bmn.q then
        s.withBmn fun b => { b with q := s.tables.battery.capacity * 1000, r := 0 }
      else s := rfl
  intro full t
  unfold t
  rw [e]
  by_cases above : full < s.bmn.q
  · rw [if_pos above, if_pos above]
    exact ⟨rfl, rfl⟩
  · rw [if_neg above, if_neg above]
    exact ⟨rfl, rfl⟩

/-- A suspension keeps every load from a grant (R155, R159). -/
theorem not_eligible_of_suspended {w : Nat} (h : s.lda.suspension = some w) (l : Fin 8) : eligible s l = false := by
  simp [eligible, eligibleButQuiet, h]

theorem inrushWrite_acts (old : StationTable) (s : State) :
    let new := s.tables.station
    let t := inrushWrite old s
    (new.inrushLimit = old.inrushLimit → new.inrushWindow = old.inrushWindow → t = s) ∧
      (new.inrushLimit ≠ old.inrushLimit ∨ new.inrushWindow ≠ old.inrushWindow →
        t.lda = { s.lda with suspension := t.lda.suspension } ∧
          t.lda.suspension =
            some (match s.lda.suspension with
              | none => max s.lda.window new.inrushWindow
              | some w => max w new.inrushWindow) ∧
          ∀ l, eligible t l = false) := by
  intro new t
  refine ⟨fun limit window => if_pos ⟨limit, window⟩, fun change => ?_⟩
  have e : t = s.withLda fun a => { a with suspension := some (max (a.suspension.getD a.window) new.inrushWindow) } :=
    if_neg fun same => change.elim (· same.1) (· same.2)
  have suspension : t.lda.suspension = some (max (s.lda.suspension.getD s.lda.window) new.inrushWindow) := by rw [e]; rfl
  refine ⟨by rw [e]; rfl, suspension.trans ?_, not_eligible_of_suspended suspension⟩
  cases s.lda.suspension <;> rfl

/-! ### STATION, TIME, LOAD, ZONE and BATTERY entries (R134, R34, R163, R167, R169) -/

theorem judgeWay_eq (s : State) :
    judgeWay s =
      if wayNow s = s.tmb.way then s
      else
        match wayNow s with
        | some .off => withdrawRequest 1 (s.withTmb fun t => { t with way := wayNow s })
        | some .duty => dutyRequest (dutyRelease (s.withTmb fun t => { t with way := wayNow s }))
        | some .continuous | none => s.withTmb fun t => { t with way := wayNow s } := rfl

/-- A release leaves the way of working L1, F, the lock count and station time. -/
theorem dutyRelease_way (s : State) :
    (dutyRelease s).tmb.way = s.tmb.way ∧ (dutyRelease s).tmb.freq = s.tmb.freq ∧
      (dutyRelease s).tmb.lockCount = s.tmb.lockCount ∧ (dutyRelease s).tmb.label = s.tmb.label ∧
      (dutyRelease s).tmb.ns = s.tmb.ns := by
  have stands := (dutyRelease_standing s).1
  have way := congrArg Tmb.way stands
  have freq := congrArg Tmb.freq stands
  have lockCount := congrArg Tmb.lockCount stands
  have label := congrArg Tmb.label stands
  have ns := congrArg Tmb.ns stands
  exact ⟨way, freq, lockCount, label, ns⟩

theorem withdrawRequest_request (h : s.l1.state = .requested ∨ s.l1.state = .resting) :
    (withdrawRequest 1 s).l1.request = none := by
  unfold withdrawRequest
  rw [updateLoad_l1]
  obtain h | h := h <;> simp [h]

theorem withdrawRequest_tmb (l : Fin 8) (s : State) : (withdrawRequest l s).tmb = s.tmb := by
  unfold withdrawRequest
  exact updateLoad_tmb l _ s

theorem judgeWay_acts (s : State) :
    (judgeWay s).tmb.way = wayNow s ∧ (judgeWay s).tmb.freq = s.tmb.freq ∧ (judgeWay s).tmb.lockCount = s.tmb.lockCount ∧
      (judgeWay s).tmb.label = s.tmb.label ∧ (judgeWay s).tmb.ns = s.tmb.ns ∧
      (s.tmb.way ≠ some .off → wayNow s = some .off → s.l1.state = .requested ∨ s.l1.state = .resting →
        (judgeWay s).l1.request = none) := by
  rw [judgeWay_eq]
  by_cases same : wayNow s = s.tmb.way
  · rw [if_pos same]
    exact ⟨same.symm, rfl, rfl, rfl, rfl, fun other off => absurd (same.symm.trans off) other⟩
  · rw [if_neg same]
    generalize hu : s.withTmb (fun t => { t with way := wayNow s }) = u
    have uTmb : u.tmb = { s.tmb with way := wayNow s } := by rw [← hu]; rfl
    have uL1 : u.l1 = s.l1 := by rw [← hu]; rfl
    split
    · rw [withdrawRequest_tmb, uTmb]
      exact ⟨rfl, rfl, rfl, rfl, rfl, fun _ _ state => withdrawRequest_request (uL1 ▸ state)⟩
    · next duty =>
      obtain ⟨way, freq, lockCount, label, ns⟩ := dutyRelease_way u
      rw [dutyRequest_tmb, way, freq, lockCount, label, ns, uTmb]
      exact ⟨rfl, rfl, rfl, rfl, rfl, fun _ off => by simp [duty] at off⟩
    · next continuous =>
      rw [uTmb]
      exact ⟨rfl, rfl, rfl, rfl, rfl, fun _ off => by simp [continuous] at off⟩
    · next unformed =>
      rw [uTmb]
      exact ⟨rfl, rfl, rfl, rfl, rfl, fun _ off => by simp [unformed] at off⟩

theorem station_address (s : State) (old : StationTable) :
    (judgeAddress (closeFull (inrushWrite old s))).lnk.address =
      if s.tables.station.address ≠ 0 then s.tables.station.address
      else if s.straps = 0 then 65534 else s.straps.toNat := by
  have inrush : (inrushWrite old s).tables = s.tables ∧ (inrushWrite old s).straps = s.straps := by
    unfold inrushWrite
    dsimp only
    split <;> exact ⟨rfl, rfl⟩
  obtain ⟨c, q, g, o, p, e⟩ := closeFull_packs (inrushWrite old s)
  have address : (judgeAddress (closeFull (inrushWrite old s))).lnk.address =
      addressInUse (closeFull (inrushWrite old s)).tables.station.address (closeFull (inrushWrite old s)).straps := rfl
  have zero : s.straps.toNat ≠ 0 ↔ ¬s.straps = 0 := by
    rw [Ne, ← BitVec.toNat_inj]
    rfl
  rw [address, e, inrush.1, inrush.2, addressInUse]
  split
  · rfl
  · by_cases strapped : s.straps = 0
    · rw [if_neg (by simp [strapped]), if_pos strapped]
    · rw [if_pos (zero.mpr strapped), if_neg strapped]

theorem reportA5_zones (first : Bool) (before : Hzc) (s : State) : (reportA5 first before s).hzc.zones = s.hzc.zones := by
  have report (v : Bool) (p : AlertPayload) (u : State) : (reportCondition 5 v p u).hzc = u.hzc := by
    obtain ⟨a, c, q, e⟩ := reportCondition_alerts 5 v p u
    rw [e]
  have onset (p : AlertPayload) (u : State) : (onsetA5 p u).hzc.zones = u.hzc.zones := by
    rw [onsetA5, report]
    rfl
  have zones (l : List (Fin 6)) (u : State) : (l.foldl (fun s z =>
      if (s.hzc.zones.get z).below && !(before.zones.get z).below then onsetA5 (zonePayload z s) s else s) u).hzc.zones =
        u.hzc.zones := by
    refine List.foldlRecOn (motive := fun v : State => v.hzc.zones = u.hzc.zones) l _ rfl fun v hv z _ => ?_
    split
    · exact (onset _ v).trans hv
    · exact hv
  have sensors (l : List (Fin 4)) (u : State) : (l.foldl (fun s t =>
      if s.hzc.faultySensors.get t && !before.faultySensors.get t then onsetA5 (.temperature (.sensor t) none) s else s)
        u).hzc.zones = u.hzc.zones := by
    refine List.foldlRecOn (motive := fun v : State => v.hzc.zones = u.hzc.zones) l _ rfl fun v hv z _ => ?_
    split
    · exact (onset _ v).trans hv
    · exact hv
  unfold reportA5
  dsimp only
  split
  · rw [sensors, zones]
  · rw [report]
    exact (sensors _ _).trans (zones _ s)

theorem rememberOne_hzc (z : Fin 6) (s : State) : (rememberOne z s).hzc = s.hzc := by
  have load (l : Fin 8) (f : Load → Load) (u : State) : (updateLoad l f u).hzc = u.hzc := rfl
  rw [rememberOne_eq, load]

/-- The zones as HZC judges them from the temperatures last handed (R163). -/
theorem judgeZones_zones {temps : Four (Option Int)} (h : s.hzc.handed = some temps) (z : Fin 6) :
    (judgeZones s).hzc.zones.get z = judgeZone s temps z := by
  have remembered (l : List (Fin 6)) (u : State) : (l.foldl (fun s z => rememberOne z s) u).hzc = u.hzc :=
    List.foldlRecOn (motive := fun v : State => v.hzc = u.hzc) l _ rfl fun v hv z _ => (rememberOne_hzc z v).trans hv
  unfold judgeZones
  rw [h]
  dsimp only
  rw [judgeAndRemember, remembered, judgeZonesWith, reportA5_zones]
  exact Six.get_ofFn _ z

theorem actWrite_acts (first n : Nat) (old : Tables) (s : State) :
    (actWrite .station first n old s).lnk.address =
        (if s.tables.station.address ≠ 0 then s.tables.station.address
         else if s.straps = 0 then 65534 else s.straps.toNat) ∧
      (let t := actWrite .time first n old s
       t.tmb.way = wayNow s ∧ t.tmb.freq = s.tmb.freq ∧ t.tmb.lockCount = s.tmb.lockCount ∧ t.tmb.label = s.tmb.label ∧
         t.tmb.ns = s.tmb.ns ∧
         (s.tmb.way ≠ some .off → wayNow s = some .off →
           (s.lda.loads.get 1).state = .requested ∨ (s.lda.loads.get 1).state = .resting →
           (t.lda.loads.get 1).request = none)) ∧
      ∀ (id : TableId) (temps : Four (Option Int)), s.hzc.handed = some temps →
        (id = .zone ∨ id = .battery ∨ (id = .load ∧ 2 < first + n)) →
        ∀ z, (actWrite id first n old s).hzc.zones.get z = judgeZone s temps z := by
  refine ⟨station_address s old.station, judgeWay_acts s, fun id temps handed which z => ?_⟩
  obtain rfl | rfl | ⟨rfl, heater⟩ := which
  · exact judgeZones_zones handed z
  · obtain ⟨q, r, e⟩ := batteryWrite_eq s
    have written : actWrite .battery first n old s = judgeZones (batteryWrite s) := rfl
    rw [written, e]
    exact judgeZones_zones (s := { s with bmn := { s.bmn with q := q, r := r } }) handed z
  · have written : actWrite .load first n old s = judgeZones s := if_pos heater
    rw [written]
    exact judgeZones_zones handed z

/-- A request's priority after it has been refreshed (R154). -/
theorem refreshRequests_priority (l : Fin 8) (s : State) (h : l ≠ 0) (r : Request)
    (hr : ((refreshRequests s).lda.loads.get l).request = some r) :
    r.priority =
      match zoneOf l with
      | some z => if (s.hzc.zones.get z).critical then 1 else (s.tables.load.get l).priority
      | none => (s.tables.load.get l).priority := by
  have other : l.val ≠ 0 := fun e => h (Fin.ext e)
  simp only [refreshRequests, State.withLda_lda, Eight.get_ofFn, Option.map_eq_some_iff] at hr
  obtain ⟨q, -, rfl⟩ := hr
  simp only [currentPriority, if_neg other] <;> rfl

/-- Settles O40: each block's write by what it changes. -/
theorem storedEntriesActInTheirBlocks : Obligations.StoredEntriesActInTheirBlocks :=
  ⟨detWrite_acts, aluWrite_acts, batteryWrite_acts, inrushWrite_acts, actWrite_acts, refreshRequests_priority⟩

end Sys2Proof.Machine
end

section
/-!
SUPPORT. Fields read back from the runs they were written in (Conventions, Byte order; R174): a field that lies behind a run, a
field that is a run, and what one number reads as; then the commands, the digitizer frame, the time message and the link header
(sections 1.2, 7.1, 10.1 and 10.2, R14).
-/

namespace Sys2Proof

/-! ### Fields of runs -/

/-- A field that lies behind the first of two runs. -/
@[simp] theorem field_behind {i n : Nat} {as bs : List Byte} (h : as.length ≤ i) : field i n (as ++ bs) = field (i - as.length) n bs := by
  rw [field, field, List.drop_append, List.drop_eq_nil_of_le h, List.nil_append]

theorem field_cons (i n : Nat) (b : Byte) (bs : List Byte) : field (i + 1) n (b :: bs) = field i n bs := rfl

/-- A field that is the first of two runs. -/
@[simp] theorem field_front {n : Nat} {as bs : List Byte} (h : as.length = n) : field 0 n (as ++ bs) = as := by
  subst h
  simp [field]

/-- A field that is a whole run. -/
@[simp] theorem field_whole {n : Nat} {as : List Byte} (h : as.length = n) : field 0 n as = as := by
  subst h
  simp [field]

/-- A run without its first runs of known lengths. -/
theorem drop_run {n : Nat} {as bs : List Byte} (h : as.length = n) : (as ++ bs).drop n = bs := by
  subst h
  simp

theorem take_run {n : Nat} {as bs : List Byte} (h : as.length = n) : (as ++ bs).take n = as := by
  subst h
  simp

theorem getD_behind {i : Nat} {as bs : List Byte} {d : Byte} (h : as.length ≤ i) :
    (as ++ bs).getD i d = bs.getD (i - as.length) d := List.getD_append_right _ _ _ _ h

theorem toBytes_one (v : Nat) : toBytes 1 v = [BitVec.ofNat 8 v] := by simp [toBytes]

theorem beNat_one {v : Nat} (h : v < 256) : beNat (toBytes 1 v) = v := beNat_toBytes_of_lt (n := 1) h

theorem beNat_two {v : Nat} (h : v < 65536) : beNat (toBytes 2 v) = v := beNat_toBytes_of_lt (n := 2) h

theorem beNat_bitVec16 (v : BitVec 16) : BitVec.ofNat 16 (beNat (toBytes 2 v.toNat)) = v := by
  rw [beNat_two v.isLt, BitVec.ofNat_toNat, BitVec.setWidth_eq]

/-! ### The commands -/

/-- CMD reads back every command whose fields fit (sections 10.1, 10.2). -/
theorem decodeCommand_encodeCommand {c : Command} (h : c.fits = true) (hc : c ≠ .emptyPayload) :
    decodeCommand (encodeCommand c) = c := by
  cases c with
  | emptyPayload => exact absurd rfl hc
  | unknownKind | badLength => cases h
  | status | alertList | eventList | waveCancel | save | restart => rfl
  | tableWrite t f n es =>
    simp only [Command.fits, decide_eq_true_eq] at h
    obtain ⟨ht, hf, hn⟩ := h
    have behind : List.drop 3 (toBytes 1 t ++ toBytes 1 f ++ toBytes 1 n ++ es) = es := drop_run (by simp)
    simp [decodeCommand, encodeCommand, Command.kind, -List.append_assoc, behind]
    simp [beNat_one, ht, hf, hn]
  | tableRead t f n | counterRead f n | counterClear f n | timeSet l f | alertAck i | eventRead e | hold e m | release e
  | waveRequest e o n | loadTest l s =>
    simp only [Command.fits, decide_eq_true_eq] at h
    simp [decodeCommand, encodeCommand, Command.kind, payloadLengthOf, beNat_toBytes]
    omega

/-! ### Flags -/

/-- A flag is read back from its byte. -/
theorem bit_flagByte {l : List Bool} {j : Nat} (hj : j < 8) : bit (flagByte l) j = l.getD j false := by
  have number : (l.foldr (fun (f : Bool) acc => (if f then 1 else 0) + 2 * acc) 0).testBit j = l.getD j false := by
    clear hj
    induction l generalizing j with
    | nil => simp
    | cons f l ih =>
      have bits (acc : Nat) : (if f then 1 else 0) + 2 * acc = Nat.bit f acc := by cases f <;> simp [Nat.bit]; omega
      rw [List.foldr_cons, bits]
      cases j with
      | zero => simp
      | succ j => rw [Nat.testBit_bit_succ, ih, List.getD_cons_succ]
  rw [bit, flagByte, BitVec.getLsbD_ofNat, number, decide_eq_true hj, Bool.true_and]

/-! ### The digitizer frame, the time message, the link frame -/

theorem encodeDigFrame_length (f : DigFrame) : (encodeDigFrame f).length = 22 := by
  simp [encodeDigFrame, withCheck, Six.toList]

/-- One of six samples of three bytes each. -/
theorem field_samples (x : Six Int) (c : Fin 6) (rest : List Byte) :
    field (3 * c.val) 3 ((x.toList.map (intBytes 3)).flatten ++ rest) = intBytes 3 (x.get c) := by
  obtain ⟨x0, x1, x2, x3, x4, x5⟩ := x
  match c with
  | 0 | 1 | 2 | 3 | 4 | 5 => simp [Six.toList, Six.get]

/-- The digitizer frame is read back (section 1.2). -/
theorem decodeDigFrame_encodeDigFrame {f : DigFrame} (h : ∀ c, Machine.inSampleRange (f.samples.get c)) :
    decodeDigFrame (encodeDigFrame f) = some f := by
  have read (c : Fin 6) : beInt (intBytes 3 (f.samples.get c)) = f.samples.get c := by
    obtain ⟨lo, hi⟩ := h c
    exact beInt_intBytes (by norm_num; omega) (by norm_num; omega)
  have good : checkGood (encodeDigFrame f) = true := checkGood_withCheck _
  obtain ⟨seq, ⟨s0, s1, s2, s3, s4, s5⟩, ⟨a, b, c, d, e, g⟩, fault⟩ := f
  have flags : (encodeDigFrame ⟨seq, ⟨s0, s1, s2, s3, s4, s5⟩, ⟨a, b, c, d, e, g⟩, fault⟩).getD 19 0 =
      flagByte [a, b, c, d, e, g, fault] := by
    simp [encodeDigFrame, withCheck, Six.toList]
  rw [decodeDigFrame, if_pos ⟨encodeDigFrame_length _, good⟩]
  simp only [Option.some.injEq, DigFrame.mk.injEq, flags]
  refine ⟨rfl, ?_, ?_, bit_flagByte (by decide)⟩
  · refine Six.ext_get fun c => ?_
    rw [Six.get_ofFn, ← read c]
    rw [encodeDigFrame, withCheck, List.cons_append, Nat.add_comm 1, field_cons, List.append_assoc, field_samples]
  · simp [Six.ofFn, bit_flagByte]

theorem decodeTimeMessage_encodeTimeMessage {m : TimeMessage} (hl : m.label < 2 ^ 40) (hs : m.satellites < 256) :
    (encodeTimeMessage m).length = 9 ∧ decodeTimeMessage (encodeTimeMessage m) = some m := by
  have length : (encodeTimeMessage m).length = 9 := by simp [encodeTimeMessage, withCheck]
  have good : checkGood (encodeTimeMessage m) = true := checkGood_withCheck _
  refine ⟨length, ?_⟩
  rw [decodeTimeMessage, if_pos ⟨length, good⟩]
  obtain ⟨label, fixValid, satellites⟩ := m
  simp [encodeTimeMessage, withCheck, beNat_toBytes, toBytes_one]
  refine ⟨hl, ?_, hs⟩
  cases fixValid <;> rfl

theorem encodeHeader_length (h : LinkHeader) : (encodeHeader h).length = 10 := by simp [encodeHeader]

/-- The link header and the payload are read back (section 7.1). -/
theorem decodeHeader_encodeFrame (h : LinkHeader) (payload : List Byte) :
    decodeHeader (encodeFrame h payload) = h ∧ checkGood (encodeFrame h payload) = true ∧
      field 10 payload.length (encodeFrame h payload) = payload := by
  refine ⟨?_, checkGood_withCheck _, ?_⟩
  · obtain ⟨kind, flags, station, centre, tag, length⟩ := h
    rw [encodeFrame, withCheck]
    generalize toBytes 2 _ = check
    simp [decodeHeader, encodeHeader, field_cons, beNat_bitVec16]
    simp [List.getElem?_append_right]
  · have middle := field_middle (encodeHeader h) payload (toBytes 2 (crc16 (encodeHeader h ++ payload)).toNat)
    rwa [encodeHeader_length, ← List.append_assoc] at middle

end Sys2Proof
end

section
/-!
SUPPORT. Table entries read back from their bytes (section 10.3, R174): an entry has the table's entry size, and
within its ranges is decoded as it is, keeps to the sets, and loses nothing in what a write ignores.
-/

namespace Sys2Proof.Machine

/-! ### Parts of entries -/

@[simp] theorem yesNo_length (b : Bool) : (yesNo b).length = 1 := by simp [yesNo]

theorem beNat_yesNo (b : Bool) : beNat (yesNo b) = b.toNat := by cases b <;> rfl

theorem beInt_two {v : Int} (lo : -32768 ≤ v) (hi : v ≤ 32767) : beInt (intBytes 2 v) = v :=
  beInt_intBytes (by norm_num; omega) (by norm_num; omega)

/-- A value that a clamp leaves stands in the range. -/
theorem clampN_eq_self {lo hi v : Nat} (h : lo ≤ hi) : clampN lo hi v = v ↔ lo ≤ v ∧ v ≤ hi := by
  unfold clampN
  omega

theorem clampI_eq_self {lo hi v : Int} (h : lo ≤ hi) : clampI lo hi v = v ↔ lo ≤ v ∧ v ≤ hi := by
  unfold clampI
  omega

/-- The four flags of a mask are read back. -/
theorem ofFn_bit_flagByte (m : Four Bool) : (Four.ofFn fun g => bit (flagByte m.toList) g.val) = m := by
  simp [Four.ofFn, Four.toList, bit_flagByte]

/-- A mask of four flags has no bit beyond G3. -/
theorem flagByte_four (m : Four Bool) : flagByte m.toList &&& 0x0F = flagByte m.toList := by
  obtain ⟨a, b, c, d⟩ := m
  revert a b c d
  decide

/-- A run whose byte 13 has no bit beyond G3 loses nothing when those bits are left out (R174). -/
theorem mask_stands {as bs : List Byte} {m : Byte} (h : as.length = 13) (hm : m &&& 0x0F = m) :
    (as ++ [m] ++ bs).take 13 ++ [(as ++ [m] ++ bs).getD 13 0 &&& 0x0F] ++ (as ++ [m] ++ bs).drop 14 = as ++ [m] ++ bs := by
  have front : (as ++ [m] ++ bs).take 13 = as := by rw [List.append_assoc, take_run h]
  have rest : (as ++ [m] ++ bs).drop 14 = bs := drop_run (by simp [h])
  have byte : (as ++ [m] ++ bs).getD 13 0 = m := by rw [List.append_assoc, getD_behind h.le, h]; rfl
  rw [front, rest, byte, hm]

theorem encodeEntry_length (i : Nat) (e : Entry) : (encodeEntry i e).length = e.table.entrySize := by
  cases e <;> simp [encodeEntry, Entry.table, TableId.entrySize]

/-- What an entry's own bytes give back (R174, R176): its values, codes within the sets, and nothing that a write
ignores. -/
structure ReadsBack (id : TableId) (i : Nat) (e : Entry) : Prop where
  decoded : decodeEntry id (encodeEntry i e) = e
  sets : setsHold id (encodeEntry i e) = true
  ignored : withoutIgnored i e (encodeEntry i e) = encodeEntry i e

variable {i : Nat}

theorem readsBack_station {e : StationTable} (h : clampEntry (.station e) = .station e) :
    ReadsBack .station i (.station e) := by
  obtain ⟨⟩ := e
  simp [clampEntry, clampN_eq_self] at h
  refine ⟨?_, rfl, rfl⟩
  simp [decodeEntry, encodeEntry, natAt, beNat_toBytes]
  obtain ⟨_, rate, _, period, window, _⟩ := h
  rw [(clampN_eq_self (by decide)).mpr period] at window
  split at rate <;> omega

theorem readsBack_event {e : EventTable} (h : clampEntry (.event e) = .event e) : ReadsBack .event i (.event e) := by
  obtain ⟨⟩ := e
  simp [clampEntry, clampN_eq_self] at h
  refine ⟨?_, rfl, rfl⟩
  simp [decodeEntry, encodeEntry, natAt, beNat_toBytes]
  omega

theorem readsBack_time {e : TimeTable} (h : clampEntry (.time e) = .time e) : ReadsBack .time i (.time e) := by
  obtain ⟨stepThreshold, lockThreshold, lockCount, kp, ki, acceptWindow, holdoverTimeout, drift, degradeBound, refixBound,
    gnssSettle, gnssMode, refixInterval, maxOnTime, minLockTime⟩ := e
  simp [clampEntry, clampN_eq_self] at h
  have code : gnssMode.code ≤ 1 := by cases gnssMode <;> decide
  have mode : (if gnssMode.code % 256 = 1 then GnssMode.duty else .continuous) = gnssMode := by cases gnssMode <;> rfl
  refine ⟨?_, ?_, rfl⟩
  · obtain ⟨_, _, _, _, _, _, _, _, degrade, refix, _⟩ := h
    rw [(clampN_eq_self (by decide)).mpr degrade] at refix
    simp [decodeEntry, encodeEntry, natAt, beNat_toBytes, mode]
    omega
  · simp [setsHold, TableId.sets, encodeEntry, natAt, beNat_toBytes]
    omega

theorem readsBack_battery {e : BatteryTable} (h : clampEntry (.battery e) = .battery e) :
    ReadsBack .battery i (.battery e) := by
  obtain ⟨capacity, efficiency, s1, s2, s3, hysteresis, vSurv, vCut, fullVoltage, taper, chargeMin, chargeMax, heaterOffset,
    rest0, rest250, rest500, rest750, rest1000⟩ := e
  simp [clampEntry, clampN_eq_self, clampI_eq_self] at h
  refine ⟨?_, rfl, rfl⟩
  have low : beInt (intBytes 2 chargeMin) = chargeMin := beInt_two (by omega) (by omega)
  have high : beInt (intBytes 2 chargeMax) = chargeMax := beInt_two (by omega) (by omega)
  simp [decodeEntry, encodeEntry, natAt, intAt, beNat_toBytes, low, high]
  omega

theorem readsBack_alert {e : AlertEntry} (h : clampEntry (.alert e) = .alert e) : ReadsBack .alert i (.alert e) := by
  obtain ⟨enable, priority, mode, dest1, dest2, interval, limit⟩ := e
  simp [clampEntry, clampN_eq_self] at h
  have code : mode.code ≤ 1 := by cases mode <;> decide
  have read : (if mode.code % 256 = 1 then AlertMode.level else .edge) = mode := by cases mode <;> rfl
  refine ⟨?_, ?_, rfl⟩
  · simp [decodeEntry, encodeEntry, natAt, beNat_toBytes, beNat_yesNo, read]
    omega
  · simp [setsHold, TableId.sets, encodeEntry, natAt, beNat_toBytes, beNat_yesNo, Bool.toNat_le]
    omega

theorem readsBack_load {e : LoadEntry} (h : clampEntry (.load e) = .load e) : ReadsBack .load i (.load e) := by
  obtain ⟨⟩ := e
  simp [clampEntry, clampN_eq_self] at h
  refine ⟨?_, ?_, ?_⟩
  · simp [decodeEntry, encodeEntry, natAt, beNat_toBytes, beNat_yesNo]
    omega
  · simp [setsHold, TableId.sets, encodeEntry, natAt, beNat_yesNo, Bool.toNat_le]
  · exact List.take_append_drop 7 _

theorem readsBack_zone {e : ZoneEntry} (h : clampEntry (.zone e) = .zone e) : ReadsBack .zone i (.zone e) := by
  obtain ⟨sensor, setpoint, hysteresis, floor, essential⟩ := e
  simp [clampEntry, clampN_eq_self, clampI_eq_self] at h
  refine ⟨?_, ?_, rfl⟩
  · obtain ⟨point, width, least⟩ := h
    rw [(clampI_eq_self (by decide)).mpr point, (clampN_eq_self (by decide)).mpr width] at least
    have hs : beInt (intBytes 2 setpoint) = setpoint := beInt_two (by omega) (by omega)
    have hf : beInt (intBytes 2 floor) = floor := beInt_two (by omega) (by omega)
    simp [decodeEntry, encodeEntry, natAt, intAt, beNat_toBytes, beNat_yesNo, hs, hf, indexIn, Fin.ext_iff]
    omega
  · simp [setsHold, TableId.sets, encodeEntry, natAt, beNat_toBytes, beNat_yesNo, Bool.toNat_le]
    omega

theorem readsBack_channel {e : ChannelEntry} (h : clampEntry (.channel e) = .channel e) :
    ReadsBack .channel i (.channel e) := by
  obtain ⟨enable, hh, a, b, ron, roff, lmin, maxTrigger, weight, strongMotion, mask, stream⟩ := e
  simp [clampEntry, clampN_eq_self] at h
  refine ⟨?_, ?_, ?_⟩
  · simp [decodeEntry, encodeEntry, natAt, beNat_toBytes, beNat_yesNo, field_cons, ofFn_bit_flagByte]
    omega
  · simp [setsHold, TableId.sets, encodeEntry, natAt, beNat_yesNo, Bool.toNat_le, field_cons]
  · exact mask_stands (by simp) (flagByte_four mask)

theorem readsBack_countermask {e : Mask40} : ReadsBack .countermask i (.countermask e) := by
  refine ⟨?_, rfl, rfl⟩
  simp only [decodeEntry, encodeEntry, Entry.countermask.injEq]
  ext k hk
  have byte (q : Nat) (hq : q < 5) (f : Nat → Byte) : ([0, 1, 2, 3, 4].map f).getD q 0 = f q := by
    match q with
    | 0 | 1 | 2 | 3 | 4 => rfl
  rw [Vector.getElem_ofFn, byte _ (by omega), bit_flagByte (by omega)]
  simp [List.getElem?_drop, Nat.mod_lt, Nat.div_add_mod, hk]

/-- Every entry but a CORRECTION one, within its ranges, is read back (R174). -/
theorem readsBack_of_clampEntry {e : Entry} (h : clampEntry e = e) (hc : e.table ≠ .correction) : ReadsBack e.table i e := by
  cases e with
  | station => exact readsBack_station h
  | channel => exact readsBack_channel h
  | event => exact readsBack_event h
  | time => exact readsBack_time h
  | correction => exact absurd rfl hc
  | alert => exact readsBack_alert h
  | load => exact readsBack_load h
  | zone => exact readsBack_zone h
  | battery => exact readsBack_battery h
  | countermask => exact readsBack_countermask

theorem readEntry_table (t : Tables) (id : TableId) (i : Nat) : (readEntry t id i).table = id := by cases id <;> rfl

theorem readsBack_readEntry {t : Tables} {id : TableId} (hc : id ≠ .correction) (h : clampEntry (readEntry t id i) = readEntry t id i) :
    ReadsBack id i (readEntry t id i) := by
  have reads := readsBack_of_clampEntry (i := i) h
  rw [readEntry_table] at reads
  exact reads hc

/-- An entry that is read back and keeps to the relations passes the value policy as it is (R176). -/
theorem ReadsBack.judged {id : TableId} {e : Entry} (h : ReadsBack id i e) (clamped : clampEntry e = e)
    (relations : relationsHold i e = true) {label : Nat} (future : targetPast label e = false) :
    judgeEntry id label i (encodeEntry i e) = .ok e := by
  rw [judgeEntry, h.sets, h.decoded, clamped, relations, future]
  rfl

/-- An entry that is read back is stored as it was written (R173). -/
theorem ReadsBack.entryClamped {id : TableId} {e : Entry} (h : ReadsBack id i e) :
    entryClamped i e (encodeEntry i e) = false := by
  rw [Machine.entryClamped, h.ignored, bne_self_eq_false]

theorem targetPast_of_table {e : Entry} (h : e.table ≠ .correction) (label : Nat) : targetPast label e = false := by
  cases e with
  | correction => exact absurd rfl h
  | _ => rfl

/-! ### CORRECTION entries (R28) -/

theorem correctionKindOf_code (k : CorrectionKind) : correctionKindOf k.code = k := by cases k <;> rfl

theorem CorrectionKind.code_le (k : CorrectionKind) : k.code ≤ 3 := by cases k <;> decide

/-- A CORRECTION entry's kind, target and amount are read back. -/
theorem decodeEntry_correction {e : CorrectionEntry} (ht : e.target < 2 ^ 40) (lo : -32768 ≤ e.amount) (hi : e.amount ≤ 32767) :
    decodeEntry .correction (encodeEntry i (.correction e)) = .correction { e with status := .empty } := by
  obtain ⟨kind, target, amount, status⟩ := e
  have code : kind.code % 256 = kind.code := Nat.mod_eq_of_lt (by have := kind.code_le; omega)
  simp [decodeEntry, encodeEntry, natAt, intAt, beNat_toBytes, beInt_two lo hi, code, correctionKindOf_code]
  omega

theorem setsHold_correction (e : CorrectionEntry) : setsHold .correction (encodeEntry i (.correction e)) = true := by
  have := e.kind.code_le
  simp [setsHold, TableId.sets, encodeEntry, natAt, beNat_toBytes]
  omega

/-- What the clamps give an entry to be armed does not turn on its status. -/
theorem clampEntry_status {e : CorrectionEntry} (h : e.kind ≠ .none) (x : CorrectionStatus) :
    clampEntry (.correction { e with status := x }) = clampEntry (.correction e) := by
  obtain ⟨kind, target, amount, status⟩ := e
  cases kind with
  | none => exact absurd rfl h
  | insert | delete | step => rfl

theorem correctionEntry_readsBack (e : CorrectionEntry) (i label : Nat) (ht : e.target < 2 ^ 40) (lo : -32768 ≤ e.amount)
    (hi : e.amount ≤ 32767) :
    (encodeEntry i (.correction e)).length = 9 ∧
      decodeEntry .correction (encodeEntry i (.correction e)) = .correction { e with status := .empty } ∧
      (e.kind ≠ .none → e.status = .armed → clampEntry (.correction e) = .correction e → label < e.target →
        judgeEntry .correction label i (encodeEntry i (.correction e)) = .ok (.correction e)) := by
  refine ⟨encodeEntry_length _ _, decodeEntry_correction ht lo hi, fun kind _ clamped future => ?_⟩
  have past : targetPast label (.correction e) = false := by simp [targetPast, future]
  rw [judgeEntry, setsHold_correction, decodeEntry_correction ht lo hi, clampEntry_status kind, clamped, past]
  rfl

end Sys2Proof.Machine
end

section
/-!
PROOF. O60: every command that carries fields, frame, time message, table entry and the configuration image are read back from
their bytes (sections 1.2, 7.1, 10.1 to 10.3, R14, R183, R185).
-/

namespace Sys2Proof.Machine

/-! ### The configuration image (R183, R185) -/

theorem readEntries_length (t : Tables) (id : TableId) (first n : Nat) :
    (readEntries t id first n).length = n * id.entrySize := by
  induction n generalizing first with
  | zero => simp [readEntries]
  | succ n ih =>
    rw [readEntries, List.length_append, encodeEntry_length, readEntry_table, ih, Nat.succ_mul, Nat.add_comm]

/-- The image without its check: the length field and the nine tables' entries. -/
def imageBytes (t : Tables) : List Byte :=
  toBytes 2 Config.imageBody ++ (imageTables.map fun id => readEntries t id 0 id.entries).flatten

theorem imageBytes_length (t : Tables) : (imageBytes t).length = 356 := by
  simp [imageBytes, readEntries_length, TableId.entries, TableId.entrySize]

theorem imageOf_length (t : Tables) : (imageOf t).length = 358 :=
  (withCheck_length (imageBytes t)).trans (by rw [imageBytes_length])

/-- An image that was written whole is good (R185). -/
theorem imageGood_imageOf (t : Tables) : imageGood ⟨imageOf t, false⟩ = true := by
  have check : checkGood (imageOf t) = true := checkGood_withCheck _
  have body : beNat ((imageOf t).take 2) = Config.imageBody := by
    rw [imageOf, withCheck, List.append_assoc, take_run (toBytes_length 2 _), beNat_two (by decide)]
  simp [imageGood, imageOf_length, check, body]

/-- `n` entries of a table, from `first` on, copied from one set of tables into another. -/
def copyEntries (t : Tables) (id : TableId) (first : Nat) : (n : Nat) → Tables → Tables
  | 0, u => u
  | n + 1, u => copyEntries t id (first + 1) n (storeEntry first (readEntry t id first) u)

/-- Loading the bytes of a table's entries copies the entries. -/
theorem loadTable_readEntries {t : Tables} {id : TableId} {n first : Nat} {rest : List Byte} {u : Tables}
    (h : ∀ i, i < first + n → decodeEntry id (encodeEntry i (readEntry t id i)) = readEntry t id i) :
    loadTable id first n (readEntries t id first n ++ rest) u = copyEntries t id first n u := by
  induction n generalizing first u with
  | zero => rfl
  | succ n ih =>
    have size : (encodeEntry first (readEntry t id first)).length = id.entrySize := by
      rw [encodeEntry_length, readEntry_table]
    rw [loadTable, readEntries, List.append_assoc, take_run size, drop_run size, h first (by omega),
      ih fun i hi => h i (by omega)]
    rfl

/-- Loading the bytes of several tables copies each in turn. -/
theorem loadTables_readEntries {t : Tables} {ids : List TableId} {rest : List Byte} {u : Tables}
    (h : ∀ id ∈ ids, ∀ i, i < id.entries → decodeEntry id (encodeEntry i (readEntry t id i)) = readEntry t id i) :
    loadTables ids ((ids.map fun id => readEntries t id 0 id.entries).flatten ++ rest) u =
      ids.foldl (fun u id => copyEntries t id 0 id.entries u) u := by
  induction ids generalizing u with
  | nil => rfl
  | cons id ids ih =>
    rw [List.map_cons, List.flatten_cons, List.append_assoc, loadTables, drop_run (readEntries_length t id 0 _),
      loadTable_readEntries fun i hi => h id List.mem_cons_self i (by omega),
      ih fun id' hid => h id' (List.mem_cons_of_mem id hid)]
    rfl

/-- A record of six whose entries are all replaced. -/
theorem six_set_all {α : Type} (v w : Six α) :
    (((((v.set 0 (w.get 0)).set 1 (w.get 1)).set 2 (w.get 2)).set 3 (w.get 3)).set 4 (w.get 4)).set 5 (w.get 5) = w := by
  obtain ⟨_, _, _, _, _, _⟩ := w
  rfl

/-- A record of eight whose entries are all replaced. -/
theorem eight_set_all {α : Type} (v w : Eight α) :
    (((((((v.set 0 (w.get 0)).set 1 (w.get 1)).set 2 (w.get 2)).set 3 (w.get 3)).set 4 (w.get 4)).set 5 (w.get 5)).set 6 (w.get 6)).set 7 (w.get 7) = w := by
  obtain ⟨_, _, _, _, _, _, _, _⟩ := w
  rfl

theorem copyEntries_channel (t u : Tables) : copyEntries t .channel 0 6 u = { u with channel := t.channel } := by
  simp only [copyEntries, storeEntry, readEntry]
  exact congrArg (fun c => { u with channel := c }) (six_set_all u.channel t.channel)

theorem copyEntries_alert (t u : Tables) : copyEntries t .alert 0 8 u = { u with alert := t.alert } := by
  simp only [copyEntries, storeEntry, readEntry]
  exact congrArg (fun c => { u with alert := c }) (eight_set_all u.alert t.alert)

theorem copyEntries_load (t u : Tables) : copyEntries t .load 0 8 u = { u with load := t.load } := by
  simp only [copyEntries, storeEntry, readEntry]
  exact congrArg (fun c => { u with load := c }) (eight_set_all u.load t.load)

theorem copyEntries_zone (t u : Tables) : copyEntries t .zone 0 6 u = { u with zone := t.zone } := by
  simp only [copyEntries, storeEntry, readEntry]
  exact congrArg (fun c => { u with zone := c }) (six_set_all u.zone t.zone)

/-- Copying the nine tables of the image leaves only CORRECTION as it was. -/
theorem copy_imageTables (t u : Tables) :
    imageTables.foldl (fun u id => copyEntries t id 0 id.entries u) u = { t with correction := u.correction } := by
  simp only [List.foldl, TableId.entries, copyEntries_channel, copyEntries_alert, copyEntries_load,
    copyEntries_zone, copyEntries, storeEntry, readEntry]

/-- The image gives back every table but CORRECTION, whose entries are EMPTY (R183, R185). -/
theorem tablesOfImage_imageOf {t : Tables}
    (h : ∀ id i, id ≠ TableId.correction → i < id.entries → clampEntry (readEntry t id i) = readEntry t id i) :
    tablesOfImage (imageOf t) = { t with correction := Three.fill Defaults.correction } := by
  have entries : ∀ id ∈ imageTables, ∀ i, i < id.entries →
      decodeEntry id (encodeEntry i (readEntry t id i)) = readEntry t id i := fun id hid i hi => by
    have hc : id ≠ .correction := by
      rintro rfl
      revert hid
      decide
    exact (readsBack_readEntry hc (h id i hc hi)).decoded
  rw [tablesOfImage, imageOf, withCheck, List.append_assoc, drop_run (toBytes_length 2 _), loadTables_readEntries entries,
    copy_imageTables]
  rfl

/-- A table entry within its ranges is read back from its bytes and passes the value policy as it is (R174, R176). -/
theorem tableEntry_readsBack (t : Tables) (id : TableId) (i label : Nat) (hc : id ≠ .correction)
    (clamped : clampEntry (readEntry t id i) = readEntry t id i) :
    (encodeEntry i (readEntry t id i)).length = id.entrySize ∧
      decodeEntry id (encodeEntry i (readEntry t id i)) = readEntry t id i ∧
      (relationsHold i (readEntry t id i) = true →
        judgeEntry id label i (encodeEntry i (readEntry t id i)) = .ok (readEntry t id i) ∧
          entryClamped i (readEntry t id i) (encodeEntry i (readEntry t id i)) = false) := by
  have reads := readsBack_readEntry hc clamped
  have table := readEntry_table t id i
  exact ⟨by rw [encodeEntry_length, table], reads.decoded, fun relations =>
    ⟨reads.judged clamped relations (targetPast_of_table (by rwa [table]) label), reads.entryClamped⟩⟩

/-- Settles O60: each layout's bytes are runs of fields, and each field is read back from its run. -/
theorem framesCommandsEntriesAndImageReadBack : Obligations.FramesCommandsEntriesAndImageReadBack :=
  ⟨⟨fun _ fits hc => decodeCommand_encodeCommand fits hc,
      fun f samples => ⟨encodeDigFrame_length f, decodeDigFrame_encodeDigFrame samples⟩,
      fun _ label satellites => decodeTimeMessage_encodeTimeMessage label satellites,
      decodeHeader_encodeFrame⟩,
    ⟨fun t id i label hc _ clamped => tableEntry_readsBack t id i label hc clamped,
      fun t h => ⟨imageOf_length t, imageGood_imageOf t, tablesOfImage_imageOf h⟩⟩,
    correctionEntry_readsBack⟩

end Sys2Proof.Machine
end

section
/-!
SUPPORT. Bytes read back from the numbers they spell (Conventions, Byte order; R174), and when a CORRECTION entry that a write
stores was replaced (R28, R176).
-/

namespace Sys2Proof.Machine

/-! ### From numbers to bytes -/

/-- The last `n` bytes of a number do not turn on what stands above them. -/
theorem toBytes_add (n k v : Nat) : toBytes n (k * 256 ^ n + v) = toBytes n v := by
  induction n generalizing k with
  | zero => rfl
  | succ n ih =>
    have above : k * 256 ^ (n + 1) = k * 256 * 256 ^ n := by ring
    have digit : (k * 256 * 256 ^ n + v) / 256 ^ n = k * 256 + v / 256 ^ n := by
      rw [Nat.add_comm, Nat.add_mul_div_right _ _ (by positivity), Nat.add_comm]
    rw [toBytes, toBytes, above, ih, digit]
    congr 1
    apply BitVec.eq_of_toNat_eq
    simp only [BitVec.toNat_ofNat]
    omega

/-- A run of bytes is what its number spells. -/
theorem toBytes_beNat (bs : List Byte) : toBytes bs.length (beNat bs) = bs := by
  induction bs with
  | nil => rfl
  | cons b bs ih =>
    have digit : (b.toNat * 256 ^ bs.length + beNat bs) / 256 ^ bs.length = b.toNat := by
      rw [Nat.add_comm, Nat.add_mul_div_right _ _ (by positivity), Nat.div_eq_of_lt (beNat_lt bs), Nat.zero_add]
    rw [beNat_cons, List.length_cons, toBytes, toBytes_add, ih, digit, BitVec.ofNat_toNat, BitVec.setWidth_eq]

/-- A run of bytes is what its two's complement value spells. -/
theorem intBytes_beInt (bs : List Byte) : intBytes bs.length (beInt bs) = bs := by
  have lt := beNat_lt bs
  have number : (beInt bs % (256 ^ bs.length : Nat)).toNat = beNat bs := by
    unfold beInt
    dsimp only
    split
    · rw [Int.emod_eq_of_lt (by omega) (by omega), Int.toNat_natCast]
    · rw [Int.sub_emod_right, Int.emod_eq_of_lt (by omega) (by omega), Int.toNat_natCast]
  rw [intBytes, number, toBytes_beNat]

theorem field_length {i n : Nat} {bs : List Byte} (h : i + n ≤ bs.length) : (field i n bs).length = n := by
  simp [field]
  omega

theorem toBytes_natAt {i n : Nat} {bs : List Byte} (h : i + n ≤ bs.length) : toBytes n (natAt bs i n) = field i n bs := by
  have run := toBytes_beNat (field i n bs)
  rwa [field_length h] at run

theorem intBytes_intAt {i n : Nat} {bs : List Byte} (h : i + n ≤ bs.length) : intBytes n (intAt bs i n) = field i n bs := by
  have run := intBytes_beInt (field i n bs)
  rwa [field_length h] at run

/-- The first bytes of a run and the field behind them. -/
theorem take_field (i n : Nat) (bs : List Byte) : bs.take (i + n) = bs.take i ++ field i n bs := List.take_add

/-! ### A CORRECTION entry that a write stores (R28, R176, log entry 32) -/

/-- What stands in a stored run up to a byte is what was written, or else the entry was replaced. -/
theorem ne_take_append_drop {n : Nat} {stored bs : List Byte} (hb : n ≤ bs.length) :
    (stored != bs.take n ++ stored.drop n) = true ↔ stored.take n ≠ bs.take n := by
  rw [bne_iff_ne, not_iff_not]
  constructor
  · intro h
    rw [h, take_run (by simp [hb])]
  · intro h
    rw [← h, List.take_append_drop]

variable {i : Nat} {bs : List Byte}

theorem take_encodeCorrection (c : CorrectionEntry) :
    (encodeEntry i (.correction c)).take 1 = toBytes 1 c.kind.code ∧
      (encodeEntry i (.correction c)).take 6 = toBytes 1 c.kind.code ++ toBytes 5 c.target ∧
      (encodeEntry i (.correction c)).take 8 = toBytes 1 c.kind.code ++ toBytes 5 c.target ++ intBytes 2 c.amount := by
  refine ⟨?_, ?_, take_run (by simp)⟩
  · simp only [encodeEntry, List.append_assoc]
    exact take_run (by simp)
  · rw [encodeEntry, List.append_assoc _ (intBytes 2 c.amount)]
    exact take_run (by simp)

/-- The kind and the target that a CORRECTION entry's bytes carry, as bytes. -/
theorem take_correction (h : bs.length = 9) :
    bs.take 1 = toBytes 1 (natAt bs 0 1) ∧ bs.take 6 = toBytes 1 (natAt bs 0 1) ++ toBytes 5 (natAt bs 1 5) ∧
      bs.take 8 = toBytes 1 (natAt bs 0 1) ++ toBytes 5 (natAt bs 1 5) ++ intBytes 2 (intAt bs 6 2) := by
  have one : bs.take 1 = field 0 1 bs := take_field 0 1 bs
  have six : bs.take 6 = bs.take 1 ++ field 1 5 bs := take_field 1 5 bs
  have eight : bs.take 8 = bs.take 6 ++ field 6 2 bs := take_field 6 2 bs
  rw [toBytes_natAt (by omega), toBytes_natAt (by omega), intBytes_intAt (by omega), eight, six, one]
  exact ⟨rfl, rfl, rfl⟩

theorem intAt_two (bs : List Byte) (j : Nat) (h : j + 2 ≤ bs.length) : -32768 ≤ intAt bs j 2 ∧ intAt bs j 2 ≤ 32767 := by
  have length : (field j 2 bs).length = 2 := field_length h
  obtain ⟨lo, hi⟩ := beInt_mem (field j 2 bs) (List.ne_nil_of_length_pos (by omega))
  rw [length] at lo hi
  rw [intAt]
  omega

/-- Two amounts of two bytes that spell the same bytes are the same. -/
theorem intBytes_two_inj {v w : Int} (hv : -32768 ≤ v ∧ v ≤ 32767) (hw : -32768 ≤ w ∧ w ≤ 32767) :
    intBytes 2 v = intBytes 2 w ↔ v = w := by
  refine ⟨fun h => ?_, fun h => h ▸ rfl⟩
  rw [← beInt_two hv.1 hv.2, h, beInt_two hw.1 hw.2]

/-- How many bytes of a written CORRECTION entry are compared with what is stored (R28, R174, R176, log entry 32). -/
def comparedBytes (kind : CorrectionKind) (amount : Int) : Nat :=
  match kind with
  | .none => if amountInRange amount then 1 else 8
  | .insert | .delete => 6
  | .step => 8

theorem entryClamped_correction (h : bs.length = 9) (c : CorrectionEntry) :
    entryClamped i (.correction c) bs = true ↔
      (encodeEntry i (.correction c)).take (comparedBytes c.kind (intAt bs 6 2)) ≠
        bs.take (comparedBytes c.kind (intAt bs 6 2)) := by
  have compared (n : Nat) (hn : n ≤ 8) :=
    ne_take_append_drop (n := n) (stored := encodeEntry i (.correction c)) (bs := bs) (by omega)
  obtain ⟨kind, target, amount, status⟩ := c
  cases kind with
  | none =>
    by_cases range : amountInRange (intAt bs 6 2) = true
    · simpa [entryClamped, withoutIgnored, comparedBytes, range] using compared 1 (by decide)
    · simpa [entryClamped, withoutIgnored, comparedBytes, range] using compared 8 (by decide)
  | insert | delete => exact compared 6 (by decide)
  | step => exact compared 8 (by decide)

/-- An INSERT or DELETE is stored as it was written, but for the amount that is ignored (R176). -/
theorem not_clamped_of_unused_amount (h : bs.length = 9) {kind : CorrectionKind} (hk : kind = .insert ∨ kind = .delete)
    (code : natAt bs 0 1 = kind.code) :
    ¬entryClamped i (clampEntry (decodeEntry .correction bs)) bs = true := by
  have stored : clampEntry (decodeEntry .correction bs) = .correction ⟨kind, natAt bs 1 5, 0, .armed⟩ := by
    obtain rfl | rfl := hk
    all_goals simp only [decodeEntry, clampEntry, code, CorrectionKind.code, correctionKindOf]
  have bytes : comparedBytes kind (intAt bs 6 2) = 6 := by
    obtain rfl | rfl := hk
    all_goals rfl
  obtain ⟨-, six', -⟩ := take_encodeCorrection (i := i) ⟨kind, natAt bs 1 5, 0, .armed⟩
  obtain ⟨-, six, -⟩ := take_correction h
  rw [stored, entryClamped_correction h, bytes, six', six, code]
  exact fun ne => ne rfl

/-- Whether a CORRECTION entry is CLAMPED turns on the kind and on the amount's range alone. -/
theorem correction_clamped {label : Nat} {e : Entry} (h : bs.length = 9) (he : judgeEntry .correction label i bs = .ok e) :
    (entryClamped i e bs = true ↔
        (natAt bs 0 1 = 0 ∨ natAt bs 0 1 = 3) ∧ (intAt bs 6 2 < -1000 ∨ 1000 < intAt bs 6 2)) ∧
      (natAt bs 0 1 = 0 → e = .correction Defaults.correction) := by
  obtain ⟨rfl, sets, -, -⟩ := judgeEntry_ok he
  have code : natAt bs 0 1 ≤ 3 := by simpa [setsHold, TableId.sets] using sets
  have amount := intAt_two bs 6 (by omega)
  obtain ⟨one, six, eight⟩ := take_correction h
  have kinds : natAt bs 0 1 = 0 ∨ natAt bs 0 1 = 1 ∨ natAt bs 0 1 = 2 ∨ natAt bs 0 1 = 3 := by omega
  obtain none | insert | delete | step := kinds
  · have stored : clampEntry (decodeEntry .correction bs) = .correction Defaults.correction := by
      simp only [decodeEntry, clampEntry, none, correctionKindOf]
    rw [stored, entryClamped_correction h]
    refine ⟨?_, fun _ => rfl⟩
    obtain ⟨one', -, eight'⟩ := take_encodeCorrection (i := i) Defaults.correction
    by_cases range : -1000 ≤ intAt bs 6 2 ∧ intAt bs 6 2 ≤ 1000
    · have bytes : comparedBytes Defaults.correction.kind (intAt bs 6 2) = 1 := if_pos (decide_eq_true range)
      rw [bytes, one, one', none]
      exact iff_of_false (fun ne => ne rfl) (by omega)
    · have bytes : comparedBytes Defaults.correction.kind (intAt bs 6 2) = 8 :=
        if_neg (by rw [amountInRange, decide_eq_true_iff]; exact range)
      rw [bytes, eight, eight']
      refine iff_of_true (fun same => ?_) ⟨.inl none, by omega⟩
      have zero := (intBytes_two_inj (by decide) amount).mp (List.append_inj_right same (by simp))
      have : Defaults.correction.amount = 0 := rfl
      omega
  · exact ⟨iff_of_false (not_clamped_of_unused_amount h (.inl rfl) insert) (by omega), by omega⟩
  · exact ⟨iff_of_false (not_clamped_of_unused_amount h (.inr rfl) delete) (by omega), by omega⟩
  · have stored : clampEntry (decodeEntry .correction bs) =
        .correction ⟨.step, natAt bs 1 5, clampI (-1000) 1000 (intAt bs 6 2), .armed⟩ := by
      simp only [decodeEntry, clampEntry, step, correctionKindOf]
    obtain ⟨-, -, eight'⟩ := take_encodeCorrection (i := i)
      ⟨.step, natAt bs 1 5, clampI (-1000) 1000 (intAt bs 6 2), .armed⟩
    have range : -32768 ≤ clampI (-1000) 1000 (intAt bs 6 2) ∧ clampI (-1000) 1000 (intAt bs 6 2) ≤ 32767 := by
      unfold clampI
      omega
    rw [stored, entryClamped_correction h]
    refine ⟨?_, by omega⟩
    rw [comparedBytes, eight, eight', step]
    dsimp only [CorrectionKind.code]
    rw [ne_eq, List.append_cancel_left_eq, intBytes_two_inj range amount, clampI_eq_self (by decide)]
    omega

end Sys2Proof.Machine
end

section
/-!
PROOF. O39: a table write or read is refused by the first finding, in order, and a value outside its range is clamped (R175 to
R178, R28).
-/

namespace Sys2Proof.Machine

/-! ### Addressing (R175) -/

theorem tableOf_number (id : TableId) : tableOf id.number = some id := by cases id <;> rfl

theorem tableOf_none {n : Nat} (h : n = 0 ∨ 10 < n) : tableOf n = none := by
  obtain rfl | h := h
  · rfl
  · obtain ⟨k, rfl⟩ := Nat.exists_eq_add_of_lt h
    rw [show 10 + k + 1 = k + 11 by omega]
    rfl

theorem addressTable_none {table : Nat} (h : tableOf table = none) (first n : Nat) :
    addressTable table first n = .error .badTable := by rw [addressTable, h]

theorem addressTable_outside {table first n : Nat} {id : TableId} (h : tableOf table = some id)
    (out : n = 0 ∨ id.entries < first + n) : addressTable table first n = .error .badIndex := by
  simp only [addressTable, h, if_pos out]

theorem addressTable_inside {table first n : Nat} {id : TableId} (h : tableOf table = some id)
    (inside : ¬(n = 0 ∨ id.entries < first + n)) : addressTable table first n = .ok id := by
  simp only [addressTable, h, if_neg inside]

/-! ### A write that is refused (R175 to R177) -/

/-- The bytes of entry `k` of a run. -/
def entryAt (id : TableId) (bs : List Byte) (k : Nat) : List Byte := (bs.drop (k * id.entrySize)).take id.entrySize

theorem entryAt_succ (id : TableId) (bs : List Byte) (k : Nat) :
    entryAt id bs (k + 1) = entryAt id (bs.drop id.entrySize) k := by
  rw [entryAt, entryAt, List.drop_drop, Nat.succ_mul, Nat.add_comm]

/-- The first entry that the value policy refuses gives the reason and the index (R177). -/
theorem judgeEntries_error {id : TableId} {label k : Nat} {r : Reason} {i n : Nat} {bs : List Byte} (hk : k < n)
    (bad : judgeEntry id label (i + k) (entryAt id bs k) = .error r)
    (good : ∀ j, j < k → ∃ e, judgeEntry id label (i + j) (entryAt id bs j) = .ok e) :
    judgeEntries id label i n bs = .error (r, i + k) := by
  obtain ⟨n, rfl⟩ := Nat.exists_eq_add_one.mpr (Nat.zero_lt_of_lt hk)
  induction k generalizing i n bs with
  | zero =>
    simp only [entryAt, Nat.zero_mul, List.drop_zero, Nat.add_zero] at bad
    simp only [judgeEntries, bad, Nat.add_zero]
  | succ k ih =>
    obtain ⟨e, first⟩ := good 0 (by omega)
    obtain ⟨m, rfl⟩ : ∃ m, n = m + 1 := Nat.exists_eq_add_one.mpr (by omega)
    have index (j : Nat) : i + 1 + j = i + (j + 1) := by omega
    have rest : judgeEntries id label (i + 1) (m + 1) (bs.drop id.entrySize) = .error (r, i + 1 + k) := by
      refine ih ?_ (fun j hj => ?_) m (by omega)
      · rw [← entryAt_succ, index]
        exact bad
      · rw [← entryAt_succ, index]
        exact good (j + 1) (by omega)
    simp only [entryAt, Nat.zero_mul, List.drop_zero, Nat.add_zero] at first
    rw [judgeEntries]
    simp only [first, rest, index]

theorem arrived_label (src : Sender) (s : State) : (arrived src s).now.label = s.tmb.label := by
  rw [State.now, Tmb.now, arrived_tmb]
  exact (run_fields src.after s.tmb).1

/-- A table write that CMD takes is answered as `cmdTableWrite` decides. -/
theorem exec_writeRow {id : TableId} {src : Sender} {first count : Byte} {entries : List Byte} {s : State}
    (h : Accepted src (.tableWrite id.number first.toNat count.toNat entries) s) {r : Reason} {data : ReplyData}
    (refused : cmdTableWrite id.number first.toNat count.toNat entries (arrived src s) = ⟨arrived src s, .refused r, data⟩) :
    exec (writeRow id src first count entries) s =
      .next (answered src (.tableWrite id.number first.toNat count.toNat entries) (.refused r) data (arrived src s)) := by
  have row : exec (writeRow id src first count entries) s =
      fromCentre src (.tableWrite id.number first.toNat count.toNat entries) s := by cases id <;> rfl
  rw [row, fromCentre_of_accepted h (by simp), perform, refused]

/-- The refusals of a table write, in their order (R175 to R177). -/
theorem tableWrite_refused (id : TableId) (src : Sender) (first count : Byte) (entries : List Byte) (s : State)
    (h : Accepted src (.tableWrite id.number first.toNat count.toNat entries) s) :
    if count.toNat = 0 ∨ id.entries < first.toNat + count.toNat then
      exec (writeRow id src first count entries) s = .next (answered src
        (.tableWrite id.number first.toNat count.toNat entries) (.refused .badIndex) .none (arrived src s))
    else if entries.length ≠ count.toNat * id.entrySize then
      exec (writeRow id src first count entries) s = .next (answered src
        (.tableWrite id.number first.toNat count.toNat entries) (.refused .badLength) .none (arrived src s))
    else
      ∀ k r, k < count.toNat → judgeEntry id s.tmb.label (first.toNat + k) (entryAt id entries k) = .error r →
        (∀ i, i < k → ∃ e, judgeEntry id s.tmb.label (first.toNat + i) (entryAt id entries i) = .ok e) →
        exec (writeRow id src first count entries) s = .next (answered src
          (.tableWrite id.number first.toNat count.toNat entries) (.refused r) (.index (first.toNat + k)) (arrived src s)) := by
  split
  · next out =>
    refine exec_writeRow h ?_
    simp only [cmdTableWrite, addressTable_outside (tableOf_number id) out, refuse]
  · next inside =>
    have address := addressTable_inside (tableOf_number id) inside
    split
    · next length =>
      refine exec_writeRow h ?_
      simp only [cmdTableWrite, address, if_pos length, refuse]
    · next length =>
      intro k r hk bad good
      refine exec_writeRow h ?_
      have judged := judgeEntries_error hk bad good
      simp only [cmdTableWrite, address, if_neg length, arrived_label, judged]

/-- The refusals of a table read (R175). -/
theorem tableRead_refused (src : Sender) (table first count : Byte) (s : State)
    (h : Accepted src (.tableRead table.toNat first.toNat count.toNat) s) :
    (tableOf table.toNat = none →
      exec (.tableRead src table first count) s = .next (answered src (.tableRead table.toNat first.toNat count.toNat)
        (.refused .badTable) .none (arrived src s))) ∧
    (∀ id, tableOf table.toNat = some id → count.toNat = 0 ∨ id.entries < first.toNat + count.toNat →
      exec (.tableRead src table first count) s = .next (answered src (.tableRead table.toNat first.toNat count.toNat)
        (.refused .badIndex) .none (arrived src s))) := by
  have row : exec (.tableRead src table first count) s =
      fromCentre src (.tableRead table.toNat first.toNat count.toNat) s := rfl
  rw [row, fromCentre_of_accepted h (by simp), perform]
  refine ⟨fun none => ?_, fun id some out => ?_⟩
  · simp only [cmdTableRead, addressTable_none none, refuse]
  · simp only [cmdTableRead, addressTable_outside some out, refuse]

/-- A number that names no table (R175). -/
theorem tableWrite_badTable (table first count centre : Nat) (tag : Byte) (entries : List Byte) (s : State)
    (h : table = 0 ∨ 10 < table) : perform (.tableWrite table first count entries) centre tag s = refuse .badTable s := by
  rw [perform, cmdTableWrite, addressTable_none (tableOf_none h)]

/-! ### The value policy's third pass (R176, R28) -/

theorem setsHold_iff (id : TableId) (bs : List Byte) : setsHold id bs = true ↔ ∀ p ∈ id.sets, natAt bs p.1 1 ≤ p.2 := by
  simp [setsHold]

/-- The relations of R176, as the obligation writes them. -/
def Relations (i : Nat) (e : Entry) : Prop :=
  match e with
  | .channel e => e.a + 3 ≤ e.b ∧ e.roff < e.ron
  | .battery e =>
    e.s2 < e.s1 ∧ e.s3 < e.s2 ∧ e.vCut < e.vSurv ∧ e.rest0 < e.rest250 ∧ e.rest250 < e.rest500 ∧
      e.rest500 < e.rest750 ∧ e.rest750 < e.rest1000
  | .alert e => i < 3 → e.mode = .edge
  | _ => True

theorem relationsHold_iff (i : Nat) (e : Entry) : relationsHold i e = true ↔ Relations i e := by
  cases e with
  | channel | battery => exact decide_eq_true_iff
  | alert e => simp [relationsHold, Relations, imp_iff_not_or]
  | _ => exact iff_of_true rfl trivial

/-- Only a CORRECTION entry that is to be armed can be late (R28). -/
theorem targetPast_iff {id : TableId} {label : Nat} {bs : List Byte} (sets : setsHold id bs = true) :
    targetPast label (clampEntry (decodeEntry id bs)) = true ↔
      id = .correction ∧ 1 ≤ natAt bs 0 1 ∧ natAt bs 1 5 ≤ label := by
  by_cases hc : id = .correction
  · subst hc
    have code : natAt bs 0 1 ≤ 3 := (setsHold_iff _ _).mp sets (0, 3) (by simp [TableId.sets])
    have kinds : natAt bs 0 1 = 0 ∨ natAt bs 0 1 = 1 ∨ natAt bs 0 1 = 2 ∨ natAt bs 0 1 = 3 := by omega
    obtain none | insert | delete | step := kinds
    · simp [decodeEntry, clampEntry, correctionKindOf, targetPast, none, Defaults.correction]
    · simp [decodeEntry, clampEntry, correctionKindOf, targetPast, insert]
    · simp [decodeEntry, clampEntry, correctionKindOf, targetPast, delete]
    · simp [decodeEntry, clampEntry, correctionKindOf, targetPast, step]
  · have table : (clampEntry (decodeEntry id bs)).table ≠ .correction := by rwa [clampEntry_table, decodeEntry_table]
    simp [targetPast_of_table table, hc]

theorem judgeEntry_findings (id : TableId) (label i : Nat) (bs : List Byte) :
    (judgeEntry id label i bs = .error .badValue ↔
        ¬(setsHold id bs = true ∧ relationsHold i (clampEntry (decodeEntry id bs)) = true)) ∧
      (judgeEntry id label i bs = .error .past ↔
        setsHold id bs = true ∧ relationsHold i (clampEntry (decodeEntry id bs)) = true ∧
          targetPast label (clampEntry (decodeEntry id bs)) = true) := by
  by_cases sets : setsHold id bs = true
  · by_cases relations : relationsHold i (clampEntry (decodeEntry id bs)) = true
    · by_cases past : targetPast label (clampEntry (decodeEntry id bs)) = true
      · simp [judgeEntry, sets, relations, past]
      · simp [judgeEntry, sets, relations, past]
    · simp [judgeEntry, sets, relations]
  · simp [judgeEntry, sets]

/-! ### The clamps (R176) -/

theorem clampN_mem {lo hi : Nat} (h : lo ≤ hi) (v : Nat) : lo ≤ clampN lo hi v ∧ clampN lo hi v ≤ hi := by
  unfold clampN
  omega

theorem clampI_mem {lo hi : Int} (h : lo ≤ hi) (v : Int) : lo ≤ clampI lo hi v ∧ clampI lo hi v ≤ hi := by
  unfold clampI
  omega

theorem clampN_clampN {lo hi : Nat} (h : lo ≤ hi) (v : Nat) : clampN lo hi (clampN lo hi v) = clampN lo hi v :=
  (clampN_eq_self h).mpr (clampN_mem h v)

theorem clampI_clampI {lo hi : Int} (h : lo ≤ hi) (v : Int) : clampI lo hi (clampI lo hi v) = clampI lo hi v :=
  (clampI_eq_self h).mpr (clampI_mem h v)

/-- What is clamped stays as it is when it is clamped again. -/
theorem clampEntry_clampEntry (e : Entry) : clampEntry (clampEntry e) = clampEntry e := by
  cases e with
  | station e =>
    obtain ⟨period, -⟩ := clampN_mem (lo := 60) (hi := 3600) (by decide) e.listenPeriod
    obtain ⟨window, limit⟩ := clampN_mem (lo := 5) (hi := 300) (by decide) e.listenWindow
    have again : clampN 5 300 (min (clampN 60 3600 e.listenPeriod) (clampN 5 300 e.listenWindow)) =
        min (clampN 60 3600 e.listenPeriod) (clampN 5 300 e.listenWindow) := by
      rw [clampN_eq_self (by decide)]
      omega
    have rate : (if (if e.sampleRate < 150 then 100 else 200) < 150 then 100 else 200) =
        if e.sampleRate < 150 then 100 else 200 := by split <;> rfl
    simp [clampEntry, clampN_clampN, again, rate]
  | time e =>
    obtain ⟨degrade, -⟩ := clampN_mem (lo := 1000) (hi := 10000000) (by decide) e.degradeBound
    simp [clampEntry, clampN_clampN]
    omega
  | zone e =>
    obtain ⟨setpoint, -⟩ := clampI_mem (lo := -400) (hi := 400) (by decide) e.setpoint
    obtain ⟨-, hysteresis⟩ := clampN_mem (lo := 2) (hi := 50) (by decide) e.hysteresis
    simp [clampEntry, clampN_clampN, clampI_clampI]
    omega
  | correction e =>
    obtain ⟨kind, target, amount, status⟩ := e
    cases kind with
    | none | insert | delete => rfl
    | step => simp [clampEntry, clampI_clampI]
  | channel | event | alert | load | battery => simp [clampEntry, clampN_clampN, clampI_clampI]
  | countermask => rfl

/-- The dependent limits (R176), LOAD's least priority and the sample rate's set, as the obligation writes them. -/
def DependentLimits (bs : List Byte) (e : Entry) : Prop :=
  match e with
  | .station x => (x.sampleRate = if natAt bs 2 1 < 150 then 100 else 200) ∧ x.listenWindow ≤ x.listenPeriod
  | .time x => x.refixBound ≤ x.degradeBound
  | .load x => 2 ≤ x.priority
  | .zone x => x.floor ≤ x.setpoint - x.hysteresis
  | _ => True

theorem dependentLimits_clampEntry (id : TableId) (bs : List Byte) : DependentLimits bs (clampEntry (decodeEntry id bs)) := by
  cases id with
  | station => exact ⟨rfl, min_le_left _ _⟩
  | time => exact min_le_left _ _
  | load => exact (clampN_mem (by decide) _).1
  | zone => exact min_le_left _ _
  | _ => trivial

/-- BAD_VALUE and PAST exactly, and what passes (R176, R28). -/
theorem judgeEntry_cases (id : TableId) (label i : Nat) (bs : List Byte) :
    (judgeEntry id label i bs = .error .badValue ↔
        ¬((∀ p ∈ id.sets, natAt bs p.1 1 ≤ p.2) ∧ Relations i (clampEntry (decodeEntry id bs)))) ∧
      (judgeEntry id label i bs = .error .past ↔
        (∀ p ∈ id.sets, natAt bs p.1 1 ≤ p.2) ∧ id = .correction ∧ 1 ≤ natAt bs 0 1 ∧ natAt bs 1 5 ≤ label) ∧
      ∀ e, judgeEntry id label i bs = .ok e → e = clampEntry (decodeEntry id bs) := by
  obtain ⟨badValue, past⟩ := judgeEntry_findings id label i bs
  refine ⟨?_, ?_, fun e ok => (judgeEntry_ok ok).1⟩
  · rw [badValue, setsHold_iff, relationsHold_iff]
  · rw [past, ← setsHold_iff]
    constructor
    · rintro ⟨sets, -, late⟩
      exact ⟨sets, (targetPast_iff sets).mp late⟩
    · rintro ⟨sets, rfl, late⟩
      exact ⟨sets, rfl, (targetPast_iff sets).mpr ⟨rfl, late⟩⟩

/-- Settles O39: each refusal by the branch of the addressing or of the value policy that gives it, and the clamps by table. -/
theorem tableWritesAreRefusedOrClamped : Obligations.TableWritesAreRefusedOrClamped := by
  refine ⟨fun id src first count entries s h => tableWrite_refused id src first count entries s h,
    fun src table first count s h => tableRead_refused src table first count s h,
    fun table first count centre tag entries s h => ?_, judgeEntry_cases,
    fun id bs => ⟨clampEntry_clampEntry _, dependentLimits_clampEntry id bs⟩,
    fun label i bs e h he => correction_clamped h he⟩
  have refused := tableWrite_badTable table first count centre tag entries s h
  dsimp only
  rw [refused]
  exact ⟨rfl, rfl, rfl⟩

end Sys2Proof.Machine
end

section
/-!
SUPPORT. One detector at an instant (R41 to R54): the tests by the detector's state, and the instant by the forms of its item, by
blanking and by the trigger timer's limit.
-/

namespace Sys2Proof.Machine

variable {e : ChannelEntry} {rate : Nat} {d : Detector}

/-! ### The tests (R45, R50) -/

theorem onTest_iff (sta lta : Int) : onTest e sta lta = true ↔ max lta (e.lmin * 256) * e.ron ≤ sta * 16 :=
  decide_eq_true_iff

theorem offTest_iff (sta lta : Int) : offTest e sta lta = true ↔ sta * 16 < max lta (e.lmin * 256) * e.roff :=
  decide_eq_true_iff

/-! ### The ratio stage by the detector's state (R47 to R50) -/

theorem ratioStage_of_warming (h : d.state = .warming) :
    ratioStage e d = ({ d with warm := d.warm + 1, state := if 2 ^ e.b ≤ d.warm + 1 then .armed else .warming }, none) := by
  rw [ratioStage, h]

theorem ratioStage_of_rearm (h : d.state = .armed) (pending : d.rearm = true) :
    ratioStage e d = ({ d with rearm := !offTest e d.sta d.lta }, none) := by
  rw [ratioStage, h]
  exact if_pos pending

theorem ratioStage_of_armed (h : d.state = .armed) (ready : d.rearm = false) :
    ratioStage e d =
      if onTest e d.sta d.lta then ({ d with state := .triggered, timer := 0 }, some true) else (d, none) := by
  rw [ratioStage, h]
  exact if_neg (by simp [ready])

theorem ratioStage_of_triggered (h : d.state = .triggered) :
    ratioStage e d = if offTest e d.sta d.lta then ({ d with state := .armed, timer := 0 }, some false) else (d, none) := by
  rw [ratioStage, h]

/-- What the tests make of the averages, of re-arm pending and of the state, and the change that they report (R48 to R50). -/
theorem ratioStage_laws (e : ChannelEntry) (d : Detector) :
    let r := ratioStage e d
    (r.1.baseline = d.baseline ∧ r.1.sta = d.sta ∧ r.1.lta = d.lta ∧ r.1.blank = d.blank) ∧
      (r.2 = some true ↔ d.state = .armed ∧ d.rearm = false ∧ onTest e d.sta d.lta = true) ∧
      (r.2 = some false ↔ d.state = .triggered ∧ offTest e d.sta d.lta = true) ∧
      (r.1.state = .triggered ↔ r.2 = some true ∨ (d.state = .triggered ∧ r.2 = none)) ∧
      (d.state ≠ .armed ∨ d.rearm = false → r.1.rearm = d.rearm) := by
  cases state : d.state with
  | off => simp [ratioStage, state]
  | warming =>
    rw [ratioStage_of_warming state]
    dsimp only
    split <;> simp
  | armed =>
    cases pending : d.rearm with
    | true => simp [ratioStage_of_rearm state pending, state]
    | false =>
      rw [ratioStage_of_armed state pending]
      split
      · next met => simp [met, pending]
      · next unmet => simp [unmet, pending, state]
  | triggered =>
    rw [ratioStage_of_triggered state]
    split
    · next met => simp [met]
    · next unmet => simp [unmet, state]

/-- The tests change no average and no blanking. -/
theorem ratioStage_kept (e : ChannelEntry) (d : Detector) :
    (ratioStage e d).1.baseline = d.baseline ∧ (ratioStage e d).1.sta = d.sta ∧ (ratioStage e d).1.lta = d.lta ∧
      (ratioStage e d).1.blank = d.blank := (ratioStage_laws e d).1

/-- A trigger-on comes of the trigger-on test alone, in ARMED without re-arm pending (R48). -/
theorem ratioStage_on_iff :
    (ratioStage e d).2 = some true ↔ d.state = .armed ∧ d.rearm = false ∧ onTest e d.sta d.lta = true :=
  have ⟨_, on, _⟩ := ratioStage_laws e d
  on

/-- A trigger-off comes of the trigger-off test alone, in TRIGGERED (R49). -/
theorem ratioStage_off_iff : (ratioStage e d).2 = some false ↔ d.state = .triggered ∧ offTest e d.sta d.lta = true :=
  have ⟨_, _, off, _⟩ := ratioStage_laws e d
  off

/-- A detector is TRIGGERED after the tests where it has just triggered on, or was so and has not triggered off. -/
theorem ratioStage_triggered_iff :
    (ratioStage e d).1.state = .triggered ↔
      (ratioStage e d).2 = some true ∨ (d.state = .triggered ∧ (ratioStage e d).2 = none) :=
  have ⟨_, _, _, triggered, _⟩ := ratioStage_laws e d
  triggered

/-- Re-arm pending stands but in ARMED (R50). -/
theorem ratioStage_rearm (h : d.state ≠ .armed ∨ d.rearm = false) : (ratioStage e d).1.rearm = d.rearm :=
  have ⟨_, _, _, _, stands⟩ := ratioStage_laws e d
  stands h

theorem ratioStage_timer_of_on (h : (ratioStage e d).2 = some true) :
    (ratioStage e d).1.timer = 0 := by
  obtain ⟨armed, ready, met⟩ := ratioStage_on_iff.mp h
  rw [ratioStage_of_armed armed ready, if_pos met]

/-! ### The sample work by the forms of the instant (R41 to R46, R53) -/

/-- The detector after stages 1 to 3 (R42 to R44). -/
def Detector.averaged (e : ChannelEntry) (x : Int) (clip : Bool) (d : Detector) : Detector :=
  let b := stage1 e.h d.baseline x
  let y : Int := characteristic clip (departure b x) * 256
  { d with
    baseline := b
    sta := toward d.sta y e.a
    lta := if d.state = .triggered then d.lta else toward d.lta y e.b }

theorem sampleWork_of_awaiting (h : d.awaiting = true) (blanked forced : Bool) (x : Int) (clip : Bool) :
    sampleWork e blanked forced x clip d = ⟨{ d with baseline := x * 256, awaiting := false }, none, none⟩ := if_pos h

theorem sampleWork_of_blanked (h : d.awaiting = false) (forced : Bool) (x : Int) (clip : Bool) :
    sampleWork e true forced x clip d = ⟨{ d with baseline := stage1 e.h d.baseline x }, none, none⟩ :=
  if_neg (by simp [h])

theorem sampleWork_of_tested (h : d.awaiting = false) (x : Int) (clip : Bool) :
    sampleWork e false false x clip d =
      ⟨(ratioStage e (d.averaged e x clip)).1, (ratioStage e (d.averaged e x clip)).2,
        some (magnitude (departure (stage1 e.h d.baseline x) x),
          isCrossing e (magnitude (departure (stage1 e.h d.baseline x) x)))⟩ :=
  if_neg (by simp [h])

/-! ### The instant (R41) -/

/-- The detector whose trigger timer has counted the instant (R50). -/
def Detector.timed (d : Detector) : Detector :=
  { d with timer := if d.state = .triggered then d.timer + 1 else d.timer }

/-- The trigger timer reaches its limit at this instant (R50). -/
def LimitMet (e : ChannelEntry) (rate : Nat) (d : Detector) : Prop :=
  d.state = .triggered ∧ e.maxTrigger * rate ≤ d.timer + 1

theorem detectorInstant_of_off (h : d.state = .off) (item : Option (Int × Bool)) :
    detectorInstant e rate item d = ⟨d, none, none⟩ := if_pos h

/-- The forced trigger-off, whatever the instant's item (R50; log entries 9 and 35). -/
theorem detectorInstant_of_limit (h : LimitMet e rate d) (item : Option (Int × Bool)) :
    let r := detectorInstant e rate item d
    r.det.state = .armed ∧ r.det.rearm = true ∧ r.det.timer = 0 ∧ r.change = some false := by
  obtain ⟨triggered, limit⟩ := h
  simp [detectorInstant, triggered, limit]

/-- Short of the limit the instant is the sample work of a usable sample, and nothing but the timer's count of a missing
one. -/
theorem detectorInstant_of_no_limit (on : d.state ≠ .off) (h : ¬ LimitMet e rate d) (item : Option (Int × Bool)) :
    detectorInstant e rate item d =
      item.elim ⟨d.timed, none, none⟩ fun i => sampleWork e (decide (0 < d.blank)) false i.1 i.2 d.timed := by
  by_cases triggered : d.state = .triggered
  · have limit : ¬ e.maxTrigger * rate ≤ d.timer + 1 := fun limit => h ⟨triggered, limit⟩
    cases item <;> simp [detectorInstant, Detector.timed, triggered, limit]
  · have idle : (d.state == .triggered) = false := by simpa using triggered
    cases item <;> simp [detectorInstant, Detector.timed, triggered, idle, on]

/-- A missing instant short of the limit (R54). -/
theorem detectorInstant_missing (on : d.state ≠ .off) (h : ¬ LimitMet e rate d) :
    detectorInstant e rate none d = ⟨d.timed, none, none⟩ := detectorInstant_of_no_limit on h none

/-- The first usable sample sets the baseline (R46). -/
theorem detectorInstant_of_awaiting (on : d.state ≠ .off) (h : ¬ LimitMet e rate d) (first : d.awaiting = true) (x : Int)
    (clip : Bool) :
    detectorInstant e rate (some (x, clip)) d = ⟨{ d.timed with baseline := x * 256, awaiting := false }, none, none⟩ :=
  (detectorInstant_of_no_limit on h _).trans (sampleWork_of_awaiting (d := d.timed) first _ _ x clip)

/-- A usable sample of a blanked detector goes through stage 1 alone (R53). -/
theorem detectorInstant_of_blanked (on : d.state ≠ .off) (h : ¬ LimitMet e rate d) (later : d.awaiting = false)
    (blanked : 0 < d.blank) (x : Int) (clip : Bool) :
    detectorInstant e rate (some (x, clip)) d = ⟨{ d.timed with baseline := stage1 e.h d.baseline x }, none, none⟩ := by
  rw [detectorInstant_of_no_limit on h, Option.elim_some, decide_eq_true blanked]
  exact sampleWork_of_blanked (d := d.timed) later false x clip

/-- A usable sample of a detector that is not blanked goes through the stages and the tests (R42 to R49). -/
theorem detectorInstant_of_tested (on : d.state ≠ .off) (h : ¬ LimitMet e rate d) (later : d.awaiting = false)
    (clear : d.blank = 0) (x : Int) (clip : Bool) :
    let m := magnitude (departure (stage1 e.h d.baseline x) x)
    detectorInstant e rate (some (x, clip)) d =
      ⟨(ratioStage e (d.timed.averaged e x clip)).1, (ratioStage e (d.timed.averaged e x clip)).2,
        some (m, isCrossing e m)⟩ := by
  rw [detectorInstant_of_no_limit on h, Option.elim_some, decide_eq_false (by simp [clear])]
  exact sampleWork_of_tested (d := d.timed) later x clip

end Sys2Proof.Machine
end

section
/-!
PROOF. One detector at an instant (O11): the stages and tests in the statement's terms, the first sample, and R48's law.
-/

namespace Sys2Proof.Machine

variable {e : ChannelEntry} {rate : Nat} {d : Detector}

theorem characteristic_cast (clip : Bool) (d : Int) :
    (characteristic clip d : Int) = if clip then 16777215 else min 16777215 (d.natAbs : Int) := by
  cases clip <;> simp [characteristic, magnitude]

/-- The law of R48 for a detector that is OFF or WARMING: it does not trigger. -/
theorem detectorInstant_untriggered (h : d.state = .off ∨ d.state = .warming) (item : Option (Int × Bool)) :
    (detectorInstant e rate item d).det.state ≠ .triggered ∧ (detectorInstant e rate item d).change = none := by
  obtain off | warming := h
  · simp [detectorInstant_of_off off, off]
  · have short : ¬ LimitMet e rate d := fun h => by simp [h.1] at warming
    have on : d.state ≠ .off := by simp [warming]
    rcases item with _ | ⟨x, clip⟩
    · simp [detectorInstant_missing on short, Detector.timed, warming]
    · cases first : d.awaiting with
      | true => simp [detectorInstant_of_awaiting on short first, Detector.timed, warming]
      | false =>
        obtain clear | blanked := d.blank.eq_zero_or_pos
        · have w : (d.timed.averaged e x clip).state = .warming := warming
          rw [detectorInstant_of_tested on short first clear, ratioStage_of_warming w]
          dsimp only
          split <;> simp
        · simp [detectorInstant_of_blanked on short first blanked, Detector.timed, warming]

/-- The law of R48 for a blanked detector: it reports no change but the forced trigger-off (R50). -/
theorem detectorInstant_blanked_change (blanked : 0 < d.blank) (h : ¬ LimitMet e rate d) (item : Option (Int × Bool)) :
    (detectorInstant e rate item d).change = none := by
  by_cases off : d.state = .off
  · rw [detectorInstant_of_off off]
  · rcases item with _ | ⟨x, clip⟩
    · rw [detectorInstant_missing off h]
    · cases first : d.awaiting with
      | true => rw [detectorInstant_of_awaiting off h first]
      | false => rw [detectorInstant_of_blanked off h first blanked]

/-- A trigger-on leaves ARMED for TRIGGERED, and starts the timer (R48, R50). -/
theorem detectorInstant_on {item : Option (Int × Bool)} (h : (detectorInstant e rate item d).change = some true) :
    d.state = .armed ∧ (detectorInstant e rate item d).det.state = .triggered ∧
      (detectorInstant e rate item d).det.timer = 0 := by
  have on : d.state ≠ .off := fun off => by simp [detectorInstant_of_off off] at h
  have short : ¬ LimitMet e rate d := fun limit => by simp [(detectorInstant_of_limit limit item).2.2.2] at h
  have clear : d.blank = 0 := Nat.eq_zero_of_not_pos fun blanked => by
    simp [detectorInstant_blanked_change blanked short item] at h
  rcases item with _ | ⟨x, clip⟩
  · simp [detectorInstant_missing on short] at h
  · cases first : d.awaiting with
    | true => simp [detectorInstant_of_awaiting on short first] at h
    | false =>
      rw [detectorInstant_of_tested on short first clear] at h ⊢
      exact ⟨(ratioStage_on_iff.mp h).1, ratioStage_triggered_iff.mpr (.inl h), ratioStage_timer_of_on h⟩

/-- The stages in the statement's own terms (R42 to R44). -/
theorem averaged_stages (e : ChannelEntry) (x : Int) (clip : Bool) (d : Detector) :
    let b := d.baseline + (x * 256 - d.baseline) / 2 ^ e.h
    let cf : Int := if clip then 16777215 else min 16777215 (x - b / 256).natAbs
    (d.averaged e x clip).baseline = b ∧ (d.averaged e x clip).sta = d.sta + (cf * 256 - d.sta) / 2 ^ e.a ∧
      (d.averaged e x clip).lta =
        if d.state = .triggered then d.lta else d.lta + (cf * 256 - d.lta) / 2 ^ e.b := by
  have hc := characteristic_cast clip (departure (stage1 e.h d.baseline x) x)
  dsimp only [Detector.averaged]
  rw [hc]
  exact ⟨rfl, rfl, rfl⟩

/-- Settles O11: the instant by the detector's state, its blanking and the timer's limit. -/
theorem detectorStagesAndTests : Obligations.DetectorStagesAndTests := by
  refine ⟨fun e rate x clip d later on below => ?usable, fun e rate x clip d first warming => ?first,
    fun e rate item d => ⟨fun h => detectorInstant_untriggered h item, fun blanked => ?blanked, detectorInstant_on⟩⟩
  case usable =>
    have short : ¬ LimitMet e rate d := fun ⟨triggered, limit⟩ => by
      have := below triggered
      omega
    obtain clear | blanked := d.blank.eq_zero_or_pos
    · obtain ⟨kb, ks, kl, kk⟩ := ratioStage_kept e (d.timed.averaged e x clip)
      obtain ⟨hb, hs, hl⟩ := averaged_stages e x clip d.timed
      rw [detectorInstant_of_tested on short later clear]
      refine ⟨kb.trans hb, kk, fun blanked => absurd clear blanked.ne', fun _ => ⟨ks.trans hs, kl.trans hl, rfl, ?on, ?off,
        ratioStage_triggered_iff, fun armed pending => ?rearm⟩, fun h => ratioStage_rearm ?stands⟩
      case on =>
        rw [ratioStage_on_iff, onTest_iff, hs, hl]
        rfl
      case off =>
        rw [ratioStage_off_iff, offTest_iff, hs, hl]
        rfl
      case rearm =>
        have cleared := offTest_iff (e := e) (d.timed.averaged e x clip).sta (d.timed.averaged e x clip).lta
        rw [hs, hl] at cleared
        rw [ratioStage_of_rearm (d := d.timed.averaged e x clip) armed pending, hs, hl]
        exact ⟨armed, rfl, by rw [Bool.not_eq_false']; exact cleared⟩
      case stands => exact h.imp_right fun h => h.resolve_right fun blanked => absurd clear blanked.ne'
    · rw [detectorInstant_of_blanked on short later blanked]
      exact ⟨rfl, rfl, fun _ => ⟨rfl, rfl, rfl, rfl, rfl, rfl⟩, fun clear => absurd clear blanked.ne', fun _ => rfl⟩
  case first =>
    have on : d.state ≠ .off := by simp [warming]
    have short : ¬ LimitMet e rate d := fun h => by simp [h.1] at warming
    have untimed : d.timed = d := by rw [Detector.timed, if_neg (by simp [warming])]
    rw [detectorInstant_of_awaiting on short first, detectorInstant_missing on short, untimed]
    exact ⟨rfl, rfl⟩
  case blanked =>
    by_cases limit : LimitMet e rate d
    · obtain ⟨-, rearm, -, change⟩ := detectorInstant_of_limit limit item
      exact ⟨by simp [change], fun _ => ⟨limit.1, limit.2, rearm⟩⟩
    · simp [detectorInstant_blanked_change blanked limit item]

end Sys2Proof.Machine
end

section
/-!
SUPPORT. What a sample instant makes of the detectors' states and blanking and of EVU's trigger marks, seen after the delivery of a
usable frame and after a missing entry (R41, R50, R52, R54 to R56), and the sample instants of a frame's arrival and of a strobe's
push-out.
-/

namespace Sys2Proof.Machine

variable {s t w : State} {e : Strobe} {rest : List Strobe} {f : DigFrame} {c : Fin 6}

/-! ### Blank remaining (R52) -/

theorem sampleWork_blank (e : ChannelEntry) (blanked forced : Bool) (x : Int) (clip : Bool) (d : Detector) :
    (sampleWork e blanked forced x clip d).det.blank = d.blank := by
  unfold sampleWork
  dsimp only
  split
  · rfl
  · split
    · rfl
    · split
      · rfl
      · obtain ⟨-, -, -, hk⟩ := ratioStage_kept e (d.averaged e x clip)
        exact hk

/-- A detector's own work leaves its blank remaining, which decreases when the instant's work is done (R41). -/
theorem detectorInstant_blank (e : ChannelEntry) (rate : Nat) (item : Option (Int × Bool)) (d : Detector) :
    (detectorInstant e rate item d).det.blank = d.blank := by
  unfold detectorInstant
  split
  · rfl
  · dsimp only
    have timed : (if (d.state == .triggered) = true then { d with timer := d.timer + 1 } else d).blank = d.blank := by
      split <;> rfl
    generalize (if (d.state == .triggered) = true then { d with timer := d.timer + 1 } else d) = d' at timed ⊢
    generalize (d.state == .triggered && decide (e.maxTrigger * rate ≤ d'.timer)) = forced
    cases item with
    | none => split <;> exact timed
    | some i =>
      have work := (sampleWork_blank e (decide (0 < d'.blank)) forced i.1 i.2 d').trans timed
      split <;> exact work

theorem sampleInstant_blank (st : Stamp) (item : SampleItem) (s : State) (c : Fin 6) :
    ((sampleInstant st item s).det.get c).blank = (s.det.get c).blank - 1000 / s.sif.rate := by
  obtain ⟨a, n, q, hb⟩ := bankWork_alerts item s
  obtain ⟨e, w, a', n', q', he⟩ := evuBatch_events (bankBatch st item s) (bankWork item s)
  have hd : (evuBatch (bankBatch st item s) (bankWork item s)).det.get c = ((bankInstant item s).get c).det := by
    rw [he, hb]
    exact Six.get_map _ _ c
  have hp : (evuBatch (bankBatch st item s) (bankWork item s)).periodMs = 1000 / s.sif.rate := by
    rw [he, hb]
    rfl
  rw [sampleInstant, decreaseBlanks, Six.get_map, hd, hp, bankInstant_get, detectorInstant_blank]

/-! ### What a sample instant shows -/

/-- `t` shows in the detectors and in EVU's trigger marks what a sample instant with `item` makes of `s` (R41, R56, R64). -/
structure Sampled (item : SampleItem) (s t : State) : Prop where
  det : ∀ c, (t.det.get c).unblanked = ((bankInstant item s).get c).det.unblanked
  blank : ∀ c, (t.det.get c).blank = (s.det.get c).blank - 1000 / s.sif.rate
  marks : ∀ c, t.evu.triggered.get c = ((bankInstant item s).get c).change.getD (s.evu.triggered.get c)

theorem sampleInstant_sampled (st : Stamp) (item : SampleItem) (s : State) : Sampled item s (sampleInstant st item s) where
  det := sampleInstant_det st item s
  blank := sampleInstant_blank st item s
  marks := sampleInstant_triggered st item s

/-- What a batch is judged from: the detectors, their rate, EVU's marks and the tables. -/
theorem Sampled.congr {item : SampleItem} {r : State} (h : Sampled item s t) (det : s.det = r.det)
    (rate : s.sif.rate = r.sif.rate) (evu : s.evu = r.evu) (tables : s.tables = r.tables) : Sampled item r t := by
  have hb : bankInstant item s = bankInstant item r := by rw [bankInstant, bankInstant, det, rate, tables]
  obtain ⟨hd, hk, hm⟩ := h
  rw [hb] at hd hm
  rw [det, rate] at hk
  rw [evu] at hm
  exact ⟨hd, hk, hm⟩

/-- What follows the instant keeps it in view where it keeps the detectors and the marks. -/
theorem Sampled.handedOn {item : SampleItem} {u : State} (h : Sampled item s t) (det : u.det = t.det)
    (marks : u.evu.triggered = t.evu.triggered) : Sampled item s u := by
  obtain ⟨hd, hk, hm⟩ := h
  exact ⟨by rwa [det], by rwa [det], by rwa [marks]⟩

/-! ### The writer keeps the trigger marks (R82 to R86) -/

theorem takeSegment_stores (s : State) : Stores s (takeSegment s) := by
  unfold takeSegment
  split
  · exact .refl s
  · exact (withWfs_stores _ s).trans (withWfs_stores _ _)

theorem finishSegment_stores (s : State) : Stores s (finishSegment s) := by
  have freed (i : Nat) (g : Segment → Segment) : Stores s (updateSegment i g (s.withWfs fun w => { w with writer := none })) :=
    (withWfs_stores _ s).trans (withWfs_stores _ _)
  unfold finishSegment
  split
  · exact .refl s
  · dsimp only
    split
    · exact freed _ _
    · split
      · exact (freed _ _).trans (keepSegment_stores _ _ _)
      · exact freed _ _

theorem writeFrame_stores (d : Delivered) (s : State) : Stores s (writeFrame d s) := by
  have taken : Stores s (if s.wfs.writer.isNone then takeSegment s else s) := by
    split
    · exact takeSegment_stores s
    · exact .refl s
  refine taken.trans ?_
  unfold writeFrame
  generalize (if s.wfs.writer.isNone then takeSegment s else s) = v
  have stored (i : Nat) : Stores v (updateSegment i (Segment.store d) v) := withWfs_stores _ v
  dsimp only
  split
  · exact .refl v
  · split
    · exact ((stored _).trans (finishSegment_stores _)).trans (takeSegment_stores _)
    · exact stored _

/-! ### The instants of a delivery and of a missing entry -/

/-- The delivery of a usable frame is a sample instant with its samples (R5). -/
theorem deliver_sampled (good : f.fault = false) (e : Strobe) (s : State) :
    Sampled (some (f.samples, f.clips)) s (deliver e f s) := by
  rw [deliver_of_good good]
  dsimp only
  generalize deliveredOf s.sif.stepCarry e f = d
  have noted : Sampled (some (f.samples, f.clips)) s (sampleInstant ⟨e.time, e.tq⟩ (some (f.samples, f.clips))
      (usableNoted d (acceptedNoted e s))) := by
    obtain ⟨hd, he, -⟩ := usableNoted_blocks d (acceptedNoted e s)
    obtain ⟨ad, ae, -⟩ := acceptedNoted_blocks e s
    exact (sampleInstant_sampled _ _ _).congr (hd.trans ad) (by rw [usableNoted_sif, acceptedNoted_sif]) (he.trans ae)
      ((acceptedNoted_instants e s).trans (usableNoted_instants d _)).tables
  have written := noted.handedOn (writeFrame_det d _) (writeFrame_stores d _).triggered
  obtain ⟨-, hd, he, -⟩ := (packFrame_packs d (writeFrame d (sampleInstant ⟨e.time, e.tq⟩ (some (f.samples, f.clips))
    (usableNoted d (acceptedNoted e s))))).blocks
  exact written.handedOn hd (by rw [he])

/-- The hand-over of a missing entry is a sample instant without an item (R7, R54). -/
theorem handMissing_sampled (e : Strobe) (s : State) :
    Sampled none s (handMissing ⟨e.time, e.tq⟩ (missingNoted e s)) := by
  obtain ⟨md, me, -⟩ := missingNoted_blocks e s
  obtain ⟨-, pd, pe, -⟩ := (packMissing_packs (sampleInstant ⟨e.time, e.tq⟩ none (missingNoted e s))).blocks
  exact ((sampleInstant_sampled _ _ _).congr md (by rw [missingNoted_sif]) me
    (missingNoted_instants e s).tables).handedOn pd (congrArg Evu.triggered pe)

/-- An entry declared missing without a gap reset is a sample instant without an item (R7, R54). -/
theorem declareMissing_sampled (e : Strobe) (h : gapNow s (longerRun s) = false) : Sampled none s (declareMissing e s) := by
  have calm : gapNow (handMissing ⟨e.time, e.tq⟩ (missingNoted e s))
      (handMissing ⟨e.time, e.tq⟩ (missingNoted e s)).sif.missingRun = false := by
    have hi := (missingNoted_instants e s).trans (handMissing_instants ⟨e.time, e.tq⟩ (missingNoted e s))
    rwa [handMissing_run, gapNow, hi.gapReached, handMissing_sif, missingNoted_sif]
  rw [declareMissing_eq, judgeGap_of_no_gap _ calm]
  exact handMissing_sampled e s

/-- A gap reset leaves blank remaining (R55). -/
theorem judgeGap_blank (moment : Time) (s : State) (c : Fin 6) : ((judgeGap moment s).det.get c).blank = (s.det.get c).blank := by
  obtain ⟨-, e⟩ | ⟨-, e⟩ := judgeGap_cases moment s
  · rw [e, (onsetA6_blocks _ _).1, gapResetDetectors_det]
    split <;> rfl
  · rw [e]

/-- Blank remaining counts the missing instant, a gap reset at it or not (R52, R54). -/
theorem declareMissing_blank (e : Strobe) (s : State) (c : Fin 6) :
    ((declareMissing e s).det.get c).blank = (s.det.get c).blank - 1000 / s.sif.rate := by
  rw [declareMissing_eq, judgeGap_blank, (handMissing_sampled e s).blank]

/-! ### The instants that a step brings about -/

/-- A step with the occurrence at one of its instants is taken whole (log entry 2). -/
theorem stepInstant_of_mem {p : Instant → Bool} {via : InstantStep} {x : Instant} (hs : s.supply = .on)
    (hx : x ∈ instantsOf via s) (hp : p x = true) : stepInstant p via s = .next (settle (runInstant via s)) :=
  stepWhen_of_due hs (List.any_eq_true.mpr ⟨x, hx, hp⟩)

/-- The first instant of a delivery from the front is that of its front entry. -/
theorem frontInstants_head (hs : s.sif.strobes = e :: rest) (he : e.frame = some f) :
    ⟨e, withStrobes rest s⟩ ∈ frontInstants Config.strobeLimit s := by
  simp [frontInstants, hs, he]

/-- The frame of the front entry is stored in it and in no other (R4). -/
theorem storeFrame_front (hs : s.sif.strobes = e :: rest) (sequence : e.seq = f.seq) (behind : ∀ x ∈ rest, x.seq ≠ f.seq) :
    (storeFrame f s).sif.strobes = { e with frame := some f } :: rest := by
  have hm : rest.map (fun x => if x.seq = f.seq then { x with frame := some f } else x) = rest :=
    (List.map_congr_left (g := id) fun x hx => if_neg (behind x hx)).trans rest.map_id
  simp only [storeFrame, State.withSif_sif, hs, List.map_cons, if_pos sequence, hm]

/-- The arrival of the front entry's frame is one instant: the entry's with the frame in it (R4). -/
theorem frontFrame_instant (after : Nat) {bytes : List Byte} (h : FrontFrame bytes f e rest s) :
    ∃ w, Listed rest s w ∧ runInstant (.frame after bytes) s = deliver e f w ∧
      ⟨{ e with frame := some f }, w⟩ ∈ instantsOf (.frame after bytes) s := by
  have hu := passTime_elapses after s
  have hl : (passTime after s).sif.strobes = e :: rest := h.strobes
  have hw := hu.listed rest
  refine ⟨withStrobes rest (passTime after s), hw, ?run, ?mem⟩
  case run =>
    rw [runInstant, digitizerFrame_front h.decoded hl h.empty h.sequence fun x hx => (h.behind x hx).2]
    exact deliverFront_of_all_frameless ((deliver_list e f _).1.trans hw.kept.1) (fun x hx => (h.behind x hx).1) 3
  case mem =>
    have found : (passTime after s).sif.strobes.find? (·.seq == f.seq) = some e := by
      rw [hl]
      simp [h.sequence]
    have first := frontInstants_head (storeFrame_front hl h.sequence fun x hx => (h.behind x hx).2) rfl
    simp only [instantsOf, h.decoded, matchInstants, found, h.empty, Option.isSome_none, Bool.false_eq_true, if_false]
    exact first

/-- A strobe's push-out is the instant of the front entry and those of the entries that follow it with their frames (R2, R7). -/
theorem pushedOut_instants (h : FrontPushedOut e rest s) :
    ∃ w, Listed rest s w ∧
      runInstant .strobe s = placeStrobe (newStrobe s) (deliverFront Config.strobeLimit (declareMissing e w)) ∧
      instantsOf .strobe s = ⟨e, w⟩ :: frontInstants Config.strobeLimit (declareMissing e w) := by
  have hd : strobeDue s = true := decide_eq_true h.due
  have hu := runToStation_elapses s.tmb.strobeNext s
  have hl : (runToStation s.tmb.strobeNext s).sif.strobes = e :: rest := hu.samePath.sif ▸ h.strobes
  refine ⟨withStrobes rest (runToStation s.tmb.strobeNext s), hu.listed rest, ?run, ?instants⟩
  case run =>
    rw [runInstant, runStrobe, if_pos hd, strobeInstant_eq, newStrobe_elapsed hu, pushOut_of_full hl h.full,
      leave_of_frameless h.empty]
  case instants =>
    have full : ¬ (runToStation s.tmb.strobeNext s).sif.strobes.length < Config.strobeLimit := by
      simp [hl, h.full, Config.strobeLimit]
    simp only [instantsOf, if_pos hd, pushInstants, if_neg full]
    simp only [hl, Instant.after, leave_of_frameless h.empty]

/-- With no frame behind it, the push-out is the one instant of the front entry. -/
theorem pushedOut_instant (h : FrontPushedOut e rest s) (behind : ∀ x ∈ rest, x.frame = none) :
    ∃ w, Listed rest s w ∧ runInstant .strobe s = placeStrobe (newStrobe s) (declareMissing e w) ∧
      ⟨e, w⟩ ∈ instantsOf .strobe s := by
  obtain ⟨w, hw, run, instants⟩ := pushedOut_instants h
  rw [deliverFront_of_all_frameless ((declareMissing_list e w).1.trans hw.kept.1) behind] at run
  exact ⟨w, hw, run, by simp [instants]⟩

end Sys2Proof.Machine
end

section
/-!
PROOF. The counts of a detector that reach their ends (O12): the warm-up, the trigger timer and blank remaining, at a frame and at a
strobe.
-/

namespace Sys2Proof.Machine

variable {s t w : State} {e : Strobe} {rest : List Strobe} {f : DigFrame} {c : Fin 6}

/-! ### The warm-up (R47) -/

/-- The next usable sample completes the channel's warm-up. -/
structure LastOfWarmUp (c : Fin 6) (s : State) : Prop where
  warming : (s.det.get c).state = .warming
  later : (s.det.get c).awaiting = false
  clear : (s.det.get c).blank = 0
  last : 2 ^ (s.tables.channel.get c).b ≤ (s.det.get c).warm + 1

theorem LastOfWarmUp.congr (h : LastOfWarmUp c s) (det : t.det.get c = s.det.get c) (tables : t.tables = s.tables) :
    LastOfWarmUp c t := by
  obtain ⟨warming, later, clear, last⟩ := h
  exact ⟨by rwa [det], by rwa [det], by rwa [det], by rwa [det, tables]⟩

theorem withStrobes_det (l : List Strobe) (s : State) : (withStrobes l s).det = s.det := rfl

theorem withStrobes_evu (l : List Strobe) (s : State) : (withStrobes l s).evu = s.evu := rfl

theorem LastOfWarmUp.listed (h : LastOfWarmUp c s) (l : List Strobe) : LastOfWarmUp c (withStrobes l s) := h.congr rfl rfl

theorem not_limitMet_of_warming {entry : ChannelEntry} {rate : Nat} {d : Detector} (h : d.state = .warming) :
    ¬ LimitMet entry rate d := fun ⟨triggered, _⟩ => by simp [h] at triggered

/-- That sample leaves the detector ARMED and tests nothing. -/
theorem LastOfWarmUp.bank (h : LastOfWarmUp c s) (i : Six Int × Six Bool) :
    let r := (bankInstant (some i) s).get c
    r.det.state = .armed ∧ r.det.warm = (s.det.get c).warm + 1 ∧ r.change = none := by
  obtain ⟨warming, later, clear, last⟩ := h
  have on : (s.det.get c).state ≠ .off := by simp [warming]
  rw [bankInstant_get, Option.map_some,
    detectorInstant_of_tested on (not_limitMet_of_warming warming) later clear]
  dsimp only
  rw [ratioStage_of_warming (d := (s.det.get c).timed.averaged (s.tables.channel.get c) _ _) warming]
  exact ⟨if_pos last, rfl, rfl⟩

theorem LastOfWarmUp.sampled (h : LastOfWarmUp c s) {i : Six Int × Six Bool} (ht : Sampled (some i) s t) :
    (t.det.get c).state = .armed ∧ (t.det.get c).warm = (s.det.get c).warm + 1 ∧
      t.evu.triggered.get c = s.evu.triggered.get c := by
  obtain ⟨state, warm, change⟩ := h.bank i
  obtain ⟨-, hs, hw, -⟩ := unblanked_fields (ht.det c)
  exact ⟨hs.trans state, hw.trans warm, by rw [ht.marks, change, Option.getD_none]⟩

/-- The instant of a usable frame has the occurrence. -/
theorem LastOfWarmUp.warmsUp (h : LastOfWarmUp c s) (frame : e.frame = some f) (good : f.fault = false) :
    warmsUp c ⟨e, s⟩ = true := by
  obtain ⟨state, -⟩ := h.bank (f.samples, f.clips)
  simp [Machine.warmsUp, Instant.item, frame, good, h.warming, state]

/-- A missing instant without a gap reset leaves a detector in its warm-up as it is (R54). -/
theorem LastOfWarmUp.missing (h : LastOfWarmUp c s) (ht : Sampled none s t) (tables : t.tables = s.tables) :
    LastOfWarmUp c t ∧ (t.det.get c).warm = (s.det.get c).warm ∧
      t.evu.triggered.get c = s.evu.triggered.get c := by
  obtain ⟨warming, later, clear, last⟩ := h
  have hb : (bankInstant none s).get c = ⟨(s.det.get c).timed, none, none⟩ := by
    rw [bankInstant_get]
    exact detectorInstant_missing (by simp [warming]) (not_limitMet_of_warming warming)
  have hd := ht.det c
  have hm := ht.marks c
  rw [hb] at hd hm
  obtain ⟨⟨-, -, -, ha⟩, hs, hw, -⟩ := unblanked_fields hd
  exact ⟨⟨hs.trans warming, ha.trans later, by rw [ht.blank, clear, Nat.zero_sub], by rw [tables, hw]; exact last⟩, hw, hm⟩

/-! ### The trigger timer (R50) -/

/-- The trigger timer of the channel reaches its limit at the next instant. -/
abbrev LimitAt (c : Fin 6) (s : State) : Prop := LimitMet (s.tables.channel.get c) s.sif.rate (s.det.get c)

/-- Whatever the instant's item, its forced trigger-off is told to EVU. -/
theorem forcedOff_sampled {item : SampleItem} (h : LimitAt c s) (ht : Sampled item s t) :
    (t.det.get c).state = .armed ∧ (t.det.get c).rearm = true ∧ (t.det.get c).timer = 0 ∧
      t.evu.triggered.get c = false := by
  obtain ⟨state, rearm, timer, change⟩ := detectorInstant_of_limit h (item.map fun i => (i.1.get c, i.2.get c))
  rw [← bankInstant_get] at state rearm timer change
  obtain ⟨-, hs, -, hr, hx⟩ := unblanked_fields (ht.det c)
  exact ⟨hs.trans state, hr.trans rearm, hx.trans timer, by rw [ht.marks, change, Option.getD_some]⟩

theorem forcesOff_of_limit (h : LimitAt c s) (e : Strobe) : forcesOff c ⟨e, s⟩ = true := by
  obtain ⟨triggered, limit⟩ := h
  simp [forcesOff, triggered, limit]

/-! ### What the front entry's instant starts from -/

theorem Listed.rate (h : Listed rest s w) : w.sif.rate = s.sif.rate := by rw [h.sif]

theorem Listed.lastOfWarmUp (hw : Listed rest s w) (h : LastOfWarmUp c s) : LastOfWarmUp c w :=
  h.congr (by rw [hw.det]) hw.tables

theorem Listed.limitAt (hw : Listed rest s w) (h : LimitAt c s) : LimitAt c w := by
  rwa [LimitAt, hw.det, hw.tables, hw.rate]

/-- Blank remaining at or below the sample period runs out at the instant (R52). -/
theorem Listed.endsBlanking (hw : Listed rest s w) (running : 0 < (s.det.get c).blank)
    (last : (s.det.get c).blank ≤ 1000 / s.sif.rate) (e : Strobe) : endsBlanking c ⟨e, w⟩ = true := by
  simp [Machine.endsBlanking, State.periodMs, hw.det, hw.rate, running, last]

/-! ### The gap reset at the instant, and what the work that follows leaves -/

theorem gapNow_iff :
    gapNow s (longerRun s) = true ↔
      s.sif.gapSignalled = false ∧ s.tables.station.gapReset ≤ min 255 (s.sif.missingRun + 1) := by
  rw [gapNow, gapReached, Bool.and_eq_true, decide_eq_true_iff, Bool.not_eq_true', and_comm, longerRun]

theorem Listed.gapNow (hw : Listed rest s w) : gapNow w (Machine.longerRun w) = gapNow s (Machine.longerRun s) := by
  rw [Machine.gapNow, Machine.gapNow, gapReached, gapReached, hw.longerRun, hw.tables, hw.sif]

/-- The work that follows a step leaves a detector's state, counts and mark. -/
theorem settle_detector (s : State) (c : Fin 6) :
    ((settle s).det.get c).state = (s.det.get c).state ∧ ((settle s).det.get c).warm = (s.det.get c).warm ∧
      ((settle s).det.get c).rearm = (s.det.get c).rearm ∧ ((settle s).det.get c).timer = (s.det.get c).timer ∧
      (settle s).evu.triggered.get c = s.evu.triggered.get c := by
  obtain ⟨-, hs, hw, hr, hx⟩ := unblanked_fields ((settle_samePath s).detectors c)
  exact ⟨hs, hw, hr, hx, by rw [(settle_samePath s).triggered]⟩

/-! ### The occurrences at the front entry's frame -/

theorem warmUpComplete_at_frame (after : Nat) {bytes : List Byte} (h : FrontArrives bytes f e rest s)
    (last : LastOfWarmUp c s) :
    ∃ t, exec (.warmUpComplete c (.frame after bytes)) s = .next t ∧ (t.det.get c).state = .armed ∧
      (t.det.get c).warm = (s.det.get c).warm + 1 ∧ t.evu.triggered.get c = s.evu.triggered.get c := by
  obtain ⟨w, hw, run, mem⟩ := frontFrame_instant after h.toFrontFrame
  have lastw := hw.lastOfWarmUp last
  obtain ⟨state, warm, mark⟩ := lastw.sampled (deliver_sampled h.good e w)
  obtain ⟨ts, tw, -, -, tm⟩ := settle_detector (deliver e f w) c
  refine ⟨_, stepInstant_of_mem h.supply mem (lastw.warmsUp rfl h.good), ?_⟩
  rw [run, ts, tw, tm, state, warm, mark, hw.det, hw.evu]
  exact ⟨rfl, rfl, rfl⟩

theorem forcedTriggerOff_at_frame (after : Nat) {bytes : List Byte} (h : FrontArrives bytes f e rest s)
    (limit : LimitAt c s) :
    ∃ t, exec (.forcedTriggerOff c (.frame after bytes)) s = .next t ∧ (t.det.get c).state = .armed ∧
      (t.det.get c).rearm = true ∧ (t.det.get c).timer = 0 ∧ t.evu.triggered.get c = false := by
  obtain ⟨w, hw, run, mem⟩ := frontFrame_instant after h.toFrontFrame
  have limitw := hw.limitAt limit
  obtain ⟨state, rearm, timer, mark⟩ := forcedOff_sampled limitw (deliver_sampled h.good e w)
  obtain ⟨ts, -, tr, tx, tm⟩ := settle_detector (deliver e f w) c
  refine ⟨_, stepInstant_of_mem h.supply mem (forcesOff_of_limit limitw _), ?_⟩
  rw [run, ts, tr, tx, tm]
  exact ⟨state, rearm, timer, mark⟩

theorem blankingEnd_at_frame (after : Nat) {bytes : List Byte} (h : FrontArrives bytes f e rest s)
    (running : 0 < (s.det.get c).blank) (last : (s.det.get c).blank ≤ 1000 / s.sif.rate) :
    ∃ u, exec (.blankingEnd c (.frame after bytes)) s = .next (settle u) ∧ (u.det.get c).blank = 0 ∧
      ∀ c', (u.det.get c').blank = (s.det.get c').blank - 1000 / s.sif.rate := by
  obtain ⟨w, hw, run, mem⟩ := frontFrame_instant after h.toFrontFrame
  have blank (c' : Fin 6) : ((deliver e f w).det.get c').blank = (s.det.get c').blank - 1000 / s.sif.rate := by
    rw [(deliver_sampled h.good e w).blank, hw.det, hw.rate]
  refine ⟨_, stepInstant_of_mem h.supply mem (hw.endsBlanking running last _), ?_⟩
  rw [run]
  exact ⟨(blank c).trans (Nat.sub_eq_zero_of_le last), blank⟩

/-! ### The occurrences at a strobe that pushes the front entry out -/

/-- A warm-up that ends at the frame of the entry behind the one pushed out. -/
theorem warmUpComplete_at_follower {x : Strobe} (h : FrontPushedOut e (x :: rest) s) (frame : x.frame = some f)
    (good : f.fault = false) (behind : ∀ y ∈ rest, y.frame = none) (noGap : gapNow s (longerRun s) = false)
    (last : LastOfWarmUp c s) :
    ∃ t, exec (.warmUpComplete c .strobe) s = .next t ∧ (t.det.get c).state = .armed ∧
      (t.det.get c).warm = (s.det.get c).warm + 1 ∧ t.evu.triggered.get c = s.evu.triggered.get c := by
  obtain ⟨w, hw, run, instants⟩ := pushedOut_instants h
  obtain ⟨lastm, mw, mm⟩ := (hw.lastOfWarmUp last).missing (declareMissing_sampled e (hw.gapNow.trans noGap))
    (declareMissing_instants e w).tables
  have hm : (declareMissing e w).sif.strobes = x :: rest := (declareMissing_list e w).1.trans hw.kept.1
  have lastd : LastOfWarmUp c (withStrobes rest (declareMissing e w)) := lastm.listed rest
  have mem : ⟨x, withStrobes rest (declareMissing e w)⟩ ∈ instantsOf .strobe s := by
    rw [instants]
    exact List.mem_cons_of_mem _ (frontInstants_head hm frame)
  have delivered : deliverFront Config.strobeLimit (declareMissing e w) =
      deliver x f (withStrobes rest (declareMissing e w)) := by
    rw [deliverFront_of_frame 3 hm frame]
    exact deliverFront_of_all_frameless (deliver_list x f _).1 behind 3
  obtain ⟨state, warm, mark⟩ := lastd.sampled (deliver_sampled good x _)
  obtain ⟨ts, tw, -, -, tm⟩ := settle_detector
    (placeStrobe (newStrobe s) (deliver x f (withStrobes rest (declareMissing e w)))) c
  refine ⟨_, stepInstant_of_mem h.supply mem (lastd.warmsUp frame good), ?_⟩
  rw [run, delivered, ts, tw, tm, placeStrobe_det, placeStrobe_evu, state, warm, mark, withStrobes_det, withStrobes_evu, mw, mm,
    hw.det, hw.evu]
  exact ⟨rfl, rfl, rfl⟩

/-- The forced trigger-off at a missing instant, which a gap reset at that instant follows with the re-warm (R50, R55). -/
theorem forcedTriggerOff_at_strobe (h : FrontPushedOut e rest s) (behind : ∀ x ∈ rest, x.frame = none)
    (limit : LimitAt c s) :
    ∃ t, exec (.forcedTriggerOff c .strobe) s = .next t ∧ t.evu.triggered.get c = false ∧ (t.det.get c).timer = 0 ∧
      (gapNow s (longerRun s) = true → (t.det.get c).state = .warming ∧ (t.det.get c).rearm = false) ∧
      (gapNow s (longerRun s) = false → (t.det.get c).state = .armed ∧ (t.det.get c).rearm = true) := by
  obtain ⟨w, hw, run, mem⟩ := pushedOut_instant h behind
  have limitw := hw.limitAt limit
  obtain ⟨ts, -, tr, tx, tm⟩ := settle_detector (placeStrobe (newStrobe s) (declareMissing e w)) c
  refine ⟨_, stepInstant_of_mem h.supply mem (forcesOff_of_limit limitw _), ?_⟩
  rw [run, ts, tr, tx, tm, placeStrobe_det, placeStrobe_evu, ← hw.gapNow]
  cases gap : gapNow w (longerRun w) with
  | true =>
    obtain ⟨-, rewarmed, told⟩ := declareMissing_rewarms e gap c
    obtain ⟨state, -, rearm, timer⟩ := rewarmed (by simp [limitw.1])
    exact ⟨told limitw.1, timer, fun _ => ⟨state, rearm⟩, fun no => nomatch no⟩
  | false =>
    obtain ⟨state, rearm, timer, mark⟩ := forcedOff_sampled limitw (declareMissing_sampled e gap)
    exact ⟨mark, timer, fun no => (nomatch no), fun _ => ⟨state, rearm⟩⟩

theorem blankingEnd_at_strobe (h : FrontPushedOut e rest s) (behind : ∀ x ∈ rest, x.frame = none)
    (running : 0 < (s.det.get c).blank) (last : (s.det.get c).blank ≤ 1000 / s.sif.rate) :
    ∃ u, exec (.blankingEnd c .strobe) s = .next (settle u) ∧ (u.det.get c).blank = 0 ∧
      ∀ c', (u.det.get c').blank = (s.det.get c').blank - 1000 / s.sif.rate := by
  obtain ⟨w, hw, run, mem⟩ := pushedOut_instant h behind
  have blank (c' : Fin 6) : ((declareMissing e w).det.get c').blank = (s.det.get c').blank - 1000 / s.sif.rate := by
    rw [declareMissing_blank, hw.det, hw.rate]
  refine ⟨_, stepInstant_of_mem h.supply mem (hw.endsBlanking running last _), ?_⟩
  rw [run, placeStrobe_det]
  exact ⟨(blank c).trans (Nat.sub_eq_zero_of_le last), blank⟩

/-! ### The statement -/

/-- Settles O12: each count at the instant of the front entry, whose frame arrives or which a strobe pushes out. -/
theorem detectorCountsReachTheirEnds : Obligations.DetectorCountsReachTheirEnds := by
  refine ⟨fun c after bytes f e rest s h warming later clear last =>
      warmUpComplete_at_frame after h ⟨warming, later, clear, last⟩,
    fun c after bytes f e rest s h triggered limit => forcedTriggerOff_at_frame after h ⟨triggered, limit⟩,
    fun c after bytes f e rest s h running last => blankingEnd_at_frame after h running last,
    fun c f e x rest s h frame good behind below warming later clear last => ?follower,
    fun c e rest s h behind => ⟨fun triggered limit => ?forced, blankingEnd_at_strobe h behind⟩⟩
  case follower =>
    have noGap : gapNow s (longerRun s) = false := by
      rw [← Bool.not_eq_true, gapNow_iff]
      rintro ⟨first, reached⟩
      obtain signalled | short := below
      · simp [first] at signalled
      · omega
    exact warmUpComplete_at_follower h frame good behind noGap ⟨warming, later, clear, last⟩
  case forced =>
    obtain ⟨t, step, mark, timer, gap, noGap⟩ := forcedTriggerOff_at_strobe h behind ⟨triggered, limit⟩
    rw [← Bool.not_eq_true] at noGap
    rw [gapNow_iff] at gap noGap
    exact ⟨t, step, mark, timer, gap, noGap⟩

end Sys2Proof.Machine
end

section
/-!
SUPPORT. What the work outside EVU and the segments leaves of them: `Stands r s` says that `s` has `r`'s EVU but for the
blanked-during flags, and `r`'s WFS but for the retrieval job and for holds that have ended. One law per operation.
-/

namespace Sys2Proof.Machine

variable {r s t : State}

/-- `s` has `r`'s EVU but for the blanked-during flags (R76), and `r`'s WFS but for the job and for holds that have ended (R90,
R91). -/
def Stands (r s : State) : Prop :=
  { s.evu with table := s.evu.table.map EventRecord.unblanked } =
      { r.evu with table := r.evu.table.map EventRecord.unblanked } ∧
    { s.wfs with holds := [], job := none } = { r.wfs with holds := [], job := none } ∧
      (s.wfs.holds.map (·.event)).Sublist (r.wfs.holds.map (·.event))

theorem Stands.refl (s : State) : Stands s s := ⟨rfl, rfl, List.Sublist.refl _⟩

theorem Stands.trans (h : Stands r s) (h' : Stands s t) : Stands r t := by
  obtain ⟨evu, wfs, holds⟩ := h
  obtain ⟨evu', wfs', holds'⟩ := h'
  exact ⟨evu'.trans evu, wfs'.trans wfs, holds'.trans holds⟩

/-! ### Views that are finer -/

theorem Stands.of_blocks (h : Stands r s) (evu : t.evu = s.evu) (wfs : t.wfs = s.wfs) : Stands r t := by
  unfold Stands at *
  rwa [evu, wfs]

theorem Stands.alerts (h : Stands r s) (a : Alerts s t) : Stands r t :=
  have ⟨_, evu, wfs⟩ := a.blocks
  h.of_blocks evu wfs

theorem Stands.packs (h : Stands r s) (p : Packs s t) : Stands r t :=
  have ⟨_, _, evu, _⟩ := p.blocks
  h.of_blocks evu p.wfs

theorem Stands.switching (h : Stands r s) (b : t.butSwitching = s.butSwitching) : Stands r t := by
  have ⟨_, _, _, _, wfs, _⟩ := butSwitching_fields b
  refine h.trans ⟨butSwitching_evu b, ?_, ?_⟩
  · rw [wfs]
  · rw [wfs]

theorem Stands.besides (h : Stands r s) (b : t.beside = s.beside) : Stands r t := by
  obtain ⟨-, -, wfs, -, -, -, -, -, evu, -⟩ := beside_fields b
  refine h.trans ⟨evu, ?_, ?_⟩
  · rw [wfs]
  · rw [wfs]

/-! ### Changes of one block -/

@[simp] theorem withLda_stands (f : Lda → Lda) : Stands r (s.withLda f) ↔ Stands r s := .rfl
@[simp] theorem withTmb_stands (f : Tmb → Tmb) : Stands r (s.withTmb f) ↔ Stands r s := .rfl
@[simp] theorem withBmn_stands (f : Bmn → Bmn) : Stands r (s.withBmn f) ↔ Stands r s := .rfl
@[simp] theorem withHzc_stands (f : Hzc → Hzc) : Stands r (s.withHzc f) ↔ Stands r s := .rfl
@[simp] theorem withLnk_stands (f : Lnk → Lnk) : Stands r (s.withLnk f) ↔ Stands r s := .rfl
@[simp] theorem withAlu_stands (f : Alu → Alu) : Stands r (s.withAlu f) ↔ Stands r s := .rfl
@[simp] theorem withSif_stands (f : Sif → Sif) : Stands r (s.withSif f) ↔ Stands r s := .rfl
@[simp] theorem passTime_stands (dt : Nat) : Stands r (passTime dt s) ↔ Stands r s := .rfl
@[simp] theorem queueNotice_stands (b : NoticeBody) (d : Nat) : Stands r (queueNotice b d s) ↔ Stands r s := .rfl

@[simp] theorem count_stands (k : Fin 40) (h : Stands r s) : Stands r (count k s) := h.alerts (count_alerts k s)

@[simp] theorem settle_stands (h : Stands r s) : Stands r (settle s) := h.switching (settle_butSwitching s)

@[simp] theorem switchOff_stands (l : Fin 8) (h : Stands r s) : Stands r (switchOff l s) :=
  h.switching (switchOff_butSwitching l s)

@[simp] theorem placeRequest_stands (l : Fin 8) (x : Request) (h : Stands r s) : Stands r (placeRequest l x s) :=
  h.switching (placeRequest_butSwitching l x s)

@[simp] theorem refreshRequests_stands : Stands r (refreshRequests s) ↔ Stands r s := .rfl

@[simp] theorem withdrawRequest_stands (l : Fin 8) (h : Stands r s) : Stands r (withdrawRequest l s) :=
  h.switching (withdrawRequest_butSwitching l s)

@[simp] theorem reportCondition_stands (cls : Fin 8) (value : Bool) (p : AlertPayload) (h : Stands r s) :
    Stands r (reportCondition cls value p s) := h.alerts (reportCondition_alerts cls value p s)

/-! ### The retrieval job and the holds (R90, R91, R95) -/

@[simp] theorem cancelJob_stands (c : CancelCause) (h : Stands r s) : Stands r (cancelJob c s) := by
  unfold cancelJob
  split <;> exact h

@[simp] theorem cancelJobOn_stands (n : Nat) (c : CancelCause) (h : Stands r s) : Stands r (cancelJobOn n c s) := by
  unfold cancelJobOn
  repeat' split
  all_goals simp [h]

@[simp] theorem advanceJob_stands (h : Stands r s) : Stands r (advanceJob s) := by
  unfold advanceJob
  split <;> exact h

/-- The holds of a tick are those that have not ended (R91). -/
@[simp] theorem wfsTick_stands (h : Stands r s) : Stands r (wfsTick s) := by
  obtain ⟨q, e⟩ := wfsTick_eq s
  refine h.trans ?_
  rw [e]
  refine ⟨rfl, rfl, ?_⟩
  rw [List.map_map]
  exact List.filter_sublist.map _

/-! ### HZC -/

@[simp] theorem inrushWrite_stands (old : StationTable) (h : Stands r s) : Stands r (inrushWrite old s) := by
  unfold inrushWrite
  dsimp only
  split <;> exact h

@[simp] theorem reportA5_stands (first : Bool) (before : Hzc) (h : Stands r s) : Stands r (reportA5 first before s) := by
  have zones := List.foldlRecOn (motive := Stands r) zonesInOrder
    (fun s z => if (s.hzc.zones.get z).below && !(before.zones.get z).below then onsetA5 (zonePayload z s) s else s) h
    fun _ hs z _ => by split <;> simp [onsetA5, hs]
  have sensors := List.foldlRecOn (motive := Stands r) [0, 1, 2, 3]
    (fun s t =>
      if s.hzc.faultySensors.get t && !before.faultySensors.get t then onsetA5 (.temperature (.sensor t) none) s
      else s) zones
    fun _ hs t _ => by split <;> simp [onsetA5, hs]
  unfold reportA5
  dsimp only
  split
  · exact sensors
  · exact reportCondition_stands _ _ _ sensors

@[simp] theorem judgeAndRemember_stands (temps : Four (Option Int)) (h : Stands r s) :
    Stands r (judgeAndRemember temps s) :=
  List.foldlRecOn _ _ (reportA5_stands _ _ h) fun _ hs z _ => by rw [rememberOne_eq]; exact hs

@[simp] theorem judgeZones_stands (h : Stands r s) : Stands r (judgeZones s) := by
  unfold judgeZones
  split <;> simp [h]

/-! ### TMB -/

@[simp] theorem judgeA3_stands (h : Stands r s) : Stands r (judgeA3 s) := h.besides (judgeA3_beside s)
@[simp] theorem dutyRequest_stands (h : Stands r s) : Stands r (dutyRequest s) := h.besides (dutyRequest_beside s)
@[simp] theorem dutyRelease_stands (h : Stands r s) : Stands r (dutyRelease s) := h.besides (dutyRelease_beside s)

@[simp] theorem judgeWay_stands (h : Stands r s) : Stands r (judgeWay s) := by
  unfold judgeWay
  dsimp only
  repeat' split
  all_goals simp [h]

@[simp] theorem lnkTick_stands (h : Stands r s) : Stands r (lnkTick s) := h.of_blocks rfl rfl

@[simp] theorem tickBlocks_stands (h : Stands r s) : Stands r (tickBlocks s) :=
  lnkTick_stands ((wfsTick_stands (h.besides (tmbTick_beside s))).alerts (aluTick_alerts _))

@[simp] theorem stepOver_stands (label ns : Nat) (h : Stands r s) : Stands r (stepOver label ns s) := by
  obtain ⟨c, q, e⟩ := stepOver_eq label ns s
  rw [e]
  exact h

/-- A firing keeps what stands, if what its landing does keeps it. -/
theorem fireOne_stands {land : Bool → State → State} (hl : ∀ b {u}, Stands r u → Stands r (land b u))
    (entered : Nat) (i : Fin 3) (h : Stands r s) : Stands r (fireOne land entered i s) := by
  have fired : Stands r (count 39 (endEntry i .fired s)) := count_stands 39 h
  unfold fireOne
  dsimp only
  split
  · exact fired
  · exact fired
  · rw [fireDelete_cases]
    split
    · exact hl false (stepOver_stands _ _ fired)
    · exact stepOver_stands _ _ fired
  · unfold fireStep
    split
    · exact fired
    · dsimp only
      split
      · exact hl true (stepOver_stands _ _ fired)
      · exact stepOver_stands _ _ fired

theorem fireDue_stands {land : Bool → State → State} (hl : ∀ b {u}, Stands r u → Stands r (land b u))
    (target : Nat) (h : Stands r s) : Stands r (fireDue land target s) :=
  List.foldlRecOn (motive := fun x : Nat × State => Stands r x.2) entriesInOrder _ h fun _ hs i _ => by
    unfold fireNext
    split
    · exact fireOne_stands hl _ i hs
    · exact hs

@[simp] theorem crossBoundary_stands (d : Nat) (ticks : Bool) (h : Stands r s) : Stands r (crossBoundary d ticks s) := by
  induction d generalizing ticks s with
  | zero =>
    unfold crossBoundary
    split <;> simp [h]
  | succ d ih =>
    have fired := fireDue_stands (fun b _ => ih b) s.tmb.label h
    unfold crossBoundary
    dsimp only
    split
    · exact tickBlocks_stands fired
    · exact fired

@[simp] theorem stepTo_stands (label ns : Nat) (h : Stands r s) : Stands r (stepTo label ns s) := by
  have counted := count_stands 39 (stepOver_stands label ns h)
  unfold stepTo
  dsimp only
  split
  · exact crossBoundary_stands _ true counted
  · exact counted

@[simp] theorem secondBoundary_stands (h : Stands r s) : Stands r (secondBoundary s) := by
  have stands : Stands r (onNextBoundary s) := h
  unfold secondBoundary enterBoundary
  dsimp only
  repeat' split
  all_goals simp [h, stands]

@[simp] theorem stepToEdge_stands (label : Nat) (h : Stands r s) : Stands r (stepToEdge label s) := by
  unfold stepToEdge
  split <;> simp [h]

@[simp] theorem acquireEdge_stands (e : Int) (label lockCount : Nat) (h : Stands r s) :
    Stands r (acquireEdge e label lockCount s) := by
  unfold acquireEdge
  dsimp only
  repeat' split
  all_goals simp [h]

@[simp] theorem handleEdge_stands (e : Int) (label message : Nat) (h : Stands r s) :
    Stands r (handleEdge e label message s) := by
  unfold handleEdge
  dsimp only
  repeat' split
  all_goals simp [h]

@[simp] theorem acceptEdge_stands (e : Int) (label : Nat) (m : TimeMessage) (h : Stands r s) :
    Stands r (acceptEdge e label m s) := by
  have judged (f : Tmb → Tmb) :=
    judgeA3_stands (handleEdge_stands e label m.label ((withTmb_stands f).2 (count_stands 37 h)))
  unfold acceptEdge
  dsimp only
  split
  · exact judged _
  · exact stepTo_stands _ _ (judged _)

@[simp] theorem ppsEdge_stands (h : Stands r s) : Stands r (ppsEdge s) := by
  unfold ppsEdge
  dsimp only
  repeat' split
  all_goals simp [h]

@[simp] theorem timeMessage_stands (bytes : List Byte) (h : Stands r s) : Stands r (timeMessage bytes s) := by
  unfold timeMessage
  split <;> exact h

/-! ### BMN and the shed level -/

@[simp] theorem gateStage_stands (h : Stands r s) : Stands r (gateStage s) := by
  unfold gateStage
  dsimp only
  repeat' split
  all_goals simp [h]

@[simp] theorem lnkShed_stands (wasFull : Bool) (h : Stands r s) : Stands r (lnkShed wasFull s) := by
  unfold lnkShed
  split <;> exact h

@[simp] theorem handLevel_stands (wasFull : Bool) (h : Stands r s) : Stands r (handLevel wasFull s) := by
  have listens : Stands r (judgeListening (lnkShed wasFull s)) := lnkShed_stands wasFull h
  have judged := (judgeZones_stands (judgeWay_stands listens)).alerts (aluShed_alerts _)
  unfold handLevel
  dsimp only
  split
  · exact cancelJob_stands _ judged
  · exact judged

@[simp] theorem levelStage_stands (before : Bool) (h : Stands r s) : Stands r (levelStage before s) := by
  unfold levelStage changeLevel reportA4
  dsimp only
  repeat' split
  all_goals simp [h]

@[simp] theorem scanToCut_stands (x : MonitorInputs) (h : Stands r s) : Stands r (scanToCut x s) :=
  (withBmn_stands _).2 (gateStage_stands ((withBmn_stands _).2 h))

@[simp] theorem batteryWrite_stands (h : Stands r s) : Stands r (batteryWrite s) := by
  obtain ⟨q, x, e⟩ := batteryWrite_eq s
  rw [e]
  exact h

/-! ### LNK -/

@[simp] theorem streamWrite_stands (old : Six ChannelEntry) (h : Stands r s) : Stands r (streamWrite old s) := by
  have closed := h.packs (closeData_packs s)
  unfold streamWrite
  dsimp only
  repeat' split
  · exact h
  · exact closed
  · exact closed

@[simp] theorem startSending_stands (f : UpFrame) : Stands r (startSending f s) ↔ Stands r s := .rfl

@[simp] theorem beginFrame_stands (h : Stands r s) : Stands r (beginFrame s) := by
  unfold beginFrame sendAlert
  repeat' split
  all_goals simp [h]

@[simp] theorem completeTransmission_stands (h : Stands r s) : Stands r (completeTransmission s) := count_stands 26 h

/-! ### CMD -/

@[simp] theorem saveComplete_stands (readBack : List Byte) (h : Stands r s) : Stands r (saveComplete readBack s) := by
  unfold saveComplete
  repeat' split
  all_goals exact h

@[simp] theorem saveNoAnswer_stands (written : Nat) (h : Stands r s) : Stands r (saveNoAnswer written s) := by
  unfold saveNoAnswer
  split <;> exact h

theorem eachIndex_stands {f : Nat → State → State} (hf : ∀ i {u}, Stands r u → Stands r (f i u)) (first n : Nat)
    (h : Stands r s) : Stands r (eachIndex f first n s) := eachIndex_keeps (Q := Stands r) (fun i _ hu => hf i hu) first n h

/-- What a table write does in the blocks, unless it writes CHANNEL entries (R177). -/
theorem actWrite_stands {id : TableId} (hc : id ≠ .channel) (first n : Nat) (old : Tables) (h : Stands r s) :
    Stands r (actWrite id first n old s) := by
  cases id with
  | station =>
    have closed : Stands r (closeFull (inrushWrite old.station s)) := (inrushWrite_stands _ h).packs (closeFull_packs _)
    exact closed
  | channel => exact absurd rfl hc
  | time => exact judgeWay_stands h
  | alert => exact eachIndex_stands (fun i _ hu => hu.alerts (aluWrite_alerts _ _ _)) first n h
  | load =>
    unfold actWrite
    dsimp only
    split
    · exact judgeZones_stands h
    · exact h
  | zone => exact judgeZones_stands h
  | battery => exact judgeZones_stands (batteryWrite_stands h)
  | event | correction | countermask => exact h

theorem cmdRelease_stands (n centre : Nat) (h : Stands r s) : Stands r (cmdRelease n centre s).state := by
  unfold cmdRelease
  split
  · split
    · exact h
    · refine cancelJobOn_stands n .release (h.trans ⟨rfl, rfl, ?_⟩)
      exact List.filter_sublist.map _
  · exact h

theorem cmdWaveRequest_stands (n offset count centre : Nat) (tag : Byte) (h : Stands r s) :
    Stands r (cmdWaveRequest n offset count centre tag s).state := by
  unfold cmdWaveRequest startJob
  dsimp only
  repeat' split
  all_goals exact h

theorem cmdWaveCancel_stands (centre : Nat) (h : Stands r s) : Stands r (cmdWaveCancel centre s).state := by
  unfold cmdWaveCancel
  repeat' split
  · exact h
  · exact h
  · exact cancelJob_stands _ h

theorem cmdAlertAck_stands (id centre : Nat) (h : Stands r s) : Stands r (cmdAlertAck id centre s).state := by
  unfold cmdAlertAck
  dsimp only
  repeat' split
  · exact h
  · exact h
  · exact (count_stands 19 ((withAlu_stands _).2 h)).alerts (startRecheck_alerts _ _)
  · exact h

theorem cmdTimeSet_stands (label fraction : Nat) (h : Stands r s) : Stands r (cmdTimeSet label fraction s).state := by
  unfold cmdTimeSet
  split
  · exact judgeA3_stands (stepTo_stands _ _ h)
  · exact h

theorem cmdLoadTest_stands (load seconds : Nat) (h : Stands r s) : Stands r (cmdLoadTest load seconds s).state := by
  unfold cmdLoadTest
  dsimp only
  repeat' split
  · exact h
  · exact refreshRequests_stands.2 (placeRequest_stands _ _ h)
  · exact h

theorem cmdSave_stands (centre : Nat) (h : Stands r s) : Stands r (cmdSave centre s).state := by
  unfold cmdSave
  split <;> exact h

theorem cmdCounterClear_stands (first n : Nat) (h : Stands r s) : Stands r (cmdCounterClear first n s).state := by
  unfold cmdCounterClear
  generalize clearCounters first n s.cnt = v
  split <;> exact h

end Sys2Proof.Machine
end

section
/-!
SUPPORT. What the waveform store makes of the Event Table (R81 to R88): the waveform fields and truncated flags of records, and
no more. `Waves s t` says so, for each operation of WFS but the ticks and the commands.
-/

namespace Sys2Proof.Machine

variable {s t : State}

/-- A record without what WFS writes in it: the waveform fields and the truncated flag. -/
def EventRecord.waveless (r : EventRecord) : EventRecord := { r with wave := ⟨none, 0, .kept⟩, truncated := false }

/-- `t` is `s` but for WFS, the records' waveform fields and truncated flags, the counters K15 and K16, and the notice queue; the
holds are `s`'s. -/
def Waves (s t : State) : Prop :=
  ∃ (l : List EventRecord) (w : Wfs) (v : Vector (BitVec 32) 40) (q : List Notice),
    t = { s with evu := { s.evu with table := l }, wfs := w, cnt := v, lnk := { s.lnk with notices := q } } ∧
      l.map EventRecord.waveless = s.evu.table.map EventRecord.waveless ∧ w.holds = s.wfs.holds ∧
        ∀ k : Fin 40, k ≠ 15 → k ≠ 16 → v[k] = s.cnt[k]

theorem Waves.refl (s : State) : Waves s s := ⟨_, _, _, _, rfl, rfl, rfl, fun _ _ _ => rfl⟩

theorem Waves.trans {u : State} (h : Waves s t) (h' : Waves t u) : Waves s u := by
  obtain ⟨l, w, c, q, rfl, records, holds, counters⟩ := h
  obtain ⟨l', w', c', q', rfl, records', holds', counters'⟩ := h'
  exact ⟨l', w', c', q', rfl, records'.trans records, holds'.trans holds,
    fun k h15 h16 => (counters' k h15 h16).trans (counters k h15 h16)⟩

/-- What is read of the result: EVU but for the table, the records but for what WFS writes, the holds, and the other blocks. -/
theorem Waves.fields (h : Waves s t) :
    t.evu.table.map EventRecord.waveless = s.evu.table.map EventRecord.waveless ∧
      { t.evu with table := s.evu.table } = s.evu ∧ t.wfs.holds = s.wfs.holds ∧ t.alu = s.alu ∧ t.det = s.det ∧
        t.tables = s.tables ∧ ∀ k : Fin 40, k ≠ 15 → k ≠ 16 → t.cnt[k] = s.cnt[k] := by
  obtain ⟨l, w, c, q, rfl, records, holds, counters⟩ := h
  exact ⟨records, rfl, holds, rfl, rfl, rfl, counters⟩

/-- A change of WFS that leaves the holds. -/
theorem withWfs_waves (f : Wfs → Wfs) (s : State) (hf : (f s.wfs).holds = s.wfs.holds := by rfl) : Waves s (s.withWfs f) :=
  ⟨_, _, _, s.lnk.notices, rfl, rfl, hf, fun _ _ _ => rfl⟩

theorem updateSegment_waves (i : Nat) (f : Segment → Segment) (s : State) : Waves s (updateSegment i f s) :=
  withWfs_waves _ s

/-- A change of records in what WFS writes. -/
theorem updateRecord_waves (n : Nat) {f : EventRecord → EventRecord} (hf : ∀ r, (f r).waveless = r.waveless) (s : State) :
    Waves s (updateRecord n f s) := by
  refine ⟨_, _, _, s.lnk.notices, rfl, ?_, rfl, fun _ _ _ => rfl⟩
  rw [List.map_map]
  refine List.map_congr_left fun r _ => ?_
  rw [Function.comp]
  split
  · exact hf r
  · rfl

theorem updateWave_waves (n : Nat) (f : Waveform → Waveform) (s : State) : Waves s (updateWave n f s) :=
  updateRecord_waves n (f := fun r => { r with wave := f r.wave }) (fun _ => rfl) s

theorem count_waves {k : Fin 40} (hk : k = 15 ∨ k = 16) (s : State) : Waves s (count k s) := by
  obtain ⟨q, -, e⟩ := count_eq k s
  have counters (j : Fin 40) : j ≠ 15 → j ≠ 16 → (s.cnt.set k (s.cnt[k] + 1))[j] = s.cnt[j] := fun h15 h16 => by
    rw [← count_cnt, count_getElem, if_neg]
    rintro rfl
    exact hk.elim h15 h16
  exact ⟨_, _, _, q, e, rfl, rfl, counters⟩

theorem cancelJobOn_waves (n : Nat) (c : CancelCause) (s : State) : Waves s (cancelJobOn n c s) := by
  obtain ⟨q, e⟩ := cancelJobOn_eq n c s
  exact ⟨_, _, _, q, e, rfl, rfl, fun _ _ _ => rfl⟩

theorem releaseWave_waves (n : Nat) (s : State) : Waves s (releaseWave n s) :=
  ((withWfs_waves _ s).trans (updateWave_waves _ _ _)).trans (cancelJobOn_waves _ _ _)

theorem markKept_waves (i n : Nat) (s : State) : Waves s (markKept i n s) :=
  (updateSegment_waves _ _ s).trans (updateWave_waves _ _ _)

theorem markPartial_waves (i n : Nat) (s : State) : Waves s (markPartial i n s) :=
  (((updateSegment_waves i _ s).trans (updateRecord_waves n (f := fun r =>
    { r with truncated := true, wave := { r.wave with state := .partly } }) (fun _ => rfl) _)).trans
      (withWfs_waves (fun w => { w with claim := none }) _)).trans (count_waves (.inl rfl) _)

theorem keepSegment_waves (i n : Nat) (s : State) : Waves s (keepSegment i n s) := by
  unfold keepSegment
  split
  · exact markKept_waves i n s
  · split
    · exact (((releaseWave_waves _ s).trans (updateWave_waves _ _ _)).trans (count_waves (.inr rfl) _)).trans
        (markKept_waves _ _ _)
    · exact markPartial_waves i n s

theorem keepEach_waves (n : Nat) (l : List Nat) (s : State) : Waves s (keepEach n l s) := by
  induction l generalizing s with
  | nil => exact .refl s
  | cons i l ih =>
    unfold keepEach
    dsimp only
    split
    · exact (keepSegment_waves i n s).trans (ih _)
    · exact keepSegment_waves i n s

theorem keepPreEvent_waves (n : Nat) (t : Time) (s : State) : Waves s (keepPreEvent n t s) := by
  have claimed := (updateWave_waves n (fun _ => ⟨none, 0, .kept⟩) s).trans
    (withWfs_waves (fun w => { w with claim := some n }) _)
  unfold keepPreEvent
  dsimp only
  repeat' split
  · exact claimed
  · exact claimed.trans (keepEach_waves _ _ _)
  · exact claimed
  · exact claimed.trans (keepEach_waves _ _ _)

theorem takeSegment_waves (s : State) : Waves s (takeSegment s) := by
  unfold takeSegment
  split
  · exact .refl s
  · exact (updateSegment_waves _ _ s).trans (withWfs_waves _ _)

theorem finishSegment_waves (s : State) : Waves s (finishSegment s) := by
  have freed (i : Nat) (g : Segment → Segment) : Waves s (updateSegment i g (s.withWfs fun w => { w with writer := none })) :=
    (withWfs_waves _ s).trans (updateSegment_waves _ _ _)
  unfold finishSegment
  split
  · exact .refl s
  · dsimp only
    split
    · exact freed _ _
    · split
      · exact (freed _ _).trans (keepSegment_waves _ _ _)
      · exact freed _ _

theorem writeFrame_waves (d : Delivered) (s : State) : Waves s (writeFrame d s) := by
  have taken : Waves s (if s.wfs.writer.isNone then takeSegment s else s) := by
    split
    · exact takeSegment_waves s
    · exact .refl s
  refine taken.trans ?_
  unfold writeFrame
  generalize (if s.wfs.writer.isNone then takeSegment s else s) = v
  dsimp only
  split
  · exact .refl v
  · split
    · exact ((updateSegment_waves _ _ v).trans (finishSegment_waves _)).trans (takeSegment_waves _)
    · exact updateSegment_waves _ _ v

theorem wfsRestart_waves (s : State) : Waves s (wfsRestart s) := by
  have ended (u : State) : Waves u (u.withWfs fun w => { w with claim := none, job := none }) := withWfs_waves _ u
  unfold wfsRestart
  dsimp only
  split
  · exact ended s
  · split
    · exact ended s
    · exact (finishSegment_waves s).trans (ended _)

end Sys2Proof.Machine
end

section
/-!
SUPPORT. The Event Table's invariant (R67, R68, R89): what it is read from, and each operation of EVU and of the sample path that
keeps it.
-/

namespace Sys2Proof.Machine

variable {s t : State}

/-! ### What the invariant is read from -/

theorem pairwise_numbers {l : List EventRecord} :
    (l.Pairwise fun a b => a.number ≠ b.number) ↔ (l.map (·.number)).Nodup :=
  List.pairwise_map.symm

/-- With the same numbers in the table, the same next number and no new hold, what is left is the part about the event in
progress. -/
theorem EventInv.of_numbers (h : EventInv s) (numbers : t.evu.table.map (·.number) = s.evu.table.map (·.number))
    (next : t.evu.nextNumber = s.evu.nextNumber)
    (holds : (t.wfs.holds.map (·.event)).Sublist (s.wfs.holds.map (·.event)))
    (open_ : ∀ r ∈ t.evu.table, r.state ≠ .closed → t.evu.current = some r.number)
    (current : ∀ n ∈ t.evu.current, ∃ r ∈ t.evu.table, r.number = n ∧ r.state ≠ .closed)
    (idle : t.evu.phase = .idle ↔ t.evu.current = none) : EventInv t where
  records := by simpa using (congrArg List.length numbers).le.trans (by simpa using h.records)
  numbers := pairwise_numbers.mpr (numbers ▸ pairwise_numbers.mp h.numbers)
  next r hr := by
    have mem : r.number ∈ s.evu.table.map (·.number) := numbers ▸ List.mem_map_of_mem hr
    obtain ⟨r', hr', e⟩ := List.mem_map.mp mem
    rw [next, ← e]
    exact h.next r' hr'
  range := by rw [next]; exact h.range
  open_ := open_
  current := current
  idle := idle
  holds := by simpa using holds.length_le.trans (by simpa using h.holds)
  held x hx := by
    obtain ⟨y, hy, event⟩ := List.mem_map.mp (holds.subset (List.mem_map_of_mem hx))
    obtain ⟨r, hr, number⟩ := h.held y hy
    have mem : r.number ∈ t.evu.table.map (·.number) := numbers ▸ List.mem_map_of_mem hr
    obtain ⟨r', hr', e⟩ := List.mem_map.mp mem
    exact ⟨r', hr', by rw [e, number, event]⟩
  one := List.pairwise_map.mp ((List.pairwise_map.mpr h.one).sublist holds)

/-- What the invariant reads of a record. -/
def EventRecord.entry (r : EventRecord) : Nat × RecordState := (r.number, r.state)

/-- An entry of a mapped table is one of the table it was mapped from. -/
theorem mem_of_entries {l l' : List EventRecord} (h : l.map EventRecord.entry = l'.map EventRecord.entry) {r : EventRecord}
    (hr : r ∈ l) : ∃ r' ∈ l', r'.number = r.number ∧ r'.state = r.state := by
  have mem : r.entry ∈ l'.map EventRecord.entry := h ▸ List.mem_map_of_mem hr
  obtain ⟨r', hr', e⟩ := List.mem_map.mp mem
  exact ⟨r', hr', congrArg Prod.fst e, congrArg Prod.snd e⟩

/-- A projection of tables that are the same under a finer one. -/
theorem map_of_finer {α β : Type} {p : EventRecord → α} {g : EventRecord → β} {q : β → α} (hg : ∀ r, q (g r) = p r)
    {l l' : List EventRecord} (h : l.map g = l'.map g) : l.map p = l'.map p := by
  have e := congrArg (List.map q) h
  simpa only [List.map_map, Function.comp_def, hg] using e

/-- The invariant speaks of the records' numbers and states, the current event, the phase, the next number, and the events held;
a hold that ends takes nothing from it. -/
theorem EventInv.congr (h : EventInv s) (entries : t.evu.table.map EventRecord.entry = s.evu.table.map EventRecord.entry)
    (current : t.evu.current = s.evu.current) (phase : t.evu.phase = s.evu.phase)
    (next : t.evu.nextNumber = s.evu.nextNumber)
    (holds : (t.wfs.holds.map (·.event)).Sublist (s.wfs.holds.map (·.event))) : EventInv t := by
  refine h.of_numbers (map_of_finer (q := Prod.fst) (fun _ => rfl) entries) next holds (fun r hr hs => ?_) (fun n hn => ?_) ?_
  · obtain ⟨r', hr', number, state⟩ := mem_of_entries entries hr
    rw [current, ← number]
    exact h.open_ r' hr' (state ▸ hs)
  · obtain ⟨r, hr, number, state⟩ := h.current n (current ▸ hn)
    obtain ⟨r', hr', number', state'⟩ := mem_of_entries entries.symm hr
    exact ⟨r', hr', number'.trans number, state' ▸ state⟩
  · rw [phase, current]
    exact h.idle

/-- What leaves EVU and the segments standing keeps the invariant. -/
theorem Stands.eventInv (h : Stands s t) (hs : EventInv s) : EventInv t := by
  obtain ⟨evu, -, holds⟩ := h
  simp only [Evu.mk.injEq] at evu
  obtain ⟨-, -, -, phase, -, current, -, -, -, table, next, -⟩ := evu
  exact hs.congr (map_of_finer (g := EventRecord.unblanked) (q := EventRecord.entry) (fun _ => rfl) table) current phase next holds

/-- WFS's own work keeps the invariant. -/
theorem Waves.eventInv (h : Waves s t) (hs : EventInv s) : EventInv t := by
  obtain ⟨l, w, v, q, rfl, records, holds, -⟩ := h
  refine hs.congr (map_of_finer (g := EventRecord.waveless) (q := EventRecord.entry) (fun _ => rfl) records) rfl rfl rfl ?_
  rw [holds]

theorem Alerts.eventInv (h : Alerts s t) (hs : EventInv s) : EventInv t := ((Stands.refl s).alerts h).eventInv hs

theorem Packs.eventInv (h : Packs s t) (hs : EventInv s) : EventInv t := ((Stands.refl s).packs h).eventInv hs

/-! ### Changes of EVU that the invariant does not read -/

/-- A change of EVU's marks and counts. -/
theorem withEvu_eventInv {f : Evu → Evu} (h : EventInv s) (table : (f s.evu).table = s.evu.table := by rfl)
    (current : (f s.evu).current = s.evu.current := by rfl) (phase : (f s.evu).phase = s.evu.phase := by rfl)
    (next : (f s.evu).nextNumber = s.evu.nextNumber := by rfl) : EventInv (s.withEvu f) :=
  h.congr (congrArg _ table) current phase next (List.Sublist.refl _)

/-- The table after a change of one record, under what the change leaves. -/
theorem updateRecord_map {α : Type} {p : EventRecord → α} {f : EventRecord → EventRecord} (n : Nat)
    (hf : ∀ r, p (f r) = p r) (s : State) : (updateRecord n f s).evu.table.map p = s.evu.table.map p := by
  rw [updateRecord, List.map_map]
  refine List.map_congr_left fun r _ => ?_
  rw [Function.comp]
  split
  · exact hf r
  · rfl

theorem updateCurrent_map {α : Type} {p : EventRecord → α} {f : EventRecord → EventRecord} (hf : ∀ r, p (f r) = p r)
    (s : State) : (updateCurrent f s).evu.table.map p = s.evu.table.map p := by
  unfold updateCurrent
  split
  · rfl
  · exact updateRecord_map _ hf s

/-- A change of the current record that leaves its number and state. -/
theorem updateCurrent_eventInv {f : EventRecord → EventRecord} (h : EventInv s)
    (hf : ∀ r, (f r).entry = r.entry := by exact fun _ => rfl) : EventInv (updateCurrent f s) := by
  obtain ⟨l, e⟩ := updateCurrent_eq f s
  have entries := updateCurrent_map hf s
  rw [e] at entries ⊢
  exact h.congr entries rfl rfl rfl (List.Sublist.refl _)

/-! ### The event in progress moves between OPEN and CLOSING (R70 to R72), and closes (R73) -/

/-- During an event there is a current one. -/
theorem EventInv.current_of_going (h : EventInv s) (going : s.evu.phase ≠ .idle) : ∃ n, s.evu.current = some n := by
  rw [Ne, h.idle] at going
  exact Option.ne_none_iff_exists'.mp going

/-- During an event its record may go from one of OPEN and CLOSING to the other. -/
theorem moveCurrent_eventInv {f : EventRecord → EventRecord} {g : Evu → Evu} (h : EventInv s) (going : s.evu.phase ≠ .idle)
    (hf : ∀ r, (f r).number = r.number ∧ (f r).state ≠ .closed) (phase : (g s.evu).phase ≠ .idle)
    (table : (g s.evu).table = s.evu.table := by rfl) (current : (g s.evu).current = s.evu.current := by rfl)
    (next : (g s.evu).nextNumber = s.evu.nextNumber := by rfl) : EventInv (updateCurrent f (s.withEvu g)) := by
  obtain ⟨n, hc⟩ := h.current_of_going going
  have hg : (g s.evu).current = some n := current.trans hc
  have result : updateCurrent f (s.withEvu g) = updateRecord n f (s.withEvu g) := by
    simp only [updateCurrent, State.withEvu_evu, hg]
  have moved : (updateRecord n f (s.withEvu g)).evu.table = s.evu.table.map fun r => if r.number = n then f r else r := by
    simp only [updateRecord, State.withEvu_evu, table]
  have numbers : (updateRecord n f (s.withEvu g)).evu.table.map (·.number) = s.evu.table.map (·.number) :=
    (updateRecord_map n (fun r => (hf r).1) _).trans (congrArg _ table)
  rw [result]
  refine h.of_numbers numbers next (List.Sublist.refl _) ?_ ?_ ?_
  · rw [moved]
    intro r' hr' hs
    obtain ⟨r, hr, rfl⟩ := List.mem_map.mp hr'
    by_cases e : r.number = n
    · rw [if_pos e, (hf r).1, e]
      exact hg
    · rw [if_neg e] at hs ⊢
      exact current.trans (h.open_ r hr hs)
  · rw [moved]
    intro m hm
    obtain rfl : n = m := Option.some.inj (hg.symm.trans hm)
    obtain ⟨r, hr, number, -⟩ := h.current n hc
    exact ⟨f r, List.mem_map.mpr ⟨r, hr, if_pos number⟩, (hf r).1.trans number, (hf r).2⟩
  · exact ⟨fun e => absurd e phase, fun e => nomatch hg.symm.trans e⟩

theorem takeTriggerOn_eventInv (c : Fin 6) (st : Stamp) (h : EventInv s) : EventInv (takeTriggerOn c st s) := by
  have marked (k : Contribution) :
      EventInv (s.withEvu fun e => { e with triggered := e.triggered.set c true, contrib := e.contrib.set c (some k) }) :=
    withEvu_eventInv h
  unfold takeTriggerOn
  dsimp only
  refine updateCurrent_eventInv ?_
  split
  all_goals
    split
    · next going =>
      refine moveCurrent_eventInv (marked _) ?_ (fun r => ⟨rfl, fun e => nomatch e⟩) (fun e => nomatch e)
      rw [going.1]
      exact fun e => nomatch e
    · exact marked _

theorem evaluateOpen_eventInv (h : EventInv s) : EventInv (evaluateOpen s) := by
  unfold evaluateOpen
  split
  · next going =>
    refine moveCurrent_eventInv h ?_ (fun r => ⟨rfl, fun e => nomatch e⟩) (fun e => nomatch e)
    rw [going.1]
    exact fun e => nomatch e
  · exact h

theorem forceClosing_eventInv (h : EventInv s) (going : s.evu.phase ≠ .idle) : EventInv (forceClosing s) :=
  (count_alerts 14 _).eventInv
    (moveCurrent_eventInv h going (fun r => ⟨rfl, fun e => nomatch e⟩) (fun e => nomatch e))

/-- The current record and no other is closed. -/
theorem closeRecord_eventInv (st : Stamp) (f : EndReason → EndReason) (h : EventInv s) : EventInv (closeRecord st f s) := by
  unfold closeRecord
  split
  · exact h
  · next n hc =>
    dsimp only
    have numbers := updateRecord_map (p := (·.number)) n (f := fun r =>
      { r with state := .closed, closed := some st, reason := some (f (r.reason.getD .normal)) }) (fun _ => rfl) s
    have closed : EventInv ((updateRecord n (fun r =>
        { r with state := .closed, closed := some st, reason := some (f (r.reason.getD .normal)) }) s).withEvu fun e =>
          { e with
            contrib := Six.fill none, voteSum := 0, phase := .idle, forced := false, current := none, age := 0
            post := 0 }) := by
      refine h.of_numbers numbers rfl (List.Sublist.refl _) (fun r' hr' hs => ?_) (fun m hm => nomatch hm)
        ⟨fun _ => rfl, fun _ => rfl⟩
      obtain ⟨r, hr, rfl⟩ := List.mem_map.mp hr'
      by_cases e : r.number = n
      · rw [if_pos e] at hs
        exact absurd rfl hs
      · rw [if_neg e] at hs
        have current := h.open_ r hr hs
        rw [hc] at current
        exact absurd (Option.some.inj current).symm e
    split
    · exact closed
    · exact (raiseEvent_alerts _ _ _).eventInv closed

theorem closeEvent_eventInv (st : Stamp) (h : EventInv s) : EventInv (closeEvent st s) :=
  closeRecord_eventInv _ _ (withEvu_eventInv h)

end Sys2Proof.Machine
end

section
/-!
SUPPORT. A declaration keeps the Event Table's invariant (R67, R68): the next number is borne by no record, and a full table has a
record to lose.
-/

namespace Sys2Proof.Machine

variable {s t : State}

/-! ### The next number (R67) -/

/-- The number after a number, from 65535 to 1. -/
def numberNext (n : Nat) : Nat := if n = 65535 then 1 else n + 1

theorem numberAfter_succ (t : List EventRecord) (k n : Nat) :
    numberAfter t (k + 1) n =
      if t.any (·.number == numberNext n) then numberAfter t k (numberNext n) else numberNext n := rfl

theorem numberNext_range {n : Nat} (h : 1 ≤ n ∧ n ≤ 65535) : 1 ≤ numberNext n ∧ numberNext n ≤ 65535 := by
  unfold numberNext
  split <;> omega

/-- The numbers after `n` in turn. -/
theorem numberNext_iterate {n : Nat} (h : 1 ≤ n ∧ n ≤ 65535) (i : Nat) :
    numberNext^[i] n = (n - 1 + i) % 65535 + 1 := by
  induction i with
  | zero => rw [Function.iterate_zero, id]; omega
  | succ i ih =>
    rw [Function.iterate_succ_apply', ih, numberNext]
    split <;> omega

theorem numberAfter_range {t : List EventRecord} {n : Nat} (h : 1 ≤ n ∧ n ≤ 65535) (k : Nat) :
    1 ≤ numberAfter t k n ∧ numberAfter t k n ≤ 65535 := by
  induction k generalizing n with
  | zero => exact h
  | succ k ih =>
    rw [numberAfter_succ]
    split
    · exact ih (numberNext_range h)
    · exact numberNext_range h

/-- A number that the tries end at and that is borne has all the tries before it borne too. -/
theorem numberAfter_borne {t : List EventRecord} {k n : Nat} (borne : numberAfter t k n ∈ t.map (·.number)) (i : Nat)
    (hi : i < k) : numberNext^[i + 1] n ∈ t.map (·.number) := by
  induction k generalizing n i with
  | zero => omega
  | succ k ih =>
    rw [numberAfter_succ] at borne
    have taken (n' : Nat) : t.any (·.number == n') = true ↔ n' ∈ t.map (·.number) := by
      simp [List.any_eq_true]
    split at borne
    · next first =>
      rw [Function.iterate_succ_apply]
      cases i with
      | zero => exact (taken _).mp first
      | succ i => exact ih borne i (by omega)
    · next free => exact absurd ((taken _).mpr borne) free

/-- Thirteen tries pass over the numbers of twelve records (R67). -/
theorem numberAfter_not_borne {t : List EventRecord} (h : t.length ≤ 12) {n : Nat} (hn : 1 ≤ n ∧ n ≤ 65535) :
    ∀ r ∈ t, r.number ≠ numberAfter t 13 n := by
  intro r hr e
  have borne : numberAfter t 13 n ∈ t.map (·.number) := e ▸ List.mem_map_of_mem hr
  have tries : ((List.range 13).map fun i => numberNext^[i + 1] n).Nodup := by
    refine List.Nodup.map_on (fun i hi j hj e => ?_) List.nodup_range
    rw [List.mem_range] at hi hj
    rw [numberNext_iterate hn, numberNext_iterate hn] at e
    omega
  have all : ((List.range 13).map fun i => numberNext^[i + 1] n) ⊆ t.map (·.number) := by
    intro m hm
    obtain ⟨i, hi, rfl⟩ := List.mem_map.mp hm
    exact numberAfter_borne borne i (List.mem_range.mp hi)
  have := (tries.subperm all).length_le
  simp only [List.length_map, List.length_range] at this
  omega

/-! ### The oldest record that may go (R68) -/

/-- In IDLE every record is CLOSED. -/
theorem EventInv.closed_of_idle (h : EventInv s) (idle : s.evu.phase = .idle) {r : EventRecord} (hr : r ∈ s.evu.table) :
    r.state = .closed := by
  by_contra going
  have := h.open_ r hr going
  rw [h.idle.mp idle] at this
  cases this

theorem holdOf_isSome_iff (s : State) (n : Nat) : (holdOf s n).isSome = true ↔ n ∈ s.wfs.holds.map (·.event) := by
  simp [holdOf]

/-- A full table in IDLE has a record that is not held. -/
theorem EventInv.exists_unheld (h : EventInv s) (full : s.evu.table.length = 12) :
    ∃ r ∈ s.evu.table, holdOf s r.number = none := by
  by_contra none
  push Not at none
  have all : s.evu.table.map (·.number) ⊆ s.wfs.holds.map (·.event) := by
    intro n hn
    obtain ⟨r, hr, rfl⟩ := List.mem_map.mp hn
    exact (holdOf_isSome_iff s _).mp (Option.isSome_iff_ne_none.mpr (none r hr))
  have := ((pairwise_numbers.mp h.numbers).subperm all).length_le
  have := h.holds
  simp only [List.length_map] at *
  omega

/-- Whether a record may be lost to make room. -/
def mayGo (s : State) (r : EventRecord) : Bool := r.state == .closed && (holdOf s r.number).isNone

/-- The loss of a record, with its waveform. -/
def loseRecord (n : Nat) (s : State) : State :=
  (releaseWave n s).withEvu fun e => { e with table := e.table.filter (·.number != n) }

/-- What a full table loses in IDLE: the first record that is not held. -/
theorem removeOldest_of_full (h : EventInv s) (idle : s.evu.phase = .idle) (full : s.evu.table.length = 12) :
    ∃ l x l', s.evu.table = l ++ x :: l' ∧ x.state = .closed ∧ holdOf s x.number = none ∧
      (∀ y ∈ l, (holdOf s y.number).isSome = true) ∧ removeOldest s = loseRecord x.number s := by
  obtain ⟨r, hr, unheld⟩ := h.exists_unheld full
  have found : (s.evu.table.find? (mayGo s)).isSome = true :=
    List.find?_isSome.mpr ⟨r, hr, by simp [mayGo, h.closed_of_idle idle hr, unheld]⟩
  obtain ⟨x, hx⟩ := Option.isSome_iff_exists.mp found
  have removed : removeOldest s = loseRecord x.number s := by
    unfold removeOldest
    split
    · next none => exact absurd (hx.symm.trans none) (fun e => nomatch e)
    · next y some =>
      obtain rfl : x = y := Option.some.inj (hx.symm.trans some)
      rfl
  obtain ⟨goes, l, l', split, before⟩ := List.find?_eq_some_iff_append.mp hx
  simp only [mayGo, Bool.and_eq_true, beq_iff_eq, Option.isNone_iff_eq_none] at goes
  refine ⟨l, x, l', split, goes.1, goes.2, fun y hy => ?_, removed⟩
  have stays := before y hy
  have closed := h.closed_of_idle idle (split ▸ List.mem_append_left _ hy)
  simpa [mayGo, closed] using stays

theorem loseRecord_waves (n : Nat) (s : State) :
    ∃ u, Waves s u ∧ loseRecord n s = u.withEvu fun e => { e with table := e.table.filter (·.number != n) } :=
  ⟨_, releaseWave_waves n s, rfl⟩

/-- The loss of a record that is neither held nor in progress keeps the invariant. -/
theorem loseRecord_eventInv {n : Nat} (h : EventInv s) (idle : s.evu.phase = .idle) (unheld : holdOf s n = none) :
    EventInv (loseRecord n s) := by
  obtain ⟨u, hu, e⟩ := loseRecord_waves n s
  have inv := hu.eventInv h
  obtain ⟨l, w, v, q, rfl, records, holds, -⟩ := hu
  rw [e]
  have free : n ∉ w.holds.map (·.event) := by
    rw [holds, ← holdOf_isSome_iff, unheld]
    exact Bool.false_ne_true
  exact {
    records := (List.length_filter_le _ _).trans inv.records
    numbers := inv.numbers.sublist List.filter_sublist
    next := fun r hr => inv.next r (List.mem_of_mem_filter hr)
    range := inv.range
    open_ := fun r hr => inv.open_ r (List.mem_of_mem_filter hr)
    current := fun m hm => by
      have none : s.evu.current = none := h.idle.mp idle
      exact nomatch none.symm.trans hm
    idle := inv.idle
    holds := inv.holds
    held := fun x hx => by
      obtain ⟨r, hr, number⟩ := inv.held x hx
      refine ⟨r, List.mem_filter.mpr ⟨hr, ?_⟩, number⟩
      rw [bne_iff_ne, number]
      rintro rfl
      exact free (List.mem_map_of_mem hx)
    one := inv.one }

/-! ### The record appended (R69) -/

/-- EVU after a new record has been appended as the current one. -/
def Evu.declare (r : EventRecord) (e : Evu) : Evu :=
  { e with
    table := e.table ++ [r]
    nextNumber := numberAfter (e.table ++ [r]) 13 e.nextNumber
    lastNumber := e.nextNumber
    current := some e.nextNumber
    phase := .opened
    forced := false
    age := 0
    post := 0
    tail := none }

theorem declare_eventInv (h : EventInv s) (idle : s.evu.phase = .idle) (room : s.evu.table.length < 12) {r : EventRecord}
    (number : r.number = s.evu.nextNumber) (state : r.state = .opened) : EventInv (s.withEvu (Evu.declare r)) := by
  have length : (s.evu.table ++ [r]).length ≤ 12 := by simpa using room
  have mem {x : EventRecord} : x ∈ s.evu.table ++ [r] ↔ x ∈ s.evu.table ∨ x = r := by simp
  exact {
    records := length
    numbers := by
      refine List.pairwise_append.mpr ⟨h.numbers, List.pairwise_singleton _ _, fun a ha b hb => ?_⟩
      rw [List.mem_singleton.mp hb, number]
      exact h.next a ha
    next := numberAfter_not_borne length h.range
    range := numberAfter_range h.range 13
    open_ := fun x hx going => by
      obtain old | rfl := mem.mp hx
      · exact absurd (h.closed_of_idle idle old) going
      · exact congrArg some number.symm
    current := fun m hm => by
      obtain rfl : s.evu.nextNumber = m := Option.some.inj hm
      exact ⟨r, mem.mpr (.inr rfl), number, by rw [state]; exact fun e => nomatch e⟩
    idle := ⟨fun e => (nomatch e), fun e => (nomatch e)⟩
    holds := h.holds
    held := fun x hx => by
      obtain ⟨y, hy, e⟩ := h.held x hx
      exact ⟨y, mem.mpr (.inl hy), e⟩
    one := h.one }

/-- The state in which a declaration appends its record: a full table has lost one (R68). -/
def withRoom (s : State) : State := if Config.recordLimit ≤ s.evu.table.length then removeOldest s else s

/-- A declaration: room, the record, its pre-event span, K13 and the A0 raise (R67 to R69, R84). -/
theorem declareEvent_eq (st : Stamp) (s : State) :
    declareEvent st s =
      let u := withRoom s
      let v := count 13 (keepPreEvent u.evu.nextNumber st.time
        (u.withEvu (Evu.declare (newRecord u.evu.nextNumber st u))))
      raiseEvent 0 (.declared u.evu.nextNumber st v.evu.voteSum (votingChannels v)) v := rfl

theorem withRoom_eventInv (h : EventInv s) (idle : s.evu.phase = .idle) :
    EventInv (withRoom s) ∧ (withRoom s).evu.phase = .idle ∧ (withRoom s).evu.table.length < 12 := by
  unfold withRoom
  split
  · next full =>
    have full : s.evu.table.length = 12 := le_antisymm h.records full
    obtain ⟨l, x, l', split, -, unheld, -, e⟩ := removeOldest_of_full h idle full
    rw [e]
    refine ⟨loseRecord_eventInv h idle unheld, ?_, ?_⟩
    · obtain ⟨u, ⟨_, _, _, _, rfl, -⟩, e⟩ := loseRecord_waves x.number s
      rw [e]
      exact idle
    · obtain ⟨u, ⟨t, _, _, _, rfl, records, -⟩, e⟩ := loseRecord_waves x.number s
      have numbers : t.map (·.number) = s.evu.table.map (·.number) :=
        map_of_finer (g := EventRecord.waveless) (q := (·.number)) (fun _ => rfl) records
      have mem : x.number ∈ t.map (·.number) := by
        rw [numbers, split]
        simp
      obtain ⟨y, hy, number⟩ := List.mem_map.mp mem
      have lost : (t.filter (·.number != x.number)).length < t.length :=
        List.length_filter_lt_length_iff_exists.mpr ⟨y, hy, by simp [number]⟩
      have length := congrArg List.length numbers
      simp only [List.length_map] at length
      rw [e]
      exact lost.trans_le (by omega)
  · next room => exact ⟨h, idle, Nat.lt_of_not_le room⟩

theorem declareEvent_eventInv (st : Stamp) (h : EventInv s) (idle : s.evu.phase = .idle) : EventInv (declareEvent st s) := by
  obtain ⟨inv, stillIdle, room⟩ := withRoom_eventInv h idle
  have appended := declare_eventInv inv stillIdle room (r := newRecord (withRoom s).evu.nextNumber st (withRoom s)) rfl rfl
  rw [declareEvent_eq]
  exact (raiseEvent_alerts _ _ _).eventInv ((count_alerts 13 _).eventInv ((keepPreEvent_waves _ _ _).eventInv appended))

theorem evaluatePhase_eventInv (st : Stamp) (h : EventInv s) : EventInv (evaluatePhase st s) := by
  unfold evaluatePhase
  split
  · next idle =>
    split
    · exact declareEvent_eventInv st h idle
    · exact h
  · exact evaluateOpen_eventInv h
  · exact h

end Sys2Proof.Machine
end

section
/-!
PROOF. O54: every step keeps the Event Table and the holds coherent (R67, R68, R89).
-/

namespace Sys2Proof.Machine

variable {s t : State}

/-! ### A batch (R63) -/

theorem takeTriggerOff_eventInv (c : Fin 6) (m : Time) (h : EventInv s) : EventInv (takeTriggerOff c m s) :=
  updateCurrent_eventInv (withEvu_eventInv h)

theorem takeChange_eventInv (b : Batch) (c : Fin 6) (h : EventInv s) : EventInv (takeChange b c s) := by
  unfold takeChange
  split
  · exact h
  · exact takeTriggerOn_eventInv c _ h
  · exact takeTriggerOff_eventInv c _ h

theorem batchChanges_eventInv (b : Batch) (h : EventInv s) : EventInv (batchChanges b s) :=
  List.foldlRecOn channels _ (withEvu_eventInv h) fun _ hu c _ => takeChange_eventInv b c hu

theorem endContributions_eventInv (h : EventInv s) : EventInv (endContributions s) := by
  unfold endContributions
  exact withEvu_eventInv h

theorem takeMagnitude_eventInv (c : Fin 6) (m : Nat) (at' : Time) (h : EventInv s) : EventInv (takeMagnitude c m at' s) := by
  unfold takeMagnitude
  split
  · exact withEvu_eventInv h
  · exact updateCurrent_eventInv h

theorem takeCrossing_eventInv (c : Fin 6) (m : Nat) (at' : Time) (h : EventInv s) : EventInv (takeCrossing c m at' s) := by
  unfold takeCrossing
  split
  · exact h
  · next n hc =>
    split
    · exact h
    · split
      · exact h
      · have flagged := updateCurrent_eventInv (f := fun r => { r with strongMotion := true }) h
        unfold updateCurrent at flagged
        rw [hc] at flagged
        exact (raiseEvent_alerts _ _ _).eventInv flagged

theorem takeReport_eventInv (b : Batch) (c : Fin 6) (h : EventInv s) : EventInv (takeReport b c s) := by
  unfold takeReport
  split
  · exact h
  · dsimp only
    split
    · exact takeCrossing_eventInv _ _ _ (takeMagnitude_eventInv _ _ _ h)
    · exact takeMagnitude_eventInv _ _ _ h

theorem flagDegraded_eventInv (b : Batch) (h : EventInv s) : EventInv (flagDegraded b s) := by
  unfold flagDegraded
  split
  · exact h
  · exact updateCurrent_eventInv h

theorem advanceAge_eventInv (fresh : Bool) (h : EventInv s) : EventInv (advanceAge fresh s) := by
  unfold advanceAge
  split
  · exact h
  · next going =>
    have aged : EventInv (s.withEvu fun e => { e with age := e.age + 1 }) := withEvu_eventInv h
    dsimp only
    split
    · exact forceClosing_eventInv aged fun idle => going (.inl idle)
    · exact aged

theorem advancePost_eventInv (fresh : Bool) (st : Stamp) (h : EventInv s) : EventInv (advancePost fresh st s) := by
  have counted : EventInv (s.withEvu fun e => { e with post := e.post + 1 }) := withEvu_eventInv h
  unfold advancePost
  split
  · exact h
  · dsimp only
    split
    · exact closeEvent_eventInv st counted
    · exact counted

theorem advanceTail_eventInv (fresh : Bool) (h : EventInv s) : EventInv (advanceTail fresh s) := by
  unfold advanceTail
  split
  · exact h
  · split
    · exact h
    · exact withEvu_eventInv h

theorem evuBatch_eventInv (b : Batch) (h : EventInv s) : EventInv (evuBatch b s) := by
  have judged := evaluatePhase_eventInv b.stamp (endContributions_eventInv (batchChanges_eventInv b h))
  have reported := flagDegraded_eventInv b
    (List.foldlRecOn channels (fun s c => takeReport b c s) judged fun _ hu c _ => takeReport_eventInv b c hu)
  exact advanceTail_eventInv _ (advancePost_eventInv _ _ (advanceAge_eventInv _ reported))

theorem offBatchTriggerOff_eventInv (c : Fin 6) (m : Time) (h : EventInv s) : EventInv (offBatchTriggerOff c m s) :=
  evaluateOpen_eventInv (endContributions_eventInv (takeTriggerOff_eventInv c m h))

theorem evuRestart_eventInv (h : EventInv s) : EventInv (evuRestart s) := by
  have quiet : EventInv (s.withEvu fun e => { e with tail := none }) := withEvu_eventInv h
  unfold evuRestart
  exact withEvu_eventInv (closeRecord_eventInv _ _ quiet)

/-! ### The detectors and the sample path (chapters 1 and 3) -/

/-- The invariant reads EVU and WFS alone. -/
theorem EventInv.of_blocks (h : EventInv s) (evu : t.evu = s.evu) (wfs : t.wfs = s.wfs) : EventInv t :=
  ((Stands.refl s).of_blocks evu wfs).eventInv h

theorem sampleInstant_eventInv (st : Stamp) (item : SampleItem) (h : EventInv s) : EventInv (sampleInstant st item s) := by
  have worked : EventInv (bankWork item s) := (bankWork_alerts item s).eventInv (h.of_blocks rfl rfl)
  exact (evuBatch_eventInv (bankBatch st item s) worked).of_blocks rfl rfl

/-- A trigger-off is reported, where there is one, after a change of the detectors. -/
theorem report_eventInv {p : Prop} [Decidable p] (c : Fin 6) (m : Time) (f : Detector → Detector) (h : EventInv s) :
    EventInv (if p then offBatchTriggerOff c m (updateDetector c f s) else updateDetector c f s) := by
  have changed : EventInv (updateDetector c f s) := h.of_blocks rfl rfl
  split
  · exact offBatchTriggerOff_eventInv c m changed
  · exact changed

theorem gapResetChannel_eventInv (m : Time) (c : Fin 6) (h : EventInv s) : EventInv (gapResetChannel m c s) := by
  unfold gapResetChannel
  dsimp only
  split
  · exact h
  · exact report_eventInv c m _ h

theorem detWrite_eventInv (c : Fin 6) (old : ChannelEntry) (h : EventInv s) : EventInv (detWrite c old s) := by
  unfold detWrite
  dsimp only
  split
  · exact h.of_blocks rfl rfl
  · split
    · exact report_eventInv c s.now _ h
    · split
      · exact report_eventInv c s.now _ h
      · exact h

theorem judgeGap_eventInv (m : Time) (h : EventInv s) : EventInv (judgeGap m s) := by
  obtain ⟨-, e⟩ | ⟨-, e⟩ := judgeGap_cases m s
  · have reset : EventInv (gapResetDetectors m (s.withSif fun f => { f with gapSignalled := true })) :=
      List.foldlRecOn channels _ (h.of_blocks rfl rfl) fun _ hu c _ => gapResetChannel_eventInv m c hu
    rw [e]
    exact reset.of_blocks (onsetA6_blocks _ _).2.1 (onsetA6_blocks _ _).2.2
  · rwa [e]

theorem handMissing_eventInv (st : Stamp) (h : EventInv s) : EventInv (handMissing st s) :=
  (packMissing_packs _).eventInv (sampleInstant_eventInv st none h)

theorem declareMissing_eventInv (e : Strobe) (h : EventInv s) : EventInv (declareMissing e s) := by
  obtain ⟨-, evu, wfs⟩ := missingNoted_blocks e s
  rw [declareMissing_eq]
  exact judgeGap_eventInv _ (handMissing_eventInv _ (h.of_blocks evu wfs))

theorem deliver_eventInv (e : Strobe) (f : DigFrame) (h : EventInv s) : EventInv (deliver e f s) := by
  obtain ⟨-, evu, wfs⟩ := acceptedNoted_blocks e s
  have accepted : EventInv (acceptedNoted e s) := h.of_blocks evu wfs
  cases hf : f.fault
  · rw [deliver_of_good hf]
    dsimp only
    obtain ⟨-, evu, wfs⟩ := usableNoted_blocks (deliveredOf s.sif.stepCarry e f) (acceptedNoted e s)
    exact (packFrame_packs _ _).eventInv
      ((writeFrame_waves _ _).eventInv (sampleInstant_eventInv _ _ (accepted.of_blocks evu wfs)))
  · rw [deliver_of_fault hf]
    obtain ⟨-, evu, wfs⟩ := faultNoted_blocks (acceptedNoted e s)
    exact judgeGap_eventInv _ ((packMissing_packs _).eventInv
      ((writeFrame_waves _ _).eventInv (sampleInstant_eventInv _ _ (accepted.of_blocks evu wfs))))

theorem deliverFront_eventInv (n : Nat) (h : EventInv s) : EventInv (deliverFront n s) := by
  induction n generalizing s with
  | zero => exact h
  | succ n ih =>
    unfold deliverFront
    split
    · exact h
    · split
      · exact h
      · exact ih (deliver_eventInv _ _ (h.of_blocks rfl rfl))

theorem pushOut_eventInv (h : EventInv s) : EventInv (pushOut s) := by
  unfold pushOut
  split
  · exact h
  · split
    · exact h
    · next e rest _ =>
      have listed : EventInv (s.withSif fun x => { x with strobes := rest }) := h.of_blocks rfl rfl
      refine deliverFront_eventInv _ ?_
      unfold leave
      split
      · exact deliver_eventInv e _ listed
      · exact declareMissing_eventInv e listed

theorem strobeInstant_eventInv (h : EventInv s) : EventInv (strobeInstant s) :=
  (pushOut_eventInv h).of_blocks rfl rfl

theorem digitizerFrame_eventInv (bytes : List Byte) (h : EventInv s) : EventInv (digitizerFrame bytes s) := by
  have counted (k : Fin 40) : EventInv (count k s) := (count_alerts k s).eventInv h
  unfold digitizerFrame
  split
  · exact counted 1
  · unfold matchFrame
    split
    · split
      · exact counted 3
      · exact deliverFront_eventInv _ (h.of_blocks rfl rfl)
    · split
      · exact counted 3
      · exact counted 2

/-! ### Starts (R80, R98, R182, R185) -/

/-- A cold EVU and a cold WFS (R79, R97). -/
theorem eventInv_of_cold (evu : t.evu = Cold.evu) (wfs : t.wfs = Cold.wfs) : EventInv t :=
  reset_eventInv.of_blocks evu wfs

theorem coldStart_eventInv (straps : Byte) (answers : Bool) (s : State) : EventInv (coldStart straps answers s) := by
  unfold coldStart
  split <;> exact eventInv_of_cold rfl rfl

theorem powerDown_eventInv (supply : Supply) (disconnect : Bool) (s : State) : EventInv (powerDown supply disconnect s) :=
  eventInv_of_cold rfl rfl

theorem warmRestart_eventInv (straps : Byte) (h : EventInv s) : EventInv (warmRestart straps s) := by
  have stored : EventInv (wfsRestart (evuRestart s)) := (wfsRestart_waves _).eventInv (evuRestart_eventInv h)
  obtain ⟨-, evu, wfs⟩ := clearA6_blocks (wfsRestart (evuRestart s))
  have sampled : EventInv (ldaRestart (detReset (sifRestart (wfsRestart (evuRestart s))))) := stored.of_blocks evu wfs
  have timed : EventInv (tmbRestart (ldaRestart (detReset (sifRestart (wfsRestart (evuRestart s)))))) :=
    (dutyRequest_stands (judgeA3_stands ((withTmb_stands _).2 (.refl _)))).eventInv sampled
  exact (aluRestart_alerts _).eventInv (timed.of_blocks rfl rfl)

/-! ### The scan and the commands (chapters 8 and 10) -/

theorem scan_eventInv (x : MonitorInputs) (h : EventInv s) : EventInv (scan x s) := by
  unfold scan
  dsimp only
  split
  · exact (powerDown_eventInv .cut true (scanToCut x s)).of_blocks rfl rfl
  · exact (judgeAndRemember_stands _ (levelStage_stands _ (scanToCut_stands x (.refl s)))).eventInv h

/-- HOLD (R89): a granted hold is on a record of the table, one on which none stood, and it is the second at most. -/
theorem grantHold_eventInv {n : Nat} {r : EventRecord} (centre seconds : Nat) (h : EventInv s)
    (found : findRecord s n = some r) (free : holdOf s n = none) (room : s.wfs.holds.length < 2) :
    EventInv (grantHold n centre seconds s) := by
  have held : EventInv (s.withWfs fun w => { w with holds := w.holds ++ [⟨n, centre, seconds⟩] }) := {
    records := h.records, numbers := h.numbers, next := h.next, range := h.range, open_ := h.open_
    current := h.current, idle := h.idle
    holds := by simpa using room
    held := fun x hx => by
      obtain old | rfl := List.mem_append.mp hx |>.imp_right List.mem_singleton.mp
      · exact h.held x old
      · exact ⟨r, List.mem_of_find?_eq_some found, by simpa using List.find?_some found⟩
    one := by
      refine List.pairwise_append.mpr ⟨h.one, List.pairwise_singleton _ _, fun a ha b hb => ?_⟩
      rw [List.mem_singleton.mp hb]
      rintro (e : a.event = n)
      have : (holdOf s n).isSome = true := (holdOf_isSome_iff s n).mpr (List.mem_map.mpr ⟨a, ha, e⟩)
      rw [free] at this
      exact Bool.false_ne_true this }
  unfold grantHold
  dsimp only
  split
  · exact held
  · split
    · exact (cancelJob_stands .held (.refl _)).eventInv held
    · exact held

theorem cmdHold_eventInv (n minutes centre : Nat) (h : EventInv s) : EventInv (cmdHold n minutes centre s).state := by
  unfold cmdHold
  dsimp only
  split
  · exact h
  · next r found =>
    split
    · next x _ =>
      split
      · exact h
      · refine h.congr rfl rfl rfl rfl ?_
        have events : (s.wfs.holds.map fun y =>
            if y.event = n then { y with seconds := max x.seconds (clampN 1 240 minutes * 60) } else y).map
            (·.event) = s.wfs.holds.map (·.event) := by
          rw [List.map_map]
          refine List.map_congr_left fun y _ => ?_
          rw [Function.comp]
          split <;> rfl
        exact events ▸ List.Sublist.refl _
    · next free =>
      split
      · exact h
      · split
        · exact h
        · next room => exact grantHold_eventInv centre _ h found free (Nat.lt_of_not_le room)

theorem cmdTableWrite_eventInv (table first n : Nat) (entries : List Byte) (h : EventInv s) :
    EventInv (cmdTableWrite table first n entries s).state := by
  unfold cmdTableWrite
  split
  · exact h
  · next id _ =>
    split
    · exact h
    · split
      · exact h
      · next es _ _ =>
        have stored : EventInv { s with tables := storeEntries first es s.tables } := h.of_blocks rfl rfl
        by_cases hc : id = .channel
        · subst hc
          exact (streamWrite_stands _ (.refl _)).eventInv
            (eachIndex_keeps (Q := EventInv) (fun i _ hu => detWrite_eventInv _ _ hu) first n stored)
        · exact (actWrite_stands hc first n s.tables (.refl _)).eventInv stored

theorem perform_eventInv (c : Command) (centre : Nat) (tag : Byte) (h : EventInv s) :
    EventInv (perform c centre tag s).state := by
  cases c with
  | tableWrite t f n es => exact cmdTableWrite_eventInv t f n es h
  | hold e m => exact cmdHold_eventInv e m centre h
  | timeSet l f => exact (cmdTimeSet_stands l f (.refl s)).eventInv h
  | counterClear f n => exact (cmdCounterClear_stands f n (.refl s)).eventInv h
  | alertAck i => exact (cmdAlertAck_stands i centre (.refl s)).eventInv h
  | release e => exact (cmdRelease_stands e centre (.refl s)).eventInv h
  | waveRequest e o n => exact (cmdWaveRequest_stands e o n centre tag (.refl s)).eventInv h
  | waveCancel => exact (cmdWaveCancel_stands centre (.refl s)).eventInv h
  | loadTest l n => exact (cmdLoadTest_stands l n (.refl s)).eventInv h
  | save => exact (cmdSave_stands centre (.refl s)).eventInv h
  | eventRead n => exact (cmdEventRead_state n s).symm ▸ h
  | tableRead t f n => exact (cmdTableRead_state t f n s).symm ▸ h
  | counterRead f n => exact (cmdCounterRead_state f n s).symm ▸ h
  | emptyPayload | unknownKind _ | badLength _ | status | alertList | eventList | restart => exact h

/-! ### Every step -/

/-- `t` keeps the Event Table and the holds coherent where `s` does. -/
def KeepsEvents (s t : State) : Prop := EventInv s → EventInv t

/-- Every operation that the commands are made of keeps the invariant. -/
theorem eventInv_stepLaws : StepLaws KeepsEvents where
  refl _ := id
  trans h h' := h' ∘ h
  pending _ _ h := h.of_blocks rfl rfl
  passTime _ _ h := h.of_blocks rfl rfl
  settle s := (settle_stands (.refl s)).eventInv
  count k s := (count_alerts k s).eventInv
  coldStart straps answers s _ := coldStart_eventInv straps answers s
  powerDown supply disconnect s _ := powerDown_eventInv supply disconnect s
  strobeInstant _ := strobeInstant_eventInv
  digitizerFrame bytes _ := digitizerFrame_eventInv bytes
  secondBoundary s := (secondBoundary_stands (.refl s)).eventInv
  timeMessage bytes s := (timeMessage_stands bytes (.refl s)).eventInv
  ppsEdge s := (ppsEdge_stands (.refl s)).eventInv
  beginFrame s := (beginFrame_stands (.refl s)).eventInv
  completeTransmission s := (completeTransmission_stands (.refl s)).eventInv
  radioReady _ h := h.of_blocks rfl rfl
  receiver _ _ _ h := h.of_blocks rfl rfl
  scheduleScan _ h := h.of_blocks rfl rfl
  scan x _ := scan_eventInv x
  switchOff l s := (switchOff_stands l (.refl s)).eventInv
  endRest l s := ((Stands.refl s).switching (endRest_butSwitching l s)).eventInv
  endSuspension s := ((Stands.refl s).switching (endSuspension_butSwitching s)).eventInv
  endColdWait s := ((Stands.refl s).switching (endColdWait_butSwitching s)).eventInv
  saveComplete bytes s := (saveComplete_stands bytes (.refl s)).eventInv
  saveNoAnswer n s := (saveNoAnswer_stands n (.refl s)).eventInv
  reservePlace _ _ _ h := h.of_blocks rfl rfl
  fillReply _ _ h := h.of_blocks rfl rfl
  perform c centre tag _ := perform_eventInv c centre tag
  warmRestart straps _ := warmRestart_eventInv straps

/-- Settles O54: every operation of the commands keeps the invariant. -/
theorem stepKeepsEventTableAndHolds : Obligations.StepKeepsEventTableAndHolds :=
  fun _ _ h hs => eventInv_stepLaws.step hs h

end Sys2Proof.Machine
end

section
/-!
SUPPORT. The course of an event (R63 to R77): the phase, the counts and what a declaration and a close write in the records, as one
view, `State.progress`; and the contributions with the vote sum, as the relation `Tallies`. One law for each operation of a batch
and of what follows it at a sample instant.
-/

namespace Sys2Proof.Machine

variable {s t u : State}

/-! ### The two views -/

/-- What a record says of its event's course: its number, state, declare and close times and end reason. -/
def EventRecord.course (r : EventRecord) : Nat × RecordState × Stamp × Option Stamp × Option EndReason :=
  (r.number, r.state, r.declared, r.closed, r.reason)

/-- The phase with its counts, the records' courses, and K14. -/
def State.progress (s : State) :
    (EventPhase × Bool × Option Nat × Nat × Nat × Option Nat) ×
      List (Nat × RecordState × Stamp × Option Stamp × Option EndReason) × BitVec 32 :=
  ((s.evu.phase, s.evu.forced, s.evu.current, s.evu.age, s.evu.post, s.evu.tail), s.evu.table.map EventRecord.course,
    s.cnt[(14 : Fin 40)])

theorem progress_fields (h : t.progress = s.progress) :
    t.evu.phase = s.evu.phase ∧ t.evu.forced = s.evu.forced ∧ t.evu.current = s.evu.current ∧ t.evu.age = s.evu.age ∧
      t.evu.post = s.evu.post ∧ t.evu.tail = s.evu.tail ∧
      t.evu.table.map EventRecord.course = s.evu.table.map EventRecord.course ∧ t.cnt[(14 : Fin 40)] = s.cnt[(14 : Fin 40)] := by
  simp only [State.progress, Prod.mk.injEq] at h
  tauto

/-- A record found under a view of the table that shows the numbers. -/
theorem findRecord_map {α : Type} {p : EventRecord → α} {q : α → Nat} (hq : ∀ r, q (p r) = r.number)
    (h : t.evu.table.map p = s.evu.table.map p) (n : Nat) : (findRecord t n).map p = (findRecord s n).map p := by
  have found (u : State) : (findRecord u n).map p = (u.evu.table.map p).find? fun x => q x == n := by
    rw [List.find?_map, findRecord]
    simp only [Function.comp_def, hq]
  rw [found, found, h]

theorem findRecord_course (h : t.progress = s.progress) (n : Nat) :
    (findRecord t n).map EventRecord.course = (findRecord s n).map EventRecord.course := by
  obtain ⟨-, -, -, -, -, -, table, -⟩ := progress_fields h
  exact findRecord_map (q := Prod.fst) (fun _ => rfl) table n

/-- `t` has no contribution that `s` has not, and its vote sum is right where `s`'s is (R65). -/
structure Tallies (s t : State) : Prop where
  none : ∀ c, s.evu.contrib.get c = none → t.evu.contrib.get c = none
  vote : s.evu.voteSum = weightSum s.evu.contrib → t.evu.voteSum = weightSum t.evu.contrib

theorem Tallies.of_eq (contrib : t.evu.contrib = s.evu.contrib) (vote : t.evu.voteSum = s.evu.voteSum) : Tallies s t :=
  ⟨fun c h => by rw [contrib, h], fun h => by rw [vote, contrib, h]⟩

theorem Tallies.refl (s : State) : Tallies s s := .of_eq rfl rfl

theorem Tallies.trans (h : Tallies s t) (h' : Tallies t u) : Tallies s u :=
  ⟨fun c e => h'.none c (h.none c e), h'.vote ∘ h.vote⟩

/-! ### Counts, alerts and records -/

theorem Alerts.tallies (h : Alerts s t) : Tallies s t := by
  obtain ⟨a, n, q, rfl⟩ := h
  exact .of_eq rfl rfl

/-- What changes ALU, and counters other than K14. -/
theorem Alerts.progress (h : Alerts s t) (count : t.cnt[(14 : Fin 40)] = s.cnt[(14 : Fin 40)]) : t.progress = s.progress := by
  obtain ⟨-, evu, -⟩ := h.blocks
  rw [State.progress, State.progress, evu, count]

theorem raiseEvent_progress (cls : Fin 8) (p : AlertPayload) (s : State) : (raiseEvent cls p s).progress = s.progress := by
  refine (raiseEvent_alerts cls p s).progress ?_
  unfold raiseEvent
  split
  · exact raiseAlert_counter cls _ (k := 14) (by decide) s
  · rfl

/-- A change of the current record that leaves its course. -/
theorem updateCurrent_progress {f : EventRecord → EventRecord} (s : State)
    (hf : ∀ r, (f r).course = r.course := by exact fun _ => rfl) : (updateCurrent f s).progress = s.progress := by
  obtain ⟨l, e⟩ := updateCurrent_eq f s
  have table := updateCurrent_map hf s
  rw [e] at table ⊢
  rw [State.progress, State.progress, table]

theorem updateCurrent_tallies (f : EventRecord → EventRecord) (s : State) : Tallies s (updateCurrent f s) := by
  obtain ⟨l, e⟩ := updateCurrent_eq f s
  rw [e]
  exact .of_eq rfl rfl

theorem updateRecord_tallies (n : Nat) (f : EventRecord → EventRecord) (s : State) : Tallies s (updateRecord n f s) :=
  .of_eq rfl rfl

theorem Waves.progress (h : Waves s t) : t.progress = s.progress := by
  obtain ⟨l, w, v, q, rfl, records, -, counters⟩ := h
  have courses : l.map EventRecord.course = s.evu.table.map EventRecord.course :=
    map_of_finer (g := EventRecord.waveless) (q := EventRecord.course) (fun _ => rfl) records
  simp only [State.progress, courses, counters 14 (by decide) (by decide)]

theorem Waves.tallies (h : Waves s t) : Tallies s t := by
  obtain ⟨l, w, v, q, rfl, -⟩ := h
  exact .of_eq rfl rfl

/-! ### Trigger changes and the end of contributions (R63 to R65, R74) -/

theorem takeTriggerOff_progress (c : Fin 6) (m : Time) (s : State) : (takeTriggerOff c m s).progress = s.progress :=
  (updateCurrent_progress _).trans rfl

theorem takeTriggerOff_tallies (c : Fin 6) (m : Time) (s : State) : Tallies s (takeTriggerOff c m s) := by
  have contrib := (takeTriggerOff_evu c m s).2
  have weights (j : Fin 6) : weightOf ((takeTriggerOff c m s).evu.contrib.get j) = weightOf (s.evu.contrib.get j) := by
    rw [contrib, Six.get_set]
    split
    · next e =>
      rw [e]
      cases s.evu.contrib.get c <;> rfl
    · rfl
  obtain ⟨l, e⟩ := updateCurrent_eq (fun r => { r with contributors := offContributors c m r.contributors })
    (s.withEvu fun e =>
      { e with
        triggered := e.triggered.set c false
        contrib := e.contrib.set c ((e.contrib.get c).map fun k => { k with lastOff := some m }) })
  refine ⟨fun j none => ?_, fun vote => ?_⟩
  · rw [contrib, Six.get_set]
    split
    · next e =>
      subst e
      rw [none]
      rfl
    · exact none
  · have same : (takeTriggerOff c m s).evu.voteSum = s.evu.voteSum := by rw [takeTriggerOff, e]; rfl
    rw [same, vote]
    exact le_antisymm (weightSum_mono fun j => (weights j).ge) (weightSum_mono fun j => (weights j).le)

theorem endContributions_get (s : State) (c : Fin 6) :
    (endContributions s).evu.contrib.get c =
      match s.evu.contrib.get c with
      | none => none
      | some k => if contributionEnds s c k then none else some k :=
  Six.get_ofFn _ c

/-- No channel that has no contribution gets one, and the vote sum is right afterwards (R65). -/
theorem endContributions_tallies (s : State) : Tallies s (endContributions s) :=
  ⟨fun c none => by rw [endContributions_get, none], fun _ => rfl⟩

theorem endContributions_progress (s : State) : (endContributions s).progress = s.progress := rfl

/-- A channel's contribution after its trigger-on (R64). -/
def contributionOn (c : Fin 6) (st : Stamp) (s : State) : Contribution :=
  match s.evu.contrib.get c with
  | none => ⟨(s.tables.channel.get c).weight, 0, st, none, none⟩
  | some k => { k with weight := (s.tables.channel.get c).weight, window := 0, lastOff := none }

/-- EVU after the trigger-on's vote (R64). -/
def voteOn (c : Fin 6) (st : Stamp) (s : State) : State :=
  s.withEvu fun e =>
    { e with triggered := e.triggered.set c true, contrib := e.contrib.set c (some (contributionOn c st s)) }

/-- Whether the channel's trigger-on reopens the event (R71). -/
abbrev Reopens (c : Fin 6) (s : State) : Prop :=
  s.evu.phase = .closing ∧ s.evu.forced = false ∧ 1 ≤ (s.tables.channel.get c).weight

/-- A reopening (R71). -/
def reopen (s : State) : State :=
  updateCurrent (fun r => { r with state := .opened }) (s.withEvu fun e => { e with phase := .opened, post := 0 })

/-- A trigger-on is a vote, with a reopening if it brings one about, and joins the record's contributors. -/
theorem takeTriggerOn_eq (c : Fin 6) (st : Stamp) (s : State) :
    takeTriggerOn c st s =
      updateCurrent (fun r => { r with contributors := joinContributors c st r.contributors })
        (if Reopens c s then reopen (voteOn c st s) else voteOn c st s) := rfl

/-- A trigger-on that does not reopen an event (R71). -/
theorem takeTriggerOn_progress (c : Fin 6) (st : Stamp) (h : ¬ Reopens c s) : (takeTriggerOn c st s).progress = s.progress := by
  rw [takeTriggerOn_eq, updateCurrent_progress, if_neg h]
  rfl

theorem updateCurrent_contrib (f : EventRecord → EventRecord) (s : State) :
    (updateCurrent f s).evu.contrib = s.evu.contrib := by
  obtain ⟨l, e⟩ := updateCurrent_eq f s
  rw [e]

theorem takeTriggerOn_contrib (c : Fin 6) (st : Stamp) (s : State) :
    (takeTriggerOn c st s).evu.contrib = s.evu.contrib.set c (some (contributionOn c st s)) := by
  rw [takeTriggerOn_eq, updateCurrent_contrib]
  split
  · rw [reopen, updateCurrent_contrib]
    rfl
  · rfl

/-- Whether no trigger-on of the batch can reopen an event (R71). -/
def NoReopening (b : Batch) (s : State) : Prop :=
  s.evu.phase ≠ .closing ∨ s.evu.forced = true ∨ ∀ c, b.changes.get c ≠ some true

theorem takeChange_progress {b : Batch} (h : NoReopening b s) (c : Fin 6) : (takeChange b c s).progress = s.progress := by
  unfold takeChange
  split
  · rfl
  · next on =>
    refine takeTriggerOn_progress c _ fun ⟨closing, unforced, _⟩ => ?_
    obtain open_ | forced | quiet := h
    · exact open_ closing
    · exact Bool.false_ne_true (unforced.symm.trans forced)
    · exact quiet c on
  · exact takeTriggerOff_progress c _ s

/-- Steps 1 to 3 of a batch without a reopening leave the event's course (R63). -/
theorem batchChanges_progress {b : Batch} (h : NoReopening b s) : (batchChanges b s).progress = s.progress :=
  List.foldlRecOn (motive := fun u : State => u.progress = s.progress) channels _ rfl fun u hu c _ => by
    obtain ⟨phase, forced, -⟩ := progress_fields hu
    refine (takeChange_progress ?_ c).trans hu
    unfold NoReopening at *
    rwa [phase, forced]

/-- The window counts of a channel that does not trigger on. -/
theorem takeChange_window {b : Batch} {c : Fin 6} (quiet : b.changes.get c ≠ some true) (j : Fin 6) (s : State) :
    ((takeChange b j s).evu.contrib.get c).map (·.window) = (s.evu.contrib.get c).map (·.window) := by
  unfold takeChange
  split
  · rfl
  · next on =>
    have other : c ≠ j := by
      rintro rfl
      exact quiet on
    rw [takeTriggerOn_contrib, Six.get_set, if_neg other]
  · rw [(takeTriggerOff_evu j _ s).2, Six.get_set]
    split
    · next e =>
      rw [e, Option.map_map]
      rfl
    · rfl

/-- After steps 1 and 2 the window count of a channel that does not trigger on is one more. -/
theorem batchChanges_window {b : Batch} {c : Fin 6} (quiet : b.changes.get c ≠ some true) {k : Contribution}
    (hk : s.evu.contrib.get c = some k) :
    ∃ k', (batchChanges b s).evu.contrib.get c = some k' ∧ k'.window = k.window + 1 := by
  have window := List.foldlRecOn (motive := fun u : State =>
      (u.evu.contrib.get c).map (·.window) = ((advanceWindows s).evu.contrib.get c).map (·.window)) channels
    (fun s j => takeChange b j s) rfl fun u hu j _ => (takeChange_window quiet j u).trans hu
  rw [advanceWindows, State.withEvu_evu, Six.get_map, hk] at window
  exact Option.map_eq_some_iff.mp window

theorem mem_channels : ∀ c : Fin 6, c ∈ channels := by decide

theorem batchChanges_triggered {b : Batch} {c : Fin 6} (quiet : b.changes.get c ≠ some true)
    (off : s.evu.triggered.get c = false) : (batchChanges b s).evu.triggered.get c = false := by
  have marks := takeChanges_triggered b channels c (advanceWindows s)
  rw [if_pos (mem_channels c), advanceWindows, State.withEvu_evu, off] at marks
  refine marks.trans ?_
  cases change : b.changes.get c with
  | none => rfl
  | some on => cases on with
    | false => rfl
    | true => exact absurd change quiet

end Sys2Proof.Machine
end

section
/-!
SUPPORT. A batch by what it makes of the event's course (R63, R70 to R73, R77), and what follows a sample instant: the writer, the
packer, a gap reset, and the work at the end of the step.
-/

namespace Sys2Proof.Machine

variable {s t u : State}

/-! ### Step 5's reports (R75, R76) -/

theorem takeMagnitude_progress (c : Fin 6) (m : Nat) (at' : Time) (s : State) :
    (takeMagnitude c m at' s).progress = s.progress := by
  unfold takeMagnitude
  split
  · rfl
  · exact updateCurrent_progress s

theorem takeMagnitude_tallies (c : Fin 6) (m : Nat) (at' : Time) (s : State) : Tallies s (takeMagnitude c m at' s) := by
  unfold takeMagnitude
  split
  · have weights (j : Fin 6) :
        weightOf ((s.evu.contrib.set c ((s.evu.contrib.get c).map fun k => { k with peak := raisePeak k.peak m at' })).get j) =
          weightOf (s.evu.contrib.get j) := by
      rw [Six.get_set]
      split
      · next e =>
        rw [e]
        cases s.evu.contrib.get c <;> rfl
      · rfl
    refine ⟨fun j none => ?_, fun vote => ?_⟩
    · refine (Six.get_set _ _ _ _).trans ?_
      split
      · next e =>
        subst e
        rw [none]
        rfl
      · exact none
    · exact vote.trans (le_antisymm (weightSum_mono fun j => (weights j).ge) (weightSum_mono fun j => (weights j).le))
  · exact updateCurrent_tallies _ s

theorem takeCrossing_progress (c : Fin 6) (m : Nat) (at' : Time) (s : State) :
    (takeCrossing c m at' s).progress = s.progress := by
  unfold takeCrossing
  split
  · rfl
  · next n hc =>
    split
    · rfl
    · split
      · rfl
      · have flagged := updateCurrent_progress (f := fun r => { r with strongMotion := true }) s
        unfold updateCurrent at flagged
        rw [hc] at flagged
        rw [raiseEvent_progress]
        exact flagged

theorem takeCrossing_tallies (c : Fin 6) (m : Nat) (at' : Time) (s : State) : Tallies s (takeCrossing c m at' s) := by
  unfold takeCrossing
  split
  · exact .refl s
  · split
    · exact .refl s
    · split
      · exact .refl s
      · exact (updateRecord_tallies _ _ s).trans (raiseEvent_alerts _ _ _).tallies

theorem takeReport_keeps (b : Batch) (c : Fin 6) (s : State) :
    (takeReport b c s).progress = s.progress ∧ Tallies s (takeReport b c s) := by
  unfold takeReport
  split
  · exact ⟨rfl, .refl s⟩
  · dsimp only
    split
    · exact ⟨(takeCrossing_progress _ _ _ _).trans (takeMagnitude_progress _ _ _ s),
        (takeMagnitude_tallies _ _ _ s).trans (takeCrossing_tallies _ _ _ _)⟩
    · exact ⟨takeMagnitude_progress _ _ _ s, takeMagnitude_tallies _ _ _ s⟩

/-- The magnitudes, crossings and the time-degraded flag of a batch. -/
def takeReports (b : Batch) (s : State) : State := flagDegraded b (channels.foldl (fun s c => takeReport b c s) s)

theorem takeReports_keeps (b : Batch) (s : State) : (takeReports b s).progress = s.progress ∧ Tallies s (takeReports b s) := by
  have reports := List.foldlRecOn (motive := fun u : State => u.progress = s.progress ∧ Tallies s u) channels
    (fun s c => takeReport b c s) ⟨rfl, .refl s⟩ fun u hu c _ =>
      ⟨(takeReport_keeps b c u).1.trans hu.1, hu.2.trans (takeReport_keeps b c u).2⟩
  unfold takeReports flagDegraded
  split
  · exact reports
  · exact ⟨(updateCurrent_progress _).trans reports.1, reports.2.trans (updateCurrent_tallies _ _)⟩

theorem reports_events (b : Batch) (s : State) : Events s (takeReports b s) :=
  (takeReports_events b channels s).trans (flagDegraded_events b _)

end Sys2Proof.Machine
end

section
/-!
SUPPORT. The counts of step 5 of a batch (R72, R73, R77) where they reach their ends, and the contributions through steps 4 and 5.
-/

namespace Sys2Proof.Machine

variable {s t u : State}

/-! ### A changed record is found -/

theorem findRecord_updateRecord {n : Nat} {f : EventRecord → EventRecord} (hf : ∀ r, (f r).number = r.number) (s : State) :
    findRecord (updateRecord n f s) n = (findRecord s n).map f := by
  rw [findRecord, findRecord, updateRecord, List.find?_map]
  have same : ((fun r : EventRecord => r.number == n) ∘ fun r => if r.number = n then f r else r) = (·.number == n) := by
    funext r
    simp only [Function.comp]
    split
    · rw [hf]
    · rfl
  rw [same]
  cases found : s.evu.table.find? (·.number == n) with
  | none => rfl
  | some r =>
    have number : r.number = n := eq_of_beq (List.find?_some (p := fun r : EventRecord => r.number == n) found)
    simp [number]

theorem findRecord_congr (h : t.evu.table = s.evu.table) (n : Nat) : findRecord t n = findRecord s n := by
  rw [findRecord, findRecord, h]

/-! ### The counts at their ends -/

/-- A record that goes on in a forced closing (R72). -/
def EventRecord.force (r : EventRecord) : EventRecord := { r with state := .closing, reason := some .maxLength }

/-- A record that closes (R73). -/
def EventRecord.close (st : Stamp) (reason : EndReason → EndReason) (r : EventRecord) : EventRecord :=
  { r with state := .closed, closed := some st, reason := some (reason (r.reason.getD .normal)) }

/-- EVU after a close but for its table and tail (R73). -/
def Evu.rest (e : Evu) : Evu :=
  { e with contrib := Six.fill none, voteSum := 0, phase := .idle, forced := false, current := none, age := 0, post := 0 }

/-- What a forced closing leaves (R72). -/
theorem forceClosing_of_current {n : Nat} (current : s.evu.current = some n) :
    (forceClosing s).evu.phase = .closing ∧ (forceClosing s).evu.forced = true ∧ (forceClosing s).evu.current = some n ∧
      findRecord (forceClosing s) n = (findRecord s n).map EventRecord.force ∧
      (forceClosing s).cnt[(14 : Fin 40)] = s.cnt[(14 : Fin 40)] + 1 := by
  let v := s.withEvu fun e => { e with phase := .closing, forced := true, post := if e.phase = .opened then 0 else e.post }
  have eq : forceClosing s = count 14 (updateRecord n EventRecord.force v) := by
    have change : updateCurrent (fun r => { r with state := .closing, reason := some .maxLength }) v =
        updateRecord n EventRecord.force v := by
      rw [updateCurrent, show v.evu.current = some n from current]
      rfl
    exact congrArg (count 14) change
  obtain ⟨-, evu, -⟩ := (count_alerts 14 (updateRecord n EventRecord.force v)).blocks
  rw [eq, evu]
  refine ⟨rfl, rfl, current, ?_, ?_⟩
  · exact (findRecord_congr (congrArg Evu.table evu) n).trans (findRecord_updateRecord (f := EventRecord.force) (fun _ => rfl) v)
  · exact (count_getElem 14 14 _).trans (if_pos rfl)

/-- A close of the current event is a change of its record, of EVU, and perhaps a raise of A2 (R73). -/
theorem closeRecord_alerts {n : Nat} (st : Stamp) (reason : EndReason → EndReason) (current : s.evu.current = some n) :
    Alerts ((updateRecord n (EventRecord.close st reason) s).withEvu Evu.rest) (closeRecord st reason s) := by
  unfold closeRecord
  rw [current]
  dsimp only
  split
  · exact .refl _
  · exact raiseEvent_alerts _ _ _

/-- What the close at the end of the post-event time leaves (R73). -/
theorem closeEvent_of_current {n : Nat} (st : Stamp) (current : s.evu.current = some n) :
    (closeEvent st s).evu.phase = .idle ∧ (closeEvent st s).evu.current = none ∧
      (∀ c, (closeEvent st s).evu.contrib.get c = none) ∧ (closeEvent st s).evu.voteSum = 0 ∧
      (closeEvent st s).evu.tail = (if 0 < s.tables.event.quietTail then some 0 else none) ∧
      findRecord (closeEvent st s) n = (findRecord s n).map (EventRecord.close st id) := by
  obtain ⟨-, evu, -⟩ := (closeRecord_alerts st id
    (s := s.withEvu fun e => { e with tail := if 0 < s.tables.event.quietTail then some 0 else none }) current).blocks
  have evu : (closeEvent st s).evu = _ := evu
  refine ⟨by rw [evu]; rfl, by rw [evu]; rfl, fun c => ?_, by rw [evu]; rfl, by rw [evu]; rfl, ?_⟩
  · rw [evu]
    exact Six.get_fill _ c
  · refine (findRecord_congr (congrArg Evu.table evu) n).trans ?_
    exact findRecord_updateRecord (f := EventRecord.close st id) (fun _ => rfl)
      (s.withEvu fun e => { e with tail := if 0 < s.tables.event.quietTail then some 0 else none })

/-! ### The room for a record (R68) -/

/-- `t` is `s` but for the Event Table and what WFS writes, as far as a declaration reads it. -/
structure BesideTable (s t : State) : Prop where
  evu : { t.evu with table := s.evu.table } = s.evu
  alu : t.alu = s.alu
  det : t.det = s.det
  tables : t.tables = s.tables
  cnt : ∀ k : Fin 40, k ≠ 15 → k ≠ 16 → t.cnt[k] = s.cnt[k]

/-- EVU's fields beside the table, as far as a declaration reads them. -/
theorem BesideTable.fields (h : BesideTable s t) :
    t.evu.contrib = s.evu.contrib ∧ t.evu.voteSum = s.evu.voteSum ∧ t.evu.triggered = s.evu.triggered ∧
      t.evu.nextNumber = s.evu.nextNumber := by
  have evu := congrArg (fun e : Evu => (e.contrib, e.voteSum, e.triggered, e.nextNumber)) h.evu
  simpa only [Prod.mk.injEq] using evu

theorem Waves.besideTable (h : Waves s t) : BesideTable s t := by
  obtain ⟨-, evu, -, alu, det, tables, cnt⟩ := h.fields
  exact ⟨evu, alu, det, tables, cnt⟩

theorem loseRecord_besideTable (n : Nat) (s : State) : BesideTable s (loseRecord n s) := by
  obtain ⟨u, waves, e⟩ := loseRecord_waves n s
  obtain ⟨evu, alu, det, tables, cnt⟩ := waves.besideTable
  rw [e]
  exact ⟨evu, alu, det, tables, cnt⟩

/-- The room is made by what happens to the table alone. -/
theorem withRoom_besideTable (s : State) : BesideTable s (withRoom s) := by
  have still : BesideTable s s := (Waves.refl s).besideTable
  unfold withRoom removeOldest
  split
  · split
    · exact still
    · next r _ => exact loseRecord_besideTable r.number s
  · exact still

/-! ### Contributions through step 5 and the end of a batch (R65) -/

/-- A change of EVU that leaves the contributions and the vote sum. -/
theorem withEvu_tallies (f : Evu → Evu) (s : State) (contrib : (f s.evu).contrib = s.evu.contrib := by rfl)
    (vote : (f s.evu).voteSum = s.evu.voteSum := by rfl) : Tallies s (s.withEvu f) := .of_eq contrib vote

theorem forceClosing_tallies (s : State) : Tallies s (forceClosing s) := by
  unfold forceClosing
  exact (withEvu_tallies (fun e =>
      { e with phase := .closing, forced := true, post := if e.phase = .opened then 0 else e.post }) s).trans
    ((updateCurrent_tallies _ _).trans (count_alerts 14 _).tallies)

theorem closeEvent_tallies (st : Stamp) (s : State) : Tallies s (closeEvent st s) := by
  cases current : s.evu.current with
  | none =>
    have eq : closeEvent st s = s.withEvu fun e => { e with tail := if 0 < s.tables.event.quietTail then some 0 else none } := by
      rw [closeEvent, closeRecord]
      simp only [State.withEvu_evu, current]
    rw [eq]
    exact .of_eq rfl rfl
  | some n =>
    obtain ⟨-, evu, -⟩ := (closeRecord_alerts st id
      (s := s.withEvu fun e => { e with tail := if 0 < s.tables.event.quietTail then some 0 else none }) current).blocks
    have evu : (closeEvent st s).evu = _ := evu
    exact ⟨fun c _ => by rw [evu]; exact Six.get_fill _ c, fun _ => by rw [evu]; rfl⟩

theorem advanceAge_tallies (fresh : Bool) (s : State) : Tallies s (advanceAge fresh s) := by
  unfold advanceAge
  split
  · exact .refl s
  · dsimp only
    split
    · exact (withEvu_tallies (fun e => { e with age := e.age + 1 }) s).trans (forceClosing_tallies _)
    · exact .of_eq rfl rfl

theorem advancePost_tallies (fresh : Bool) (st : Stamp) (s : State) : Tallies s (advancePost fresh st s) := by
  unfold advancePost
  split
  · exact .refl s
  · dsimp only
    split
    · exact (withEvu_tallies (fun e => { e with post := e.post + 1 }) s).trans (closeEvent_tallies st _)
    · exact .of_eq rfl rfl

theorem advanceTail_tallies (fresh : Bool) (s : State) : Tallies s (advanceTail fresh s) := by
  unfold advanceTail
  split
  · exact .refl s
  · split
    · exact .refl s
    · exact .of_eq rfl rfl

theorem declareEvent_tallies (st : Stamp) (s : State) : Tallies s (declareEvent st s) := by
  obtain ⟨contrib, vote, -⟩ := (withRoom_besideTable s).fields
  have declared (r : EventRecord) : Tallies s ((withRoom s).withEvu (Evu.declare r)) := .of_eq contrib vote
  rw [declareEvent_eq]
  exact (declared _).trans ((keepPreEvent_waves _ _ _).tallies.trans
    ((count_alerts 13 _).tallies.trans (raiseEvent_alerts _ _ _).tallies))

theorem evaluateOpen_tallies (s : State) : Tallies s (evaluateOpen s) := by
  unfold evaluateOpen
  split
  · exact (withEvu_tallies (fun e => { e with phase := .closing, forced := false, post := 0 }) s).trans
      (updateCurrent_tallies _ _)
  · exact .refl s

theorem evaluatePhase_tallies (st : Stamp) (s : State) : Tallies s (evaluatePhase st s) := by
  unfold evaluatePhase
  split
  · split
    · exact declareEvent_tallies st s
    · exact .refl s
  · exact evaluateOpen_tallies s
  · exact .refl s

/-! ### The three counts of step 5 together -/

/-- The counts of step 5; `declared` and `began` say that the batch declared the event, and that it began CLOSING (R63). -/
def advanceCounts (declared began : Bool) (st : Stamp) (s : State) : State :=
  let aged := advanceAge declared s
  let posted := advancePost (began || (s.evu.phase == .opened && aged.evu.phase == .closing)) st aged
  advanceTail (aged.evu.phase == .closing && posted.evu.phase == .idle) posted

theorem evuBatch_eq (b : Batch) (s : State) :
    evuBatch b s =
      let joined := endContributions (batchChanges b s)
      let judged := evaluatePhase b.stamp joined
      advanceCounts (joined.evu.phase == .idle && judged.evu.phase != .idle)
        (joined.evu.phase == .opened && judged.evu.phase == .closing) b.stamp (takeReports b judged) := rfl

/-- Step 4 and 5 of a batch start no contribution, and leave the vote sum right (R65). -/
theorem evuBatch_tallies (b : Batch) (s : State) : Tallies (endContributions (batchChanges b s)) (evuBatch b s) := by
  rw [evuBatch_eq]
  dsimp only
  unfold advanceCounts
  exact (evaluatePhase_tallies _ _).trans ((takeReports_keeps b _).2.trans
    ((advanceAge_tallies _ _).trans ((advancePost_tallies _ _ _).trans (advanceTail_tallies _ _))))

theorem advanceTail_of_going (fresh : Bool) (going : s.evu.phase ≠ .idle) : advanceTail fresh s = s := by
  unfold advanceTail
  split
  · rfl
  · exact if_pos (.inl going)

theorem advanceTail_fresh (s : State) : advanceTail true s = s := by
  unfold advanceTail
  split
  · rfl
  · exact if_pos (.inr rfl)

/-- The age that reaches the greatest length forces the closing (R72). -/
theorem advanceCounts_forces {began : Bool} {st : Stamp} (going : s.evu.phase ≠ .idle) (unforced : s.evu.forced = false)
    (whole : s.evu.phase = .opened ∨ began = true)
    (reached : s.instants s.tables.event.maxLength ≤ s.evu.age + 1) {n : Nat} (current : s.evu.current = some n) :
    advanceCounts false began st s = forceClosing (s.withEvu fun e => { e with age := e.age + 1 }) := by
  let v := s.withEvu fun e => { e with age := e.age + 1 }
  have aged : advanceAge false s = forceClosing v := by
    rw [advanceAge, if_neg (by simp [going, unforced])]
    exact if_pos reached
  obtain ⟨closing, -⟩ := forceClosing_of_current (s := v) current
  have fresh : (began || (s.evu.phase == .opened && (forceClosing v).evu.phase == .closing)) = true := by
    rw [closing]
    obtain opened | began := whole
    · simp [opened]
    · simp [began]
  have posted : advancePost true st (forceClosing v) = forceClosing v := if_pos (.inr rfl)
  unfold advanceCounts
  dsimp only
  rw [aged, fresh, posted, closing, advanceTail_of_going _ (by rw [closing]; exact EventPhase.noConfusion)]

/-- The age that forces nothing. -/
theorem advanceAge_of_young
    (age : s.evu.forced = true ∨ s.evu.age + 1 < s.instants s.tables.event.maxLength) :
    ∃ a, advanceAge false s = s.withEvu fun e => { e with age := a } := by
  unfold advanceAge
  split
  · exact ⟨s.evu.age, rfl⟩
  · next h =>
    obtain forced | young := age
    · exact absurd (.inr (.inl forced)) h
    · exact ⟨s.evu.age + 1, if_neg (Nat.not_le.mpr young)⟩

/-- The post-event count that is out closes the event, and starts its tail (R73, R77). -/
theorem advanceCounts_closes {st : Stamp} (closing : s.evu.phase = .closing)
    (age : s.evu.forced = true ∨ s.evu.age + 1 < s.instants s.tables.event.maxLength)
    (out : s.instants s.tables.event.postEvent ≤ s.evu.post + 1) {n : Nat} (current : s.evu.current = some n) :
    ∃ a, advanceCounts false false st s = closeEvent st (s.withEvu fun e => { e with age := a, post := e.post + 1 }) := by
  obtain ⟨a, aged⟩ := advanceAge_of_young age
  let v := s.withEvu fun e => { e with age := a }
  let w := s.withEvu fun e => { e with age := a, post := e.post + 1 }
  have posted : advancePost false st v = closeEvent st w := by
    rw [advancePost, if_neg (by simp [v, State.withEvu, closing])]
    exact if_pos out
  obtain ⟨idle, -⟩ := closeEvent_of_current (s := w) st current
  refine ⟨a, ?_⟩
  unfold advanceCounts
  dsimp only
  have still : v.evu.phase = .closing := closing
  rw [aged, closing, still, show (EventPhase.closing == EventPhase.opened) = false from rfl, Bool.false_and, Bool.or_false,
    posted, idle]
  exact advanceTail_fresh _

/-- The tail that is out in IDLE stops (R77). -/
theorem advanceCounts_ends_tail {declared began : Bool} {st : Stamp} {n : Nat} (idle : s.evu.phase = .idle)
    (tail : s.evu.tail = some n) (out : s.instants s.tables.event.quietTail ≤ n + 1) :
    advanceCounts declared began st s = s.withEvu fun e => { e with tail := none } := by
  have aged : advanceAge declared s = s := if_pos (.inl idle)
  have posted (fresh : Bool) : advancePost fresh st s = s := if_pos (.inl (by rw [idle]; exact EventPhase.noConfusion))
  unfold advanceCounts
  dsimp only
  rw [aged, posted, idle, advanceTail, tail]
  dsimp only
  rw [if_neg (by simp [idle]), if_pos out]

end Sys2Proof.Machine
end

section
/-!
SUPPORT. What a batch does where a count reaches its end: the ends of a contribution, of an event's length, of its post-event time
and of the quiet tail (R65, R72, R73, R77).
-/

namespace Sys2Proof.Machine

variable {b : Batch} {s t u : State}

theorem batchChanges_events (b : Batch) (s : State) : Events s (batchChanges b s) :=
  (advanceWindows_events s).trans (takeChanges_events b channels (advanceWindows s))

/-- Steps 1 to 4 of a batch with its reports. -/
theorem reported_events (b : Batch) (s : State) : Events s (takeReports b (phaseJudged b s)) :=
  ((batchChanges_events b s).trans (endContributions_events _)).trans
    ((evaluatePhase_events _ _).trans (reports_events b _))

theorem Events.instants_eq (h : Events s t) (n : Nat) : t.instants n = s.instants n := by
  obtain ⟨e, w, a, c, q, rfl⟩ := h
  rfl

theorem Events.tables (h : Events s t) : t.tables = s.tables := by
  obtain ⟨e, w, a, c, q, rfl⟩ := h
  rfl

theorem joined_progress (h : NoReopening b s) : (endContributions (batchChanges b s)).progress = s.progress :=
  (endContributions_progress _).trans (batchChanges_progress h)

/-- A record that is found under one course is found under an equal one. -/
theorem findRecord_of_course (h : t.progress = s.progress) {n : Nat} {r : EventRecord} (found : findRecord s n = some r) :
    ∃ r', findRecord t n = some r' ∧ r'.course = r.course := by
  have course := findRecord_course h n
  rw [found] at course
  exact Option.map_eq_some_iff.mp course

/-! ### Contributions (R65) -/

/-- A contribution whose window is out ends at step 3, where its channel is not triggered and does not trigger on. -/
theorem batchChanges_contributionEnds {c : Fin 6} {k : Contribution} (running : s.evu.contrib.get c = some k)
    (off : s.evu.triggered.get c = false) (quiet : b.changes.get c ≠ some true)
    (out : s.tables.event.window * s.sif.rate / 10 ≤ k.window + 1) :
    ∃ k', (batchChanges b s).evu.contrib.get c = some k' ∧ contributionEnds (batchChanges b s) c k' = true := by
  obtain ⟨k', running', window⟩ := batchChanges_window quiet running
  have off' := batchChanges_triggered quiet off
  obtain ⟨e, w, a, n, q, same⟩ := batchChanges_events b s
  refine ⟨k', running', ?_⟩
  have tables : (batchChanges b s).tables = s.tables := by rw [same]
  have sif : (batchChanges b s).sif = s.sif := by rw [same]
  simp only [contributionEnds, off', tables, sif, Bool.not_false, Bool.true_and, decide_eq_true_eq]
  omega

/-- It has ended when the batch is over, and the vote sum is the weight of what is left. -/
theorem evuBatch_contribution {c : Fin 6} {k : Contribution} (running : s.evu.contrib.get c = some k)
    (off : s.evu.triggered.get c = false) (quiet : b.changes.get c ≠ some true)
    (out : s.tables.event.window * s.sif.rate / 10 ≤ k.window + 1) :
    (evuBatch b s).evu.contrib.get c = none ∧ (evuBatch b s).evu.voteSum = weightSum (evuBatch b s).evu.contrib := by
  obtain ⟨k', running', ends⟩ := batchChanges_contributionEnds running off quiet out
  have tallies := evuBatch_tallies b s
  refine ⟨tallies.none c ?_, tallies.vote rfl⟩
  rw [endContributions_get, running']
  exact if_pos ends

/-! ### A forced closing (R72) -/

/-- Step 4 in an event goes to CLOSING or stays, with the event's number, age and records. -/
theorem evaluatePhase_of_open (st : Stamp) (opened : s.evu.phase = .opened) (unforced : s.evu.forced = false) :
    ((evaluatePhase st s).evu.phase = .opened ∨ (evaluatePhase st s).evu.phase = .closing) ∧
      (evaluatePhase st s).evu.forced = false ∧ (evaluatePhase st s).evu.current = s.evu.current ∧
      (evaluatePhase st s).evu.age = s.evu.age ∧ (evaluatePhase st s).cnt = s.cnt ∧
      (evaluatePhase st s).evu.table.map (·.number) = s.evu.table.map (·.number) := by
  unfold evaluatePhase
  rw [opened]
  dsimp only
  unfold evaluateOpen
  split
  · let v := s.withEvu fun e => { e with phase := .closing, forced := false, post := 0 }
    obtain ⟨l, e⟩ := updateCurrent_eq (fun r => { r with state := .closing }) v
    have numbers := updateCurrent_map (p := (·.number)) (f := fun r => { r with state := .closing }) (fun _ => rfl) v
    rw [e] at numbers ⊢
    exact ⟨.inr rfl, rfl, rfl, rfl, rfl, numbers⟩
  · exact ⟨.inl opened, unforced, rfl, rfl, rfl, rfl⟩

theorem findRecord_isSome_of_numbers (h : t.evu.table.map (·.number) = s.evu.table.map (·.number)) (n : Nat) :
    (findRecord t n).isSome = (findRecord s n).isSome := by
  have same := congrArg Option.isSome (findRecord_map (p := (·.number)) (q := id) (fun _ => rfl) h n)
  simpa using same

/-- Before step 5, an OPEN event is OPEN or has just begun CLOSING. -/
theorem reported_of_open (opened : s.evu.phase = .opened) (unforced : s.evu.forced = false) :
    let v := takeReports b (phaseJudged b s)
    (v.evu.phase = .opened ∨ v.evu.phase = .closing) ∧ v.evu.phase = (phaseJudged b s).evu.phase ∧ v.evu.forced = false ∧
      v.evu.current = s.evu.current ∧ v.evu.age = s.evu.age ∧ v.cnt[(14 : Fin 40)] = s.cnt[(14 : Fin 40)] ∧
      ∀ n, (findRecord v n).isSome = (findRecord s n).isSome := by
  have joined := joined_progress (b := b) (s := s) (.inl (by rw [opened]; exact EventPhase.noConfusion))
  obtain ⟨phase3, forced3, current3, age3, -, -, -, count3⟩ := progress_fields joined
  obtain ⟨phase4, forced4, current4, age4, count4, numbers4⟩ :=
    evaluatePhase_of_open b.stamp (phase3.trans opened) (forced3.trans unforced)
  have reports := (takeReports_keeps b (phaseJudged b s)).1
  obtain ⟨phase5, forced5, current5, age5, -, -, -, count5⟩ := progress_fields reports
  refine ⟨?_, phase5, forced5.trans forced4, current5.trans (current4.trans current3), age5.trans (age4.trans age3), ?_, ?_⟩
  · rw [phase5]
    exact phase4
  · exact count5.trans ((congrArg (·[(14 : Fin 40)]) count4).trans count3)
  · intro n
    have found5 := congrArg Option.isSome (findRecord_course reports n)
    have found3 := congrArg Option.isSome (findRecord_course joined n)
    simp only [Option.isSome_map] at found5 found3
    exact found5.trans ((findRecord_isSome_of_numbers numbers4 n).trans found3)

/-- The age that reaches the greatest length begins CLOSING, forced. -/
theorem evuBatch_forces {n : Nat} (opened : s.evu.phase = .opened) (unforced : s.evu.forced = false)
    (current : s.evu.current = some n) (found : (findRecord s n).isSome = true)
    (reached : s.tables.event.maxLength * s.sif.rate ≤ s.evu.age + 1) :
    (evuBatch b s).evu.phase = .closing ∧ (evuBatch b s).evu.forced = true ∧ (evuBatch b s).evu.current = some n ∧
      (∃ r, findRecord (evuBatch b s) n = some r ∧ r.state = .closing ∧ r.reason = some .maxLength) ∧
      (evuBatch b s).cnt[(14 : Fin 40)] = s.cnt[(14 : Fin 40)] + 1 := by
  let v := takeReports b (phaseJudged b s)
  obtain ⟨going, phase, unforced', current', age, count, records⟩ := reported_of_open (b := b) opened unforced
  have frame := reported_events b s
  have notIdle : v.evu.phase ≠ .idle := by
    obtain h | h := going <;> rw [h] <;> exact EventPhase.noConfusion
  have phase3 : (endContributions (batchChanges b s)).evu.phase = .opened :=
    (progress_fields (joined_progress (.inl (by rw [opened]; exact EventPhase.noConfusion)))).1.trans opened
  have batch : evuBatch b s = forceClosing (v.withEvu fun e => { e with age := e.age + 1 }) := by
    rw [evuBatch_eq]
    dsimp only
    rw [phase3]
    refine advanceCounts_forces notIdle unforced' ?_ ?_ (current'.trans current)
    · refine going.imp_right fun closing => ?_
      rw [← phaseJudged, ← phase, closing]
      rfl
    · exact (frame.instants_eq _).trans_le (frame.tables ▸ age ▸ reached)
  obtain ⟨closing, forced, still, changed, counted⟩ :=
    forceClosing_of_current (s := v.withEvu fun e => { e with age := e.age + 1 }) (current'.trans current)
  obtain ⟨r, hr⟩ := Option.isSome_iff_exists.mp ((records n).trans found)
  rw [batch]
  refine ⟨closing, forced, still, ⟨r.force, ?_, rfl, rfl⟩, counted.trans (congrArg (· + 1) count)⟩
  rw [changed, show findRecord (v.withEvu fun e => { e with age := e.age + 1 }) n = some r from hr]
  rfl

/-! ### The close at the end of the post-event time (R73) -/

/-- Before step 5, a CLOSING event that is not reopened is as it was. -/
theorem reported_of_closing (closing : s.evu.phase = .closing) (quiet : NoReopening b s) :
    (takeReports b (phaseJudged b s)).progress = s.progress ∧ (phaseJudged b s).evu.phase = .closing := by
  have joined := joined_progress quiet
  have phase3 := (progress_fields joined).1.trans closing
  have judged : phaseJudged b s = endContributions (batchChanges b s) := by
    rw [phaseJudged, evaluatePhase, phase3]
  exact ⟨(takeReports_keeps b _).1.trans ((congrArg State.progress judged).trans joined),
    (congrArg (fun v : State => v.evu.phase) judged).trans phase3⟩

/-- The post-event count that is out closes the record, ends the contributions and starts the tail. -/
theorem evuBatch_closes {n : Nat} {r : EventRecord} (closing : s.evu.phase = .closing) (current : s.evu.current = some n)
    (found : findRecord s n = some r)
    (age : s.evu.forced = true ∨
      (∀ c, b.changes.get c ≠ some true) ∧ s.evu.age + 1 < s.tables.event.maxLength * s.sif.rate)
    (out : s.tables.event.postEvent * s.sif.rate ≤ s.evu.post + 1) :
    (evuBatch b s).evu.phase = .idle ∧ (evuBatch b s).evu.current = none ∧
      (∀ c, (evuBatch b s).evu.contrib.get c = none) ∧ (evuBatch b s).evu.voteSum = 0 ∧
      (evuBatch b s).evu.tail = (if 0 < s.tables.event.quietTail then some 0 else none) ∧
      ∃ r', findRecord (evuBatch b s) n = some r' ∧ r'.state = .closed ∧ r'.closed = some b.stamp ∧
        r'.reason = some (r.reason.getD .normal) ∧ r'.declared = r.declared := by
  let v := takeReports b (phaseJudged b s)
  have quiet : NoReopening b s := .inr (age.imp_right And.left)
  obtain ⟨progress, phase4⟩ := reported_of_closing closing quiet
  obtain ⟨phase5, forced5, current5, age5, post5, -⟩ := progress_fields progress
  have phase3 := (progress_fields (joined_progress quiet)).1.trans closing
  have frame := reported_events b s
  obtain ⟨a, batch⟩ := advanceCounts_closes (s := v) (st := b.stamp) (n := n) (phase5.trans closing)
    (by
      rw [forced5, age5, frame.instants_eq, frame.tables]
      exact age.imp_right And.right)
    (by
      rw [post5, frame.instants_eq, frame.tables]
      exact out)
    (current5.trans current)
  have batch : evuBatch b s = closeEvent b.stamp (v.withEvu fun e => { e with age := a, post := e.post + 1 }) := by
    rw [← batch, evuBatch_eq]
    dsimp only
    rw [← phaseJudged, phase3, phase4]
    rfl
  obtain ⟨idle, rest, ended, vote, tail, record⟩ := closeEvent_of_current b.stamp
    (s := v.withEvu fun e => { e with age := a, post := e.post + 1 }) (current5.trans current)
  obtain ⟨r', found', course⟩ := findRecord_of_course progress found
  simp only [EventRecord.course, Prod.mk.injEq] at course
  obtain ⟨-, -, declared, -, reason⟩ := course
  rw [batch]
  refine ⟨idle, rest, ended, vote, tail.trans ?_, r'.close b.stamp id, ?_, rfl, rfl, ?_, declared⟩
  · show (if 0 < v.tables.event.quietTail then some 0 else none) = _
    rw [frame.tables]
  · rw [record, show findRecord (v.withEvu fun e => { e with age := a, post := e.post + 1 }) n = some r' from found']
    rfl
  · show some (r'.reason.getD .normal) = _
    rw [reason]

/-! ### The quiet tail (R77) -/

/-- A batch that declares no event in IDLE leaves the event's course up to step 5. -/
theorem reported_of_idle (idle : s.evu.phase = .idle) (declines : Declines b s) :
    (takeReports b (phaseJudged b s)).progress = s.progress := by
  have joined := joined_progress (b := b) (s := s) (.inl (by rw [idle]; exact EventPhase.noConfusion))
  have phase3 := (progress_fields joined).1.trans idle
  obtain going | ⟨quiet, light⟩ := declines
  · exact absurd idle going
  have below : (endContributions (batchChanges b s)).evu.voteSum < (endContributions (batchChanges b s)).tables.event.threshold :=
    ((endContributions_voteSum _).trans (weightSum_mono fun c => (batchChanges_weight quiet s c).le)).trans_lt
      (light.trans_eq (congrArg (·.event.threshold) (batchChanges_tables b s)).symm)
  have judged : phaseJudged b s = endContributions (batchChanges b s) := by
    rw [phaseJudged, evaluatePhase, phase3]
    exact if_neg (Nat.not_le.mpr below)
  exact (takeReports_keeps b _).1.trans ((congrArg State.progress judged).trans joined)

/-- The tail that is out stops, in IDLE with no declaration. -/
theorem evuBatch_ends_tail {n : Nat} (idle : s.evu.phase = .idle) (tail : s.evu.tail = some n) (declines : Declines b s)
    (out : s.tables.event.quietTail * s.sif.rate ≤ n + 1) :
    (evuBatch b s).evu.phase = .idle ∧ (evuBatch b s).evu.tail = none := by
  have progress := reported_of_idle idle declines
  obtain ⟨phase, -, -, -, -, tail5, -⟩ := progress_fields progress
  have frame := reported_events b s
  rw [evuBatch_eq]
  dsimp only
  rw [← phaseJudged, advanceCounts_ends_tail (phase.trans idle) (tail5.trans tail) (by
    rw [frame.instants_eq, frame.tables]
    exact out)]
  exact ⟨phase.trans idle, rfl⟩

end Sys2Proof.Machine
end

section
/-!
SUPPORT. A sample instant inside its step: what comes before it (a list without its front entry, the counts and marks of the
delivery) leaves what the batch reads, and what follows it (the writer, the packer, a gap reset, the new strobe, the work at the step's end)
leaves what the batch has brought about of the event's course.
-/

namespace Sys2Proof.Machine

variable {s t u w : State} {e : Strobe} {rest : List Strobe} {f : DigFrame} {item : SampleItem}

/-! ### Before the instant -/

/-- `t` shows a sample instant what `s` shows it: EVU, the detectors, the tables, the rate; and K14. -/
structure Alike (s t : State) : Prop where
  evu : t.evu = s.evu
  det : t.det = s.det
  tables : t.tables = s.tables
  rate : t.sif.rate = s.sif.rate
  count : t.cnt[(14 : Fin 40)] = s.cnt[(14 : Fin 40)]

theorem Alike.trans (h : Alike s t) (h' : Alike t u) : Alike s u :=
  ⟨h'.evu.trans h.evu, h'.det.trans h.det, h'.tables.trans h.tables, h'.rate.trans h.rate, h'.count.trans h.count⟩

theorem Listed.alike (h : Listed rest s t) : Alike s t :=
  ⟨h.evu, h.det, h.tables, h.rate, by rw [h.cnt]⟩

/-- K14 is counted by nothing but a forced closing. -/
theorem onsetA6_forced (cause : DigitizerCause) (s : State) :
    (onsetA6 cause s).cnt[(14 : Fin 40)] = s.cnt[(14 : Fin 40)] :=
  reportCondition_counter_apart 6 true _ (k := 14) (by decide) _

theorem clearA6_forced (s : State) : (clearA6 s).cnt[(14 : Fin 40)] = s.cnt[(14 : Fin 40)] := by
  unfold clearA6
  split
  · exact reportCondition_counter_apart 6 false _ (k := 14) (by decide) _
  · rfl

theorem acceptedNoted_alike (e : Strobe) (s : State) : Alike s (acceptedNoted e s) :=
  ⟨(acceptedNoted_blocks e s).2.1, (acceptedNoted_blocks e s).1, (acceptedNoted_instants e s).tables, by rw [acceptedNoted_sif],
    count_getElem 0 14 s⟩

theorem usableNoted_alike (d : Delivered) (s : State) : Alike s (usableNoted d s) :=
  ⟨(usableNoted_blocks d s).2.1, (usableNoted_blocks d s).1, (usableNoted_instants d s).tables, by rw [usableNoted_sif],
    (clearA6_forced _).trans (countTimes_getElem _ 6 14 s)⟩

theorem faultNoted_forced (s : State) : (faultNoted s).cnt[(14 : Fin 40)] = s.cnt[(14 : Fin 40)] := by
  have counted : (count 5 (count 4 s)).cnt[(14 : Fin 40)] = s.cnt[(14 : Fin 40)] := by
    rw [count_getElem, if_neg (by decide), count_getElem, if_neg (by decide)]
  rw [faultNoted, onsetA6_forced, lengthenRun, State.withSif_cnt, counted]

theorem faultNoted_alike (s : State) : Alike s (faultNoted s) :=
  ⟨(faultNoted_blocks s).2.1, (faultNoted_blocks s).1, (faultNoted_instants s).tables, by rw [faultNoted_sif],
    faultNoted_forced s⟩

theorem missingNoted_alike (e : Strobe) (s : State) : Alike s (missingNoted e s) :=
  ⟨(missingNoted_blocks e s).2.1, (missingNoted_blocks e s).1, (missingNoted_instants e s).tables, by rw [missingNoted_sif],
    count_getElem 4 14 s⟩

theorem Alike.bankInstant (h : Alike s t) (item : SampleItem) : bankInstant item t = bankInstant item s := by
  rw [Machine.bankInstant, Machine.bankInstant, h.det, h.rate, h.tables]

theorem Alike.quietAt {c : Fin 6} (h : Alike s t) (quiet : QuietAt item s c) : QuietAt item t c := by
  rwa [QuietAt, h.bankInstant]

theorem Alike.findRecord (h : Alike s t) (n : Nat) : findRecord t n = findRecord s n :=
  findRecord_congr (congrArg Evu.table h.evu) n

/-- The bank's work counts K7 to K12 alone, and sets the detectors. -/
theorem bankWork_count (item : SampleItem) (s : State) : (bankWork item s).cnt[(14 : Fin 40)] = s.cnt[(14 : Fin 40)] := by
  have counted (r : DetResult) (c : Fin 6) (u : State) :
      (countTriggerOn r c u).cnt[(14 : Fin 40)] = u.cnt[(14 : Fin 40)] := by
    unfold countTriggerOn
    split
    · exact (count_getElem _ 14 u).trans (if_neg (Fin.ne_of_lt (show 7 + c.val < 14 by omega)))
    · rfl
  exact List.foldlRecOn (motive := fun u : State => u.cnt[(14 : Fin 40)] = s.cnt[(14 : Fin 40)]) channels _ rfl
    fun u hu c _ => (counted _ c u).trans hu

theorem bankWork_kept (item : SampleItem) (s : State) :
    (bankWork item s).evu = s.evu ∧ (bankWork item s).tables = s.tables ∧ (bankWork item s).sif = s.sif := by
  obtain ⟨a, n, q, h⟩ := bankWork_alerts item s
  rw [h]
  exact ⟨rfl, rfl, rfl⟩

theorem bankBatch_change {st : Stamp} {c : Fin 6} (quiet : QuietAt item s c) :
    (bankBatch st item s).changes.get c ≠ some true := by
  rw [bankBatch, Six.get_map]
  exact quiet

/-! ### The instant -/

/-- A contribution whose window is out at an instant without a trigger-on of its channel (R65). -/
structure WindowOut (c : Fin 6) (item : SampleItem) (s : State) : Prop where
  running : ∃ k, s.evu.contrib.get c = some k ∧ s.tables.event.window * s.sif.rate / 10 ≤ k.window + 1
  off : s.evu.triggered.get c = false
  quiet : QuietAt item s c

theorem WindowOut.congr {c : Fin 6} (h : WindowOut c item s) (same : Alike s t) : WindowOut c item t := by
  obtain ⟨running, off, quiet⟩ := h
  exact ⟨by rwa [same.evu, same.tables, same.rate], by rwa [same.evu], same.quietAt quiet⟩

theorem WindowOut.ends {c : Fin 6} (h : WindowOut c item s) (st : Stamp) :
    let changed := batchChanges (bankBatch st item s) (bankWork item s)
    ∃ k, changed.evu.contrib.get c = some k ∧ contributionEnds changed c k = true := by
  obtain ⟨⟨k, running, out⟩, off, quiet⟩ := h
  obtain ⟨evu, tables, sif⟩ := bankWork_kept item s
  exact batchChanges_contributionEnds (evu ▸ running) (evu ▸ off) (bankBatch_change quiet) (by rwa [tables, sif])

theorem WindowOut.sampled {c : Fin 6} (h : WindowOut c item s) (st : Stamp) :
    (sampleInstant st item s).evu.contrib.get c = none ∧
      (sampleInstant st item s).evu.voteSum = weightSum (sampleInstant st item s).evu.contrib := by
  obtain ⟨⟨k, running, out⟩, off, quiet⟩ := h
  obtain ⟨evu, tables, sif⟩ := bankWork_kept item s
  exact evuBatch_contribution (evu ▸ running) (evu ▸ off) (bankBatch_change quiet) (by rwa [tables, sif])

/-- The age of an OPEN event reaches the greatest length at the next instant (R72). -/
structure LengthReached (n : Nat) (s : State) : Prop where
  opened : s.evu.phase = .opened
  unforced : s.evu.forced = false
  current : s.evu.current = some n
  found : (findRecord s n).isSome = true
  reached : s.tables.event.maxLength * s.sif.rate ≤ s.evu.age + 1

theorem LengthReached.congr {n : Nat} (h : LengthReached n s) (same : Alike s t) : LengthReached n t := by
  obtain ⟨opened, unforced, current, found, reached⟩ := h
  exact ⟨by rwa [same.evu], by rwa [same.evu], by rwa [same.evu], by rwa [same.findRecord],
    by rwa [same.evu, same.tables, same.rate]⟩

/-- What a forced closing shows of the event (R72). -/
structure ForcedClosing (n : Nat) (count : BitVec 32) (t : State) : Prop where
  closing : t.evu.phase = .closing
  forced : t.evu.forced = true
  current : t.evu.current = some n
  record : ∃ r, findRecord t n = some r ∧ r.state = .closing ∧ r.reason = some .maxLength
  counted : t.cnt[(14 : Fin 40)] = count + 1

theorem LengthReached.sampled {n : Nat} (h : LengthReached n s) (st : Stamp) (item : SampleItem) :
    ForcedClosing n s.cnt[(14 : Fin 40)] (sampleInstant st item s) := by
  obtain ⟨opened, unforced, current, found, reached⟩ := h
  obtain ⟨evu, tables, sif⟩ := bankWork_kept item s
  have found' : (findRecord (bankWork item s) n).isSome = true := by rwa [findRecord_congr (congrArg Evu.table evu)]
  obtain ⟨closing, forced, still, record, counted⟩ := evuBatch_forces (b := bankBatch st item s) (s := bankWork item s)
    (evu ▸ opened) (evu ▸ unforced) (evu ▸ current) found' (by rwa [tables, sif, evu])
  exact ⟨closing, forced, still, record, counted.trans (congrArg (· + 1) (bankWork_count item s))⟩

/-- The post-event time of a CLOSING event is out at the next instant, which neither reopens nor forces it (R73). -/
structure PostOut (n : Nat) (r : EventRecord) (item : SampleItem) (s : State) : Prop where
  closing : s.evu.phase = .closing
  current : s.evu.current = some n
  found : findRecord s n = some r
  age : s.evu.forced = true ∨ (NoTriggerOn item s ∧ s.evu.age + 1 < s.tables.event.maxLength * s.sif.rate)
  out : s.tables.event.postEvent * s.sif.rate ≤ s.evu.post + 1

theorem PostOut.congr {n : Nat} {r : EventRecord} (h : PostOut n r item s) (same : Alike s t) : PostOut n r item t := by
  obtain ⟨closing, current, found, age, out⟩ := h
  exact ⟨by rwa [same.evu], by rwa [same.evu], by rwa [same.findRecord], by
    rw [same.evu, same.tables, same.rate]
    exact age.imp_right fun ⟨quiet, young⟩ => ⟨fun c => same.quietAt (quiet c), young⟩,
    by rwa [same.evu, same.tables, same.rate]⟩

/-- What the close of event `n` at the end of its post-event time shows, but for the vote (R73). -/
structure Closed (n : Nat) (r : EventRecord) (st : Stamp) (tail : Option Nat) (t : State) : Prop where
  idle : t.evu.phase = .idle
  current : t.evu.current = none
  tail : t.evu.tail = tail
  record : ∃ r', findRecord t n = some r' ∧ r'.state = .closed ∧ r'.closed = some st ∧
    r'.reason = some (r.reason.getD .normal) ∧ r'.declared = r.declared

theorem PostOut.sampled {n : Nat} {r : EventRecord} (h : PostOut n r item s) (st : Stamp) :
    Closed n r st (if 0 < s.tables.event.quietTail then some 0 else none) (sampleInstant st item s) ∧
      (∀ c, (sampleInstant st item s).evu.contrib.get c = none) ∧ (sampleInstant st item s).evu.voteSum = 0 := by
  obtain ⟨closing, current, found, age, out⟩ := h
  obtain ⟨evu, tables, sif⟩ := bankWork_kept item s
  have found' : findRecord (bankWork item s) n = some r := by rwa [findRecord_congr (congrArg Evu.table evu)]
  obtain ⟨idle, ended, contrib, vote, tail, record⟩ := evuBatch_closes (b := bankBatch st item s) (s := bankWork item s)
    (evu ▸ closing) (evu ▸ current) found'
    (by
      rw [tables, sif, evu]
      exact age.imp_right fun ⟨quiet, young⟩ => ⟨fun c => bankBatch_change (quiet c), young⟩)
    (by rwa [tables, sif, evu])
  exact ⟨⟨idle, ended, tail.trans (by rw [tables]), record⟩, contrib, vote⟩

/-- The quiet tail is out at the next instant, which declares no event (R77). -/
structure TailOut (n : Nat) (item : SampleItem) (s : State) : Prop where
  idle : s.evu.phase = .idle
  tail : s.evu.tail = some n
  declines : NoDeclaration item s
  out : s.tables.event.quietTail * s.sif.rate ≤ n + 1

theorem TailOut.congr {n : Nat} (h : TailOut n item s) (same : Alike s t) : TailOut n item t := by
  obtain ⟨idle, tail, declines, out⟩ := h
  exact ⟨by rwa [same.evu], by rwa [same.evu], declines.congr same.det same.rate same.evu same.tables,
    by rwa [same.tables, same.rate]⟩

theorem TailOut.sampled {n : Nat} (h : TailOut n item s) (st : Stamp) :
    (sampleInstant st item s).evu.phase = .idle ∧ (sampleInstant st item s).evu.tail = none := by
  obtain ⟨idle, tail, declines, out⟩ := h
  obtain ⟨evu, tables, sif⟩ := bankWork_kept item s
  have declines' : Declines (bankBatch st item s) (bankWork item s) := by
    rw [Declines, evu, tables]
    exact declines.imp_right fun ⟨quiet, light⟩ => ⟨fun c => bankBatch_change (quiet c), light⟩
  exact evuBatch_ends_tail (evu ▸ idle) (evu ▸ tail) declines' (by rwa [tables, sif])

/-! ### After the instant -/

/-- `t` shows of the event what `s` shows: its course, where it is not OPEN, and the contributions. -/
structure Aftermath (s t : State) : Prop where
  progress : s.evu.phase ≠ .opened → t.progress = s.progress
  tallies : Tallies s t

theorem Aftermath.refl (s : State) : Aftermath s s := ⟨fun _ => rfl, .refl s⟩

theorem Aftermath.trans (h : Aftermath s t) (h' : Aftermath t u) : Aftermath s u := by
  refine ⟨fun shut => ?_, h.tallies.trans h'.tallies⟩
  have first := h.progress shut
  exact (h'.progress ((progress_fields first).1 ▸ shut)).trans first

/-- What leaves EVU and K14. -/
theorem Aftermath.of_evu (evu : t.evu = s.evu) (count : t.cnt[(14 : Fin 40)] = s.cnt[(14 : Fin 40)]) : Aftermath s t :=
  ⟨fun _ => by rw [State.progress, State.progress, evu, count], .of_eq (by rw [evu]) (by rw [evu])⟩

theorem Waves.aftermath (h : Waves s t) : Aftermath s t := ⟨fun _ => h.progress, h.tallies⟩

/-! The packer counts K27 alone. -/

theorem queueData_forced (x : DataFrame) (s : State) : (queueData x s).cnt[(14 : Fin 40)] = s.cnt[(14 : Fin 40)] := by
  unfold queueData
  split
  · exact count_getElem 27 14 _
  · rfl

theorem closeData_forced (s : State) : (closeData s).cnt[(14 : Fin 40)] = s.cnt[(14 : Fin 40)] := by
  unfold closeData
  split
  · rfl
  · exact queueData_forced _ _

theorem closeFull_forced (s : State) : (closeFull s).cnt[(14 : Fin 40)] = s.cnt[(14 : Fin 40)] := by
  unfold closeFull
  split
  · rfl
  · split
    · exact closeData_forced s
    · rfl

theorem packFrame_aftermath (d : Delivered) (s : State) : Aftermath s (packFrame d s) := by
  obtain ⟨-, -, evu, -⟩ := (packFrame_packs d s).blocks
  refine .of_evu evu ?_
  unfold packFrame
  split
  · rfl
  · split
    · exact closeFull_forced _
    · split
      · exact (closeFull_forced _).trans (closeData_forced s)
      · exact closeFull_forced _

theorem packMissing_aftermath (s : State) : Aftermath s (packMissing s) := by
  obtain ⟨-, -, evu, -⟩ := (packMissing_packs s).blocks
  refine .of_evu evu ?_
  unfold packMissing
  split
  · rfl
  · exact closeData_forced s

/-! A gap reset ends no event, and reopens none. -/

theorem evaluateOpen_of_shut (shut : s.evu.phase ≠ .opened) : evaluateOpen s = s := if_neg fun ⟨opened, _⟩ => shut opened

theorem offBatchTriggerOff_aftermath (c : Fin 6) (moment : Time) (s : State) :
    Aftermath s (offBatchTriggerOff c moment s) := by
  have off : (endContributions (takeTriggerOff c moment s)).progress = s.progress := takeTriggerOff_progress c moment s
  refine ⟨fun shut => ?_,
    ((takeTriggerOff_tallies c moment s).trans (endContributions_tallies _)).trans (evaluateOpen_tallies _)⟩
  rw [offBatchTriggerOff, evaluateOpen_of_shut ((progress_fields off).1 ▸ shut), off]

theorem gapResetChannel_aftermath (moment : Time) (c : Fin 6) (s : State) : Aftermath s (gapResetChannel moment c s) := by
  have rewarmed : Aftermath s (updateDetector c Detector.rewarm s) := .of_evu rfl rfl
  unfold gapResetChannel
  dsimp only
  split
  · exact .refl s
  · split
    · exact rewarmed.trans (offBatchTriggerOff_aftermath c moment _)
    · exact rewarmed

theorem judgeGap_aftermath (moment : Time) (s : State) : Aftermath s (judgeGap moment s) := by
  obtain ⟨-, e⟩ | ⟨-, e⟩ := judgeGap_cases moment s
  · have signalled : Aftermath s (s.withSif fun f => { f with gapSignalled := true }) := .of_evu rfl rfl
    have reset := fold_keeps Aftermath.refl Aftermath.trans (fun s c => gapResetChannel_aftermath moment c s) channels
      (s.withSif fun f => { f with gapSignalled := true })
    rw [e]
    exact (signalled.trans reset).trans (.of_evu (onsetA6_blocks _ _).2.1 (onsetA6_forced _ _))
  · rw [e]
    exact .refl s

theorem placeStrobe_aftermath (e : Strobe) (s : State) : Aftermath s (placeStrobe e s) := .of_evu rfl rfl

/-- The work at the end of the step may mark records blanked-during, and leaves the rest of EVU. -/
theorem settle_aftermath (s : State) : Aftermath s (settle s) := by
  have evu := butSwitching_evu (settle_butSwitching s)
  have table : (settle s).evu.table.map EventRecord.course = s.evu.table.map EventRecord.course :=
    map_of_finer (g := EventRecord.unblanked) (q := EventRecord.course) (fun _ => rfl) (congrArg Evu.table evu)
  have marks := congrArg (fun x : Evu => ((x.phase, x.forced, x.current, x.age, x.post, x.tail), x.contrib, x.voteSum)) evu
  simp only [Prod.mk.injEq] at marks
  obtain ⟨⟨phase, forced, current, age, post, tail⟩, contrib, vote⟩ := marks
  refine ⟨fun _ => ?_, .of_eq contrib vote⟩
  rw [State.progress, State.progress, phase, forced, current, age, post, tail, table, settle_counter 14 s]

/-! ### The leaving of the front entry -/

/-- The entry's leaving is a sample instant with what the entry holds, between what is noted before and what follows. -/
theorem deliver_instant (e : Strobe) (f : DigFrame) (s : State) :
    ∃ v, Alike s v ∧
      Aftermath (sampleInstant ⟨e.time, e.tq⟩ (if f.fault then none else some (f.samples, f.clips)) v) (deliver e f s) := by
  cases fault : f.fault with
  | false =>
    rw [deliver_of_good fault, if_neg Bool.false_ne_true]
    exact ⟨_, (acceptedNoted_alike e s).trans (usableNoted_alike _ _),
      (writeFrame_waves _ _).aftermath.trans (packFrame_aftermath _ _)⟩
  | true =>
    rw [deliver_of_fault fault, if_pos rfl]
    exact ⟨_, (acceptedNoted_alike e s).trans (faultNoted_alike _),
      ((writeFrame_waves _ _).aftermath.trans (packMissing_aftermath _)).trans (judgeGap_aftermath _ _)⟩

theorem declareMissing_instant (e : Strobe) (s : State) :
    ∃ v, Alike s v ∧ Aftermath (sampleInstant ⟨e.time, e.tq⟩ none v) (declareMissing e s) := by
  rw [declareMissing_eq]
  exact ⟨_, missingNoted_alike e s, (packMissing_aftermath _).trans (judgeGap_aftermath _ _)⟩

/-! ### The step -/

/-- A step that takes one sample instant: the instant as the step's rows look for it, and what comes before and after it. -/
structure InstantTaken (via : InstantStep) (e : Strobe) (item : SampleItem) (s v : State) (x : Instant) : Prop where
  mem : x ∈ instantsOf via s
  stamp : (⟨x.entry.time, x.entry.tq⟩ : Stamp) = ⟨e.time, e.tq⟩
  handed : x.item = item
  before : Alike s x.before
  noted : Alike s v
  after : Aftermath (sampleInstant ⟨e.time, e.tq⟩ item v) x.after
  settled : Aftermath x.after (settle (runInstant via s))

theorem OneInstant.supply {via : InstantStep} (h : OneInstant via e item s) : s.supply = .on := by
  cases h with
  | frame after front => exact front.supply
  | strobe pushed behind => exact pushed.supply

theorem OneInstant.taken {via : InstantStep} (h : OneInstant via e item s) : ∃ v x, InstantTaken via e item s v x := by
  cases h with
  | @frame bytes f e rest s after front =>
    obtain ⟨w, listed, run, mem⟩ := frontFrame_instant after front
    obtain ⟨v, noted, follows⟩ := deliver_instant e f w
    refine ⟨v, _, mem, rfl, rfl, listed.alike, listed.alike.trans noted, follows, ?_⟩
    rw [run]
    exact settle_aftermath _
  | @strobe e rest s pushed behind =>
    obtain ⟨w, listed, run, mem⟩ := pushedOut_instant pushed behind
    obtain ⟨v, noted, follows⟩ := declareMissing_instant e w
    have left : Instant.after ⟨e, w⟩ = declareMissing e w := leave_of_frameless pushed.empty w
    refine ⟨v, _, mem, rfl, ?_, listed.alike, listed.alike.trans noted, left.symm ▸ follows, ?_⟩
    · rw [Instant.item, pushed.empty]
    · rw [run, left]
      exact (placeStrobe_aftermath _ _).trans (settle_aftermath _)

end Sys2Proof.Machine
end

section
/-!
PROOF. The counts of an event that reach their ends (O13): a contribution's window, the event's length, its post-event time and the
quiet tail, each at a step that takes one sample instant.
-/

namespace Sys2Proof.Machine

variable {s v : State} {e : Strobe} {item : SampleItem} {via : InstantStep} {x : Instant} {n : Nat}

/-- The step has the occurrence where its instant has it. -/
theorem InstantTaken.step {p : Instant → Bool} (h : InstantTaken via e item s v x) (supply : s.supply = .on)
    (occurs : p x = true) : stepInstant p via s = .next (settle (runInstant via s)) :=
  stepInstant_of_mem supply h.mem occurs

/-- From the instant's batch to the end of the step. -/
theorem InstantTaken.followed (h : InstantTaken via e item s v x) :
    Aftermath (sampleInstant ⟨e.time, e.tq⟩ item v) (settle (runInstant via s)) := h.after.trans h.settled

/-! ### A contribution (R65) -/

theorem contributionEnd_at_instant {c : Fin 6} (one : OneInstant via e item s) (out : WindowOut c item s) :
    ∃ t, exec (.contributionEnd c via) s = .next t ∧ t.evu.contrib.get c = none ∧
      t.evu.voteSum = weightSum t.evu.contrib := by
  obtain ⟨v, x, taken⟩ := one.taken
  have occurs : endsContribution c x = true := by
    obtain ⟨k, running, ends⟩ := (out.congr taken.before).ends ⟨x.entry.time, x.entry.tq⟩
    rw [← taken.handed] at running ends
    have atStep3 : contributionEnds x.changed c k = true := ends
    simp [endsContribution, show x.changed.evu.contrib.get c = some k from running, atStep3]
  obtain ⟨ended, vote⟩ := (out.congr taken.noted).sampled ⟨e.time, e.tq⟩
  exact ⟨_, taken.step one.supply occurs, taken.followed.tallies.none c ended, taken.followed.tallies.vote vote⟩

/-! ### The forced closing (R72) -/

theorem ForcedClosing.after {count : BitVec 32} {t u : State} (h : ForcedClosing n count t) (later : Aftermath t u) :
    ForcedClosing n count u := by
  obtain ⟨closing, forced, current, ⟨r, found, state, reason⟩, counted⟩ := h
  have progress := later.progress (by rw [closing]; exact EventPhase.noConfusion)
  obtain ⟨phase', forced', current', -, -, -, -, count'⟩ := progress_fields progress
  obtain ⟨r', found', course⟩ := findRecord_of_course progress found
  simp only [EventRecord.course, Prod.mk.injEq] at course
  obtain ⟨-, state', -, -, reason'⟩ := course
  exact ⟨phase'.trans closing, forced'.trans forced, current'.trans current,
    ⟨r', found', state'.trans state, reason'.trans reason⟩, count'.trans counted⟩

theorem forcedClosing_at_instant (one : OneInstant via e item s) (reached : LengthReached n s) :
    ∃ t, exec (.forcedClosing via) s = .next t ∧ ForcedClosing n s.cnt[(14 : Fin 40)] t := by
  obtain ⟨v, x, taken⟩ := one.taken
  have sampled := (reached.congr taken.noted).sampled ⟨e.time, e.tq⟩ item
  rw [taken.noted.count] at sampled
  have after := sampled.after taken.after
  have occurs : forcesClosing x = true := by
    have counted : x.after.cnt[14] = x.before.cnt[14] + 1 := after.counted.trans (congrArg (· + 1) taken.before.count).symm
    rw [forcesClosing, counted, bne_iff_ne]
    bv_omega
  exact ⟨_, taken.step one.supply occurs, after.after taken.settled⟩

/-! ### The close (R73) -/

theorem Closed.after {r : EventRecord} {st : Stamp} {tail : Option Nat} {t u : State} (h : Closed n r st tail t)
    (later : Aftermath t u) : Closed n r st tail u := by
  obtain ⟨idle, current, tail, ⟨r', found, state, closed, reason, declared⟩⟩ := h
  have progress := later.progress (by rw [idle]; exact EventPhase.noConfusion)
  obtain ⟨phase', -, current', -, -, tail', -⟩ := progress_fields progress
  obtain ⟨r'', found', course⟩ := findRecord_of_course progress found
  simp only [EventRecord.course, Prod.mk.injEq] at course
  obtain ⟨-, state', declared', closed', reason'⟩ := course
  exact ⟨phase'.trans idle, current'.trans current, tail'.trans tail,
    ⟨r'', found', state'.trans state, closed'.trans closed, reason'.trans reason, declared'.trans declared⟩⟩

theorem weightSum_of_none {l : Six (Option Contribution)} (h : ∀ c, l.get c = none) : weightSum l = 0 :=
  Nat.le_zero.mp (weightSum_mono (w := Six.fill none) fun c => by rw [h c, Six.get_fill])

theorem eventClose_at_instant {r : EventRecord} (one : OneInstant via e item s) (out : PostOut n r item s) :
    ∃ t, exec (.eventClose via) s = .next t ∧
      Closed n r ⟨e.time, e.tq⟩ (if 0 < s.tables.event.quietTail then some 0 else none) t ∧
      (∀ c, t.evu.contrib.get c = none) ∧ t.evu.voteSum = 0 := by
  obtain ⟨v, x, taken⟩ := one.taken
  obtain ⟨sampled, ended, vote⟩ := (out.congr taken.noted).sampled ⟨e.time, e.tq⟩
  rw [taken.noted.tables] at sampled
  have after := sampled.after taken.after
  have occurs : closesEvent x = true := by
    rw [closesEvent, taken.before.evu, out.current, after.current]
    rfl
  have tallies := taken.followed.tallies
  have none' (c : Fin 6) := tallies.none c (ended c)
  exact ⟨_, taken.step one.supply occurs, after.after taken.settled, none',
    (tallies.vote (vote.trans (weightSum_of_none ended).symm)).trans (weightSum_of_none none')⟩

/-! ### The quiet tail (R77) -/

theorem quietTailEnd_at_instant (one : OneInstant via e item s) (out : TailOut n item s) :
    ∃ t, exec (.quietTailEnd via) s = .next t ∧ t.evu.tail = none ∧ quietHold t = false := by
  obtain ⟨v, x, taken⟩ := one.taken
  obtain ⟨idle, tail⟩ := (out.congr taken.noted).sampled ⟨e.time, e.tq⟩
  have ended {u : State} (later : Aftermath (sampleInstant ⟨e.time, e.tq⟩ item v) u) :
      u.evu.phase = .idle ∧ u.evu.tail = none := by
    obtain ⟨phase', -, -, -, -, tail', -⟩ := progress_fields (later.progress (by rw [idle]; exact EventPhase.noConfusion))
    exact ⟨phase'.trans idle, tail'.trans tail⟩
  obtain ⟨idleX, tailX⟩ := ended taken.after
  obtain ⟨idleT, tailT⟩ := ended taken.followed
  have occurs : endsTail x = true := by
    rw [endsTail, taken.before.evu, out.tail, idleX, tailX]
    rfl
  refine ⟨_, taken.step one.supply occurs, tailT, ?_⟩
  rw [quietHold, idleT, tailT]
  rfl

/-! ### The statement -/

/-- Settles O13: each end at the one sample instant of its step, which the batch of that instant brings about and nothing after it
in the step undoes. -/
theorem eventCountsReachTheirEnds : Obligations.EventCountsReachTheirEnds := by
  refine ⟨fun c k via e item s one running off quiet out =>
      contributionEnd_at_instant one ⟨⟨k, running, out⟩, off, quiet⟩,
    fun n via e item s one opened unforced current found reached => ?forced,
    fun n r via e item s one closing current found age out => ?close,
    fun n via e item s one idle tail declines out => quietTailEnd_at_instant one ⟨idle, tail, declines, out⟩⟩
  case forced =>
    obtain ⟨t, step, closing, forced, still, ⟨r, found, state, reason⟩, counted⟩ :=
      forcedClosing_at_instant one ⟨opened, unforced, current, found, reached⟩
    exact ⟨t, r, step, closing, forced, still, found, state, reason, counted⟩
  case close =>
    obtain ⟨t, step, ⟨idle, ended, tail, ⟨r', record⟩⟩, contrib, vote⟩ :=
      eventClose_at_instant one ⟨closing, current, found, age, out⟩
    exact ⟨t, r', step, idle, ended, contrib, vote, tail, record⟩

end Sys2Proof.Machine
end

section
/-!
SUPPORT. The pre-event span (R84): how far the look-back reaches, and what keeping its segments does where the kept budget has room.
-/

namespace Sys2Proof.Machine

variable {s t : State}

/-! ### The look-back -/

/-- How many of the completed segments, newest first, the look-back includes. -/
structure LooksBack (start : Int) (most : Nat) (l : List (Nat × Segment)) (k : Nat) : Prop where
  bound : k ≤ most
  length : k ≤ l.length
  free : ∀ x ∈ l.take k, x.2.state = .free
  inside : ∀ x ∈ l.take (k - 1), ∀ ts, x.2.first = some ts → start < ts.units
  stops : k < most → k < l.length →
    (∃ x, l[k]? = some x ∧ x.2.state ≠ .free) ∨
      (1 ≤ k ∧ ∃ x ts, l[k - 1]? = some x ∧ x.2.first = some ts ∧ (ts.units : Int) ≤ start)

/-- One more segment that does not reach back to the start. -/
theorem LooksBack.cons {start : Int} {most k : Nat} {l : List (Nat × Segment)} {x : Nat × Segment} (h : LooksBack start most l k)
    (free : x.2.state = .free) (short : ∀ ts, x.2.first = some ts → start < ts.units) :
    LooksBack start (most + 1) (x :: l) (k + 1) := by
  obtain ⟨bound, length, free', inside, stops⟩ := h
  refine ⟨Nat.succ_le_succ bound, Nat.succ_le_succ length, ?_, ?_, fun below more => ?_⟩
  · rw [List.take_succ_cons]
    exact List.forall_mem_cons.mpr ⟨free, free'⟩
  · cases k with
    | zero => simp
    | succ k =>
      rw [Nat.add_sub_cancel, List.take_succ_cons]
      exact List.forall_mem_cons.mpr ⟨short, inside⟩
  · refine (stops (Nat.lt_of_succ_lt_succ below) (Nat.lt_of_succ_lt_succ more)).imp id
      fun ⟨one, y, ts, hy, first, reaches⟩ => ?_
    refine ⟨Nat.le_add_left _ _, y, ts, ?_, first, reaches⟩
    obtain ⟨k, rfl⟩ := Nat.exists_eq_add_of_le' one
    exact hy

/-- The look-back includes the newest segments up to the first that is not FREE, the first that reaches back to the start, or the
bound. -/
theorem lookBack_eq (start : Int) (most : Nat) (l : List (Nat × Segment)) :
    ∃ k, lookBack start most l = (l.take k).map (·.1) ∧ LooksBack start most l k := by
  fun_induction lookBack start most l with
  | case1 l => exact ⟨0, rfl, ⟨le_rfl, Nat.zero_le _, by simp, by simp, fun h => absurd h (Nat.lt_irrefl _)⟩⟩
  | case2 most => exact ⟨0, rfl, ⟨Nat.zero_le _, le_rfl, by simp, by simp, fun _ h => absurd h (Nat.lt_irrefl _)⟩⟩
  | case3 most i x rest kept =>
    exact ⟨0, rfl, ⟨Nat.zero_le _, Nat.zero_le _, by simp, by simp, fun _ _ => .inl ⟨(i, x), rfl, kept⟩⟩⟩
  | case4 most i x rest free first ih =>
    obtain ⟨k, eq, reach⟩ := ih
    refine ⟨k + 1, by rw [eq]; rfl, reach.cons (not_not.mp free) fun ts h => ?_⟩
    exact absurd (h.symm.trans first) (Option.some_ne_none ts)
  | case5 most i x rest free ts first reaches =>
    refine ⟨1, by simp, ⟨Nat.le_add_left _ _, Nat.le_add_left _ _, ?_, by simp,
      fun _ _ => .inr ⟨le_rfl, (i, x), ts, rfl, first, reaches⟩⟩⟩
    simpa using not_not.mp free
  | case6 most i x rest free ts first short ih =>
    obtain ⟨k, eq, reach⟩ := ih
    refine ⟨k + 1, by rw [eq]; rfl, reach.cons (not_not.mp free) fun ts' h => ?_⟩
    obtain rfl : ts = ts' := Option.some.inj (first.symm.trans h)
    exact not_le.mp short

/-! ### Segments -/

theorem segmentAt_updateSegment (i j : Nat) (f : Segment → Segment) (h : j < s.wfs.segments.length) :
    segmentAt (updateSegment i f s) j = if j = i then f (segmentAt s j) else segmentAt s j := by
  have changed : (updateSegment i f s).wfs.segments = s.wfs.segments.modify i f := rfl
  rw [segmentAt, segmentAt, changed, List.getD_eq_getElem?_getD, List.getD_eq_getElem?_getD, List.getElem?_modify,
    List.getElem?_eq_getElem h]
  simp only [Option.map_eq_map, Option.map_some, Option.getD_some, eq_comm]

theorem length_filter_modify_le {α : Type} (p : α → Bool) (f : α → α) (l : List α) (i : Nat) :
    ((l.modify i f).filter p).length ≤ (l.filter p).length + 1 := by
  induction l generalizing i with
  | nil => simp
  | cons x l ih =>
    cases i with
    | zero =>
      simp only [List.modify_zero_cons, List.filter_cons]
      grind
    | succ i =>
      have := ih i
      simp only [List.modify_succ_cons, List.filter_cons]
      split <;> simp <;> omega

/-- Whether segment `i` is KEPT for event `n`. -/
def KeptFor (n i : Nat) (s : State) : Prop := (segmentAt s i).state = .kept ∧ (segmentAt s i).owner = some n

/-! ### Keeping with room in the budget (R87) -/

theorem markKept_keptCount (i n : Nat) (s : State) : keptCount (markKept i n s) ≤ keptCount s + 1 :=
  length_filter_modify_le (fun x : Segment => x.state == .kept) (fun x => { x with state := .kept, owner := some n })
    s.wfs.segments i

theorem markKept_record (i n : Nat) (s : State) :
    findRecord (markKept i n s) n =
      (findRecord s n).map fun r =>
        { r with wave := { r.wave with first := r.wave.first.or (some i), count := r.wave.count + 1 } } :=
  findRecord_updateRecord
    (f := fun r => { r with wave := { r.wave with first := r.wave.first.or (some i), count := r.wave.count + 1 } })
    (fun _ => rfl) (updateSegment i (fun x => { x with state := .kept, owner := some n }) s)

theorem markKept_keptFor {i j n : Nat} (h : j < s.wfs.segments.length) :
    KeptFor n j (markKept i n s) ↔ j = i ∨ KeptFor n j s := by
  have at' : segmentAt (markKept i n s) j = _ :=
    segmentAt_updateSegment i j (fun x => { x with state := .kept, owner := some n }) h
  rw [KeptFor, KeptFor, at']
  split
  · next e => simp [e]
  · next e => simp [e]

/-- Where every included segment finds room, each is kept for the event, and the record counts them from the oldest. -/
theorem keepEach_of_room {n : Nat} (l : List Nat) {s : State} {r : EventRecord} (found : findRecord s n = some r)
    (kept : r.wave.state = .kept) (room : keptCount s + l.length ≤ 112) :
    (keepEach n l s).wfs.claim = s.wfs.claim ∧
      findRecord (keepEach n l s) n = some { r with wave := ⟨r.wave.first.or l.head?, r.wave.count + l.length, .kept⟩ } ∧
        ∀ i, i < s.wfs.segments.length → (KeptFor n i (keepEach n l s) ↔ i ∈ l ∨ KeptFor n i s) := by
  induction l generalizing s r with
  | nil =>
    refine ⟨rfl, ?_, fun i _ => by simp [keepEach]⟩
    rw [keepEach, found, ← kept]
    simp
  | cons a l ih =>
    rw [List.length_cons] at room
    have marked := markKept_record a n s
    rw [found, Option.map_some] at marked
    have still : waveKept (markKept a n s) n = true := by
      rw [waveKept, marked]
      exact beq_iff_eq.mpr kept
    have step : keepEach n (a :: l) s = keepEach n l (markKept a n s) := by
      rw [keepEach, keepSegment, if_pos (show keptCount s < Config.keptLimit by simp only [Config.keptLimit]; omega)]
      exact if_pos still
    have length : (markKept a n s).wfs.segments.length = s.wfs.segments.length := List.length_modify _ _ _
    obtain ⟨claim, record, segments⟩ := ih marked kept (by have := markKept_keptCount a n s; omega)
    rw [step]
    refine ⟨claim, record.trans ?_, fun i hi => ?_⟩
    · have first : (r.wave.first.or (some a)).or l.head? = r.wave.first.or (some a) := by cases r.wave.first <;> rfl
      simp only [first, List.head?_cons, List.length_cons, Nat.add_assoc, Nat.add_comm 1]
    · rw [segments i (length ▸ hi), markKept_keptFor hi, List.mem_cons]
      tauto

/-! ### The whole request (R84) -/

/-- The state in which the look-back of an event begins: no segment counted, and the WRITING segment claimed. -/
def preEventBegun (n : Nat) (s : State) : State :=
  (updateWave n (fun _ => ⟨none, 0, .kept⟩) s).withWfs fun w => { w with claim := some n }

/-- The start of the pre-event span. -/
def spanStart (declared : Time) (s : State) : Int := (declared.units : Int) - s.tables.event.preEvent * 10000000

/-- The WRITING segment reaches back over the span. -/
def SpanCovered (declared : Time) (s : State) : Prop :=
  ∃ i ts, s.wfs.writer = some i ∧ (segmentAt s i).first = some ts ∧ (ts.units : Int) ≤ spanStart declared s

/-- The segments that the look-back goes through, newest first. -/
def completedSegments (s : State) : List (Nat × Segment) :=
  (segmentsWhere s fun x => x.order.isSome && x.state != .writing).reverse

/-- The most segments that the look-back includes. -/
def spanBound (s : State) : Nat := s.instants s.tables.event.preEvent / Config.segmentFrames + 1

/-- The test of the WRITING segment's first time. -/
def spanCovers (declared : Time) (s : State) : Bool :=
  match s.wfs.writer.bind fun i => (segmentAt s i).first with
  | none => false
  | some ts => decide ((ts.units : Int) ≤ spanStart declared s)

theorem spanCovers_iff (declared : Time) (s : State) : spanCovers declared s = true ↔ SpanCovered declared s := by
  unfold spanCovers SpanCovered
  split
  · next none =>
    refine ⟨fun h => absurd h Bool.false_ne_true, fun ⟨i, ts, writer, first, _⟩ => ?_⟩
    rw [writer, Option.bind_some, first] at none
    exact absurd none (Option.some_ne_none ts)
  · next ts first =>
    obtain ⟨i, writer, first⟩ := Option.bind_eq_some_iff.mp first
    refine ⟨fun h => ⟨i, ts, writer, first, of_decide_eq_true h⟩, fun ⟨i', ts', writer', first', reaches⟩ => ?_⟩
    obtain rfl : i' = i := Option.some.inj (writer'.symm.trans writer)
    obtain rfl : ts' = ts := Option.some.inj (first'.symm.trans first)
    exact decide_eq_true reaches

theorem keepPreEvent_eq (n : Nat) (declared : Time) (s : State) :
    keepPreEvent n declared s =
      if spanCovers declared s then preEventBegun n s
      else keepEach n (lookBack (spanStart declared s) (spanBound s) (completedSegments s)).reverse (preEventBegun n s) := rfl

theorem preEventBegun_record {n : Nat} {r : EventRecord} (found : findRecord s n = some r) :
    findRecord (preEventBegun n s) n = some { r with wave := ⟨none, 0, .kept⟩ } := by
  have begun : findRecord (preEventBegun n s) n = _ :=
    findRecord_updateRecord (f := fun r => { r with wave := ⟨none, 0, .kept⟩ }) (fun _ => rfl) s
  rw [begun, found, Option.map_some]

/-- How much of the completed segments an event keeps: none where the WRITING segment covers its span. -/
structure SpanKept (n : Nat) (declared : Time) (s : State) (k : Nat) : Prop where
  claim : (keepPreEvent n declared s).wfs.claim = some n
  record : ∃ r, findRecord (keepPreEvent n declared s) n = some r ∧
    r.wave = ⟨((completedSegments s).take k).getLast?.map (·.1), k, .kept⟩
  segments : ∀ i, i < s.wfs.segments.length →
    (KeptFor n i (keepPreEvent n declared s) ↔ i ∈ ((completedSegments s).take k).map (·.1))

/-- How much of the completed segments the request reaches: none where the span is covered, else what the look-back includes. -/
structure SpanReached (declared : Time) (s : State) (k : Nat) : Prop where
  bound : k ≤ spanBound s
  length : k ≤ (completedSegments s).length
  none : SpanCovered declared s → k = 0
  free : ∀ x ∈ (completedSegments s).take k, x.2.state = .free
  inside : ∀ x ∈ (completedSegments s).take (k - 1), ∀ ts, x.2.first = some ts → spanStart declared s < ts.units
  stops : ¬ SpanCovered declared s → k < spanBound s → k < (completedSegments s).length →
    (∃ x, (completedSegments s)[k]? = some x ∧ x.2.state ≠ .free) ∨
      (1 ≤ k ∧ ∃ x ts, (completedSegments s)[k - 1]? = some x ∧ x.2.first = some ts ∧
        (ts.units : Int) ≤ spanStart declared s)

theorem SpanReached.of_covered {declared : Time} (covered : SpanCovered declared s) : SpanReached declared s 0 :=
  ⟨Nat.zero_le _, Nat.zero_le _, fun _ => rfl, by simp, by simp, fun h => absurd covered h⟩

theorem SpanReached.of_looksBack {declared : Time} {k : Nat} (covered : ¬ SpanCovered declared s)
    (h : LooksBack (spanStart declared s) (spanBound s) (completedSegments s) k) : SpanReached declared s k :=
  ⟨h.bound, h.length, fun c => absurd c covered, h.free, h.inside, fun _ => h.stops⟩

theorem spanStart_eq (declared : Time) (s : State) :
    ((declared.label * 10000000 + declared.frac : Nat) : Int) - (s.tables.event.preEvent * 10000000 : Nat) =
      spanStart declared s := by
  rw [spanStart, Time.units]
  push_cast
  rfl

/-- With room in the kept budget, the event keeps what the look-back includes, or nothing where its span is covered. -/
theorem keepPreEvent_of_room {n : Nat} {declared : Time} {r : EventRecord} (found : findRecord s n = some r)
    (new : ∀ x ∈ s.wfs.segments, x.state = .kept → x.owner ≠ some n) (room : keptCount s + spanBound s ≤ 112) :
    ∃ k, SpanKept n declared s k ∧ SpanReached declared s k := by
  have begun := preEventBegun_record found
  have none' (i : Nat) (hi : i < s.wfs.segments.length) : ¬ KeptFor n i s := by
    rintro ⟨kept, owner⟩
    have mem : segmentAt s i ∈ s.wfs.segments := by
      rw [segmentAt, List.getD_eq_getElem _ _ hi]
      exact List.getElem_mem hi
    exact new _ mem kept owner
  by_cases covered : SpanCovered declared s
  · have eq := (keepPreEvent_eq n declared s).trans (if_pos ((spanCovers_iff _ _).mpr covered))
    refine ⟨0, ⟨by rw [eq]; rfl, ⟨_, by rw [eq]; exact begun, by simp⟩, fun i hi => ?_⟩, .of_covered covered⟩
    have unkept : ¬ KeptFor n i (preEventBegun n s) := none' i hi
    rw [eq]
    simpa using unkept
  · obtain ⟨k, included, reach⟩ := lookBack_eq (spanStart declared s) (spanBound s) (completedSegments s)
    have eq := (keepPreEvent_eq n declared s).trans (if_neg fun h => covered ((spanCovers_iff _ _).mp h))
    rw [included] at eq
    have length : (((completedSegments s).take k).map (·.1)).reverse.length = k := by
      rw [List.length_reverse, List.length_map, List.length_take_of_le reach.length]
    obtain ⟨claim, record, segments⟩ := keepEach_of_room (((completedSegments s).take k).map (·.1)).reverse begun rfl (by
      have most := reach.bound
      rw [length]
      exact (Nat.add_le_add_left most _).trans room)
    refine ⟨k, ⟨by rw [eq, claim]; rfl, ⟨_, by rw [eq]; exact record, ?_⟩, fun i hi => ?_⟩, .of_looksBack covered reach⟩
    · dsimp only
      rw [length, Option.none_or, Nat.zero_add, List.head?_reverse, List.getLast?_map]
    · rw [eq, segments i hi, List.mem_reverse]
      exact or_iff_left (none' i hi)

end Sys2Proof.Machine
end

section
/-!
SUPPORT. A declaration (R67 to R69): the list of its contributors, the numbers in the table, and what it leaves in EVU, the counters
and ALU; and a trigger-on in CLOSING (R64, R71, R74).
-/

namespace Sys2Proof.Machine

variable {s t u : State}

/-! ### The contributors, in order of first trigger-on (R69) -/

/-- The order of the contributor list: by first trigger-on, equal times by channel. -/
def OnBefore (x y : Fin 6 × Contribution) : Prop :=
  x.2.firstOn.time.units < y.2.firstOn.time.units ∨ x.2.firstOn.time.units = y.2.firstOn.time.units ∧ x.1 < y.1

theorem mem_insertByFirstOn {x y : Fin 6 × Contribution} {l : List (Fin 6 × Contribution)} :
    y ∈ insertByFirstOn x l ↔ y = x ∨ y ∈ l := by
  induction l with
  | nil => simp [insertByFirstOn]
  | cons z l ih =>
    unfold insertByFirstOn
    split
    · exact List.mem_cons
    · rw [List.mem_cons, List.mem_cons, ih]
      tauto

/-- A channel below those of the list comes in before the equal times. -/
theorem insertByFirstOn_pairwise {x : Fin 6 × Contribution} {l : List (Fin 6 × Contribution)} (h : l.Pairwise OnBefore)
    (low : ∀ y ∈ l, x.1 < y.1) : (insertByFirstOn x l).Pairwise OnBefore := by
  induction l with
  | nil => exact List.pairwise_singleton _ _
  | cons z l ih =>
    obtain ⟨first, rest⟩ := List.pairwise_cons.mp h
    obtain ⟨lowZ, lowRest⟩ := List.forall_mem_cons.mp low
    unfold insertByFirstOn
    split
    · next le =>
      have before : OnBefore x z := le.lt_or_eq.imp id fun e => ⟨e, lowZ⟩
      refine List.pairwise_cons.mpr ⟨List.forall_mem_cons.mpr ⟨before, fun y hy => ?_⟩, h⟩
      have later := first y hy
      have := lowRest y hy
      unfold OnBefore at *
      omega
    · next gt =>
      refine List.pairwise_cons.mpr ⟨fun y hy => ?_, ih rest lowRest⟩
      obtain rfl | old := mem_insertByFirstOn.mp hy
      · exact .inl (Nat.lt_of_not_le gt)
      · exact first y old

theorem mem_foldr_insertByFirstOn {y : Fin 6 × Contribution} {l : List (Fin 6 × Contribution)} :
    y ∈ l.foldr insertByFirstOn [] ↔ y ∈ l := by
  induction l with
  | nil => rfl
  | cons x l ih => rw [List.foldr_cons, mem_insertByFirstOn, ih, List.mem_cons]

theorem foldr_insertByFirstOn_pairwise {l : List (Fin 6 × Contribution)} (h : l.Pairwise (·.1 < ·.1)) :
    (l.foldr insertByFirstOn []).Pairwise OnBefore := by
  induction l with
  | nil => exact List.Pairwise.nil
  | cons x l ih =>
    obtain ⟨low, rest⟩ := List.pairwise_cons.mp h
    exact insertByFirstOn_pairwise (ih rest) fun y hy => low y (mem_foldr_insertByFirstOn.mp hy)

theorem mem_contributing {c : Fin 6} {k : Contribution} : (c, k) ∈ contributing s ↔ s.evu.contrib.get c = some k := by
  rw [contributing, mem_foldr_insertByFirstOn, List.mem_filterMap]
  constructor
  · rintro ⟨c', -, eq⟩
    obtain ⟨k', running, pair⟩ := Option.map_eq_some_iff.mp eq
    obtain ⟨rfl, rfl⟩ := Prod.mk.inj pair
    exact running
  · intro running
    exact ⟨c, mem_channels c, by rw [running]; rfl⟩

theorem contributing_pairwise (s : State) : (contributing s).Pairwise OnBefore := by
  refine foldr_insertByFirstOn_pairwise (List.Pairwise.filterMap _ (R := (· < ·)) (fun a b less x hx y hy => ?_) (by decide))
  obtain ⟨_, -, rfl⟩ := Option.map_eq_some_iff.mp hx
  obtain ⟨_, -, rfl⟩ := Option.map_eq_some_iff.mp hy
  exact less

/-- The contributor list of the record that a declaration appends. -/
structure Contributed (s : State) (l : List Contributor) : Prop where
  channels : ∀ c, (∃ x ∈ l, x.channel = c) ↔ (s.evu.contrib.get c).isSome = true
  entries : ∀ x ∈ l, ∃ k, s.evu.contrib.get x.channel = some k ∧ x.firstOn = k.firstOn ∧ x.peak = k.peak ∧
    (s.evu.triggered.get x.channel = true → x.lastOff = none)
  ordered : l.Pairwise fun a b =>
    a.firstOn.time.units < b.firstOn.time.units ∨
      (a.firstOn.time.units = b.firstOn.time.units ∧ a.channel < b.channel)

theorem newRecord_contributed (n : Nat) (st : Stamp) (s : State) : Contributed s (newRecord n st s).contributors := by
  have entry {x : Contributor} (hx : x ∈ (newRecord n st s).contributors) :
      ∃ k, s.evu.contrib.get x.channel = some k ∧ x.firstOn = k.firstOn ∧ x.peak = k.peak ∧
        (s.evu.triggered.get x.channel = true → x.lastOff = none) := by
    obtain ⟨⟨c, k⟩, mem, rfl⟩ := List.mem_map.mp hx
    exact ⟨k, mem_contributing.mp mem, rfl, rfl, fun on => if_pos on⟩
  refine ⟨fun c => ⟨fun ⟨x, hx, channel⟩ => ?_, fun some => ?_⟩, fun x hx => entry hx,
    List.pairwise_map.mpr (contributing_pairwise s)⟩
  · obtain ⟨k, running, -⟩ := entry hx
    rw [← channel, running]
    rfl
  · obtain ⟨k, running⟩ := Option.isSome_iff_exists.mp some
    exact ⟨_, List.mem_map_of_mem (mem_contributing.mpr running), rfl⟩

theorem newRecord_blanked (n : Nat) (st : Stamp) (s : State) :
    (newRecord n st s).blankedDuring = true ↔ ∃ c, 0 < (s.det.get c).blank := by
  have listed : s.det.toList = channels.map s.det.get := rfl
  rw [newRecord, listed, List.any_map, List.any_eq_true]
  simp only [Function.comp_apply, decide_eq_true_eq]
  exact ⟨fun ⟨c, _, h⟩ => ⟨c, h⟩, fun ⟨c, h⟩ => ⟨c, mem_channels c, h⟩⟩

theorem votingChannels_iff (s : State) (c : Fin 6) :
    (votingChannels s).get c = true ↔ ∃ k, s.evu.contrib.get c = some k ∧ 1 ≤ k.weight := by
  rw [votingChannels, Six.get_map]
  cases s.evu.contrib.get c <;> simp

/-! ### The numbers left in the table (R68) -/

theorem withRoom_of_room (room : s.evu.table.length < 12) : withRoom s = s := if_neg (Nat.not_le.mpr room)

/-- The numbers left after one of a table's records has gone. -/
theorem loseRecord_numbers {l l' : List EventRecord} {x : EventRecord} (table : s.evu.table = l ++ x :: l')
    (distinct : (s.evu.table.map (·.number)).Nodup) :
    (loseRecord x.number s).evu.table.map (·.number) = (l ++ l').map (·.number) := by
  obtain ⟨u, ⟨t, _, _, _, rfl, records, -⟩, e⟩ := loseRecord_waves x.number s
  have numbers : t.map (·.number) = s.evu.table.map (·.number) :=
    map_of_finer (g := EventRecord.waveless) (q := (·.number)) (fun _ => rfl) records
  have filtered : (t.filter (·.number != x.number)).map (·.number) = (t.map (·.number)).filter (· != x.number) := by
    rw [List.filter_map]
    rfl
  rw [table, List.map_append, List.map_cons] at distinct
  have apart := List.nodup_middle.mp distinct
  obtain ⟨fresh, -⟩ := List.nodup_cons.mp apart
  rw [e]
  refine filtered.trans ?_
  rw [numbers, table, List.map_append, List.map_cons, List.filter_append, List.filter_cons_of_neg (by simp), ← List.filter_append,
    ← List.map_append]
  rw [← List.map_append] at fresh
  exact List.filter_eq_self.mpr fun m hm => bne_iff_ne.mpr fun e => fresh (e ▸ hm)

/-! ### What a declaration leaves -/

/-- The state in which the new record has been appended (R69). -/
def appended (st : Stamp) (s : State) : State :=
  (withRoom s).withEvu (Evu.declare (newRecord s.evu.nextNumber st (withRoom s)))

/-- The state in which the pre-event span is kept and K13 has counted. -/
def spanned (st : Stamp) (s : State) : State := count 13 (keepPreEvent s.evu.nextNumber st.time (appended st s))

theorem withRoom_next (s : State) : (withRoom s).evu.nextNumber = s.evu.nextNumber := by
  obtain ⟨-, -, -, next⟩ := (withRoom_besideTable s).fields
  exact next

/-- EVU after the declaration is EVU after the appending but for what WFS writes in the records. -/
theorem spanned_evu (st : Stamp) (s : State) :
    { (spanned st s).evu with table := (appended st s).evu.table } = (appended st s).evu ∧
      (spanned st s).evu.table.map EventRecord.waveless = (appended st s).evu.table.map EventRecord.waveless := by
  obtain ⟨records, evu, -⟩ := (keepPreEvent_waves s.evu.nextNumber st.time (appended st s)).fields
  have counted : (spanned st s).evu = (keepPreEvent s.evu.nextNumber st.time (appended st s)).evu :=
    (count_alerts 13 (keepPreEvent s.evu.nextNumber st.time (appended st s))).blocks.2.1
  rw [counted]
  exact ⟨evu, records⟩

theorem spanned_contrib (st : Stamp) (s : State) :
    (spanned st s).evu.contrib = s.evu.contrib ∧ (spanned st s).evu.voteSum = s.evu.voteSum := by
  obtain ⟨contrib, vote, -⟩ := (withRoom_besideTable s).fields
  obtain ⟨evu, -⟩ := spanned_evu st s
  exact ⟨(congrArg Evu.contrib evu).trans contrib, (congrArg Evu.voteSum evu).trans vote⟩

/-- ALU, the tables and the counters before the raise: K13 alone has counted. -/
theorem spanned_besides (st : Stamp) (s : State) :
    (spanned st s).alu = s.alu ∧ (spanned st s).tables = s.tables ∧
      (spanned st s).cnt[(13 : Fin 40)] = s.cnt[(13 : Fin 40)] + 1 ∧
      (spanned st s).cnt[(17 : Fin 40)] = s.cnt[(17 : Fin 40)] := by
  have room := withRoom_besideTable s
  have kept := (keepPreEvent_waves s.evu.nextNumber st.time (appended st s)).besideTable
  have cnt {k : Fin 40} (h15 : k ≠ 15) (h16 : k ≠ 16) :
      (keepPreEvent s.evu.nextNumber st.time (appended st s)).cnt[k] = s.cnt[k] := (kept.cnt k h15 h16).trans (room.cnt k h15 h16)
  obtain ⟨q, -, counted⟩ := count_eq 13 (keepPreEvent s.evu.nextNumber st.time (appended st s))
  refine ⟨?_, ?_, ?_, ?_⟩
  · exact (count_alu 13 _).trans (kept.alu.trans room.alu)
  · rw [spanned, counted]
    exact kept.tables.trans room.tables
  · rw [spanned, count_getElem, if_pos rfl, cnt (by decide) (by decide)]
  · rw [spanned, count_getElem, if_neg (by decide), cnt (by decide) (by decide)]

/-- The payload of A0 (R67). -/
def declaredPayload (st : Stamp) (s : State) : AlertPayload :=
  .declared s.evu.nextNumber st s.evu.voteSum (votingChannels s)

/-- A declaration raises A0 in the state in which everything else is done. -/
theorem declareEvent_raise (st : Stamp) (s : State) : declareEvent st s = raiseEvent 0 (declaredPayload st s) (spanned st s) := by
  obtain ⟨contrib, vote⟩ := spanned_contrib st s
  have voting : votingChannels (spanned st s) = votingChannels s := by rw [votingChannels, contrib, votingChannels]
  rw [declareEvent_eq]
  dsimp only
  rw [withRoom_next]
  show raiseEvent 0 (.declared s.evu.nextNumber st (spanned st s).evu.voteSum (votingChannels (spanned st s))) (spanned st s) = _
  rw [vote, voting]
  rfl

theorem declareEvent_evu (st : Stamp) (s : State) : (declareEvent st s).evu = (spanned st s).evu := by
  rw [declareEvent_raise]
  exact (raiseEvent_alerts _ _ _).blocks.2.1

/-- The marks and counts of the event that is declared (R69). -/
theorem declareEvent_marks (st : Stamp) (s : State) :
    let t := declareEvent st s
    t.evu.phase = .opened ∧ t.evu.current = some s.evu.nextNumber ∧ t.evu.lastNumber = s.evu.nextNumber ∧
      t.evu.forced = false ∧ t.evu.age = 0 ∧ t.evu.tail = none ∧ t.evu.contrib = s.evu.contrib := by
  dsimp only
  have evu := (spanned_evu st s).1
  rw [declareEvent_evu]
  exact ⟨congrArg Evu.phase evu, (congrArg Evu.current evu).trans (congrArg some (withRoom_next s)),
    (congrArg Evu.lastNumber evu).trans (withRoom_next s), congrArg Evu.forced evu, congrArg Evu.age evu, congrArg Evu.tail evu,
    (spanned_contrib st s).1⟩

/-- The numbers in the table: the new one is last. -/
theorem declareEvent_numbers (st : Stamp) (s : State) :
    (declareEvent st s).evu.table.map (·.number) = (withRoom s).evu.table.map (·.number) ++ [s.evu.nextNumber] := by
  have numbers : (spanned st s).evu.table.map (·.number) = (appended st s).evu.table.map (·.number) :=
    map_of_finer (g := EventRecord.waveless) (q := (·.number)) (fun _ => rfl) (spanned_evu st s).2
  rw [declareEvent_evu, numbers]
  exact List.map_append

/-- The record of the event that is declared, but for what WFS writes in it (R69). -/
theorem declareEvent_record (st : Stamp) (h : EventInv s) (idle : s.evu.phase = .idle) :
    ∃ r, findRecord (declareEvent st s) s.evu.nextNumber = some r ∧
      r.waveless = (newRecord s.evu.nextNumber st (withRoom s)).waveless := by
  obtain ⟨room, -⟩ := withRoom_eventInv h idle
  have new : findRecord (appended st s) s.evu.nextNumber = some (newRecord s.evu.nextNumber st (withRoom s)) := by
    have before : (withRoom s).evu.table.find? (·.number == s.evu.nextNumber) = none := by
      refine List.find?_eq_none.mpr fun r hr => ?_
      rw [← withRoom_next s]
      exact fun same => room.next r hr (eq_of_beq same)
    show ((withRoom s).evu.table ++ [_]).find? _ = _
    rw [List.find?_append, before]
    simp [newRecord]
  have found := findRecord_map (q := EventRecord.number) (fun r => by rfl) (spanned_evu st s).2 s.evu.nextNumber
  rw [new] at found
  rw [findRecord_congr (congrArg Evu.table (declareEvent_evu st s))]
  exact Option.map_eq_some_iff.mp found

/-- K13 counts, and K17 the raise of A0 (R67, R100). -/
theorem declareEvent_counts (st : Stamp) (s : State) :
    (declareEvent st s).cnt[(13 : Fin 40)] = s.cnt[(13 : Fin 40)] + 1 ∧
      ((s.tables.alert.get 0).enable = true → (declareEvent st s).cnt[(17 : Fin 40)] = s.cnt[(17 : Fin 40)] + 1) := by
  obtain ⟨-, tables, k13, k17⟩ := spanned_besides st s
  rw [declareEvent_raise, raiseEvent, tables]
  refine ⟨?_, fun enabled => ?_⟩
  · split
    · exact (raiseAlert_counter 0 _ (k := 13) (by decide) _).trans k13
    · exact k13
  · rw [if_pos enabled]
    exact (raiseAlert_conds 0 _ _).2.trans (congrArg (· + 1) k17)

/-- A0 is raised if it is enabled, and nothing otherwise (R67, R102). -/
theorem declareEvent_alu (st : Stamp) (s : State) :
    ((s.tables.alert.get 0).enable = true → s.alu.queue.length < 12 →
      ∃ x ∈ (declareEvent st s).alu.queue, x.cls = 0 ∧ x.payload = some (declaredPayload st s)) ∧
      ((s.tables.alert.get 0).enable = false → (declareEvent st s).alu = s.alu) := by
  obtain ⟨alu, tables, -⟩ := spanned_besides st s
  rw [declareEvent_raise, raiseEvent, tables]
  refine ⟨fun enabled room => ?_, fun disabled => ?_⟩
  · obtain ⟨queue, -⟩ := raiseAlert_of_room (s := spanned st s) (by rwa [alu]) 0 (some (declaredPayload st s))
    rw [if_pos enabled, queue]
    exact ⟨_, mem_insertAlert.mpr (.inl rfl), rfl, rfl⟩
  · rw [disabled, if_neg Bool.false_ne_true, alu]

/-! ### A trigger-on in CLOSING (R64, R71, R74) -/

/-- A record whose channel has triggered on. -/
def EventRecord.join (c : Fin 6) (st : Stamp) (r : EventRecord) : EventRecord :=
  { r with contributors := joinContributors c st r.contributors }

theorem mem_joinContributors (c : Fin 6) (st : Stamp) (l : List Contributor) :
    ∃ x ∈ joinContributors c st l, x.channel = c ∧ x.lastOff = none := by
  unfold joinContributors
  split
  · next known =>
    obtain ⟨x, hx, channel⟩ := List.any_eq_true.mp known
    have channel : x.channel = c := eq_of_beq channel
    refine ⟨{ x with lastOff := none }, List.mem_map.mpr ⟨x, hx, if_pos channel⟩, channel, rfl⟩
  · exact ⟨⟨c, st, none, none⟩, by simp, rfl, rfl⟩

/-- A trigger-on that reopens the event (R71). -/
theorem takeTriggerOn_reopens {c : Fin 6} {st : Stamp} {n : Nat} (reopens : Reopens c s) (current : s.evu.current = some n) :
    takeTriggerOn c st s =
      updateRecord n (EventRecord.join c st)
        (updateRecord n (fun r => { r with state := .opened })
          ((voteOn c st s).withEvu fun e => { e with phase := .opened, post := 0 })) := by
  have opened : reopen (voteOn c st s) = updateRecord n (fun r => { r with state := .opened })
      ((voteOn c st s).withEvu fun e => { e with phase := .opened, post := 0 }) := by
    rw [reopen, updateCurrent]
    simp only [voteOn, State.withEvu_evu, current]
  rw [takeTriggerOn_eq, if_pos reopens, opened, updateCurrent]
  simp only [updateRecord, voteOn, State.withEvu_evu, current]
  rfl

/-- A trigger-on that does not (R71). -/
theorem takeTriggerOn_stays {c : Fin 6} {st : Stamp} {n : Nat} (stays : ¬ Reopens c s) (current : s.evu.current = some n) :
    takeTriggerOn c st s = updateRecord n (EventRecord.join c st) (voteOn c st s) := by
  rw [takeTriggerOn_eq, if_neg stays, updateCurrent]
  simp only [voteOn, State.withEvu_evu, current]
  rfl

theorem contributionOn_fields (c : Fin 6) (st : Stamp) (s : State) :
    (contributionOn c st s).weight = (s.tables.channel.get c).weight ∧ (contributionOn c st s).window = 0 ∧
      (contributionOn c st s).lastOff = none := by
  unfold contributionOn
  split <;> exact ⟨rfl, rfl, rfl⟩

end Sys2Proof.Machine
end

section
/-!
PROOF. Declarations, reopenings and the pre-event span (O14).
-/

namespace Sys2Proof.Machine

variable {s t : State}

/-! ### A declaration (R67 to R69) -/

theorem Contributed.congr {l : List Contributor} (h : Contributed s l) (contrib : t.evu.contrib = s.evu.contrib)
    (triggered : t.evu.triggered = s.evu.triggered) : Contributed t l := by
  obtain ⟨channels, entries, ordered⟩ := h
  exact ⟨by rwa [contrib], by rwa [contrib, triggered], ordered⟩

/-- What the record of a new event says, but for its waveform (R69). -/
structure DeclaredRecord (st : Stamp) (s : State) (r : EventRecord) : Prop where
  state : r.state = .opened
  declared : r.declared = st
  closed : r.closed = none
  reason : r.reason = none
  strongMotion : r.strongMotion = false
  timeDegraded : r.timeDegraded = (st.tq != .locked)
  blanked : r.blankedDuring = true ↔ ∃ c, 0 < (s.det.get c).blank
  contributed : Contributed s r.contributors

theorem declareEvent_declares (st : Stamp) (h : EventInv s) (idle : s.evu.phase = .idle) :
    ∃ r, findRecord (declareEvent st s) s.evu.nextNumber = some r ∧ DeclaredRecord st s r := by
  obtain ⟨r, found, same⟩ := declareEvent_record st h idle
  have room := withRoom_besideTable s
  obtain ⟨contrib, -, triggered, -⟩ := room.fields
  have contributors : r.contributors = (newRecord s.evu.nextNumber st (withRoom s)).contributors :=
    (congrArg EventRecord.contributors same :)
  have blanked : r.blankedDuring = (newRecord s.evu.nextNumber st (withRoom s)).blankedDuring :=
    (congrArg EventRecord.blankedDuring same :)
  refine ⟨r, found, (congrArg EventRecord.state same :), (congrArg EventRecord.declared same :),
    (congrArg EventRecord.closed same :), (congrArg EventRecord.reason same :), (congrArg EventRecord.strongMotion same :),
    (congrArg EventRecord.timeDegraded same :), ?_, ?_⟩
  · rw [blanked, newRecord_blanked, room.det]
  · rw [contributors]
    exact (newRecord_contributed _ st (withRoom s)).congr contrib.symm triggered.symm

/-- The numbers in the table after a declaration into a full one (R68). -/
theorem declareEvent_full (st : Stamp) (h : EventInv s) (idle : s.evu.phase = .idle) (full : s.evu.table.length = 12) :
    ∃ l x l', s.evu.table = l ++ x :: l' ∧ x.state = .closed ∧ holdOf s x.number = none ∧
      (∀ y ∈ l, (holdOf s y.number).isSome = true) ∧
      (declareEvent st s).evu.table.map (·.number) = (l ++ l').map (·.number) ++ [s.evu.nextNumber] := by
  obtain ⟨l, x, l', table, closed, unheld, held, removed⟩ := removeOldest_of_full h idle full
  have room : withRoom s = loseRecord x.number s := (if_pos (show Config.recordLimit ≤ _ from full.ge)).trans removed
  refine ⟨l, x, l', table, closed, unheld, held, ?_⟩
  rw [declareEvent_numbers, room, loseRecord_numbers table (pairwise_numbers.mp h.numbers)]

theorem evaluatePhase_of_idle (st : Stamp) (idle : s.evu.phase = .idle) :
    evaluatePhase st s = if s.tables.event.threshold ≤ s.evu.voteSum then declareEvent st s else s := by
  rw [evaluatePhase, idle]

/-! ### A trigger-on in CLOSING (R71) -/

/-- What a trigger-on in CLOSING leaves, whether it reopens the event or not (R64, R71, R74). -/
structure TriggeredOn (c : Fin 6) (n : Nat) (r : EventRecord) (s t : State) (phase : EventPhase) (post : Nat)
    (state : RecordState) : Prop where
  current : t.evu.current = some n
  age : t.evu.age = s.evu.age
  forced : t.evu.forced = s.evu.forced
  cnt : t.cnt = s.cnt
  alu : t.alu = s.alu
  record : ∃ r', findRecord t n = some r' ∧ (∃ x ∈ r'.contributors, x.channel = c ∧ x.lastOff = none) ∧
    r'.declared = r.declared ∧ r'.state = state
  phase : t.evu.phase = phase
  post : t.evu.post = post

theorem findRecord_join (c : Fin 6) (st : Stamp) (n : Nat) (s : State) :
    findRecord (updateRecord n (EventRecord.join c st) s) n = (findRecord s n).map (EventRecord.join c st) :=
  findRecord_updateRecord (f := EventRecord.join c st) (fun _ => rfl) s

theorem findRecord_reopened (n : Nat) (s : State) :
    findRecord (updateRecord n (fun r => { r with state := .opened }) s) n =
      (findRecord s n).map fun r => { r with state := .opened } :=
  findRecord_updateRecord (f := fun r => { r with state := .opened }) (fun _ => rfl) s

theorem takeTriggerOn_of_reopening {c : Fin 6} {st : Stamp} {n : Nat} {r : EventRecord} (reopens : Reopens c s)
    (current : s.evu.current = some n) (found : findRecord s n = some r) :
    TriggeredOn c n r s (takeTriggerOn c st s) .opened 0 .opened := by
  rw [takeTriggerOn_reopens reopens current]
  refine ⟨current, rfl, rfl, rfl, rfl,
    ⟨EventRecord.join c st { r with state := .opened }, ?_, mem_joinContributors c st r.contributors, rfl, rfl⟩, rfl, rfl⟩
  rw [findRecord_join, findRecord_reopened]
  show ((findRecord s n).map _).map _ = _
  rw [found]
  rfl

theorem takeTriggerOn_of_staying {c : Fin 6} {st : Stamp} {n : Nat} {r : EventRecord} (stays : ¬ Reopens c s)
    (current : s.evu.current = some n) (found : findRecord s n = some r) :
    TriggeredOn c n r s (takeTriggerOn c st s) s.evu.phase s.evu.post r.state := by
  rw [takeTriggerOn_stays stays current]
  refine ⟨current, rfl, rfl, rfl, rfl,
    ⟨EventRecord.join c st r, ?_, mem_joinContributors c st r.contributors, rfl, rfl⟩, rfl, rfl⟩
  rw [findRecord_join]
  show (findRecord s n).map _ = _
  rw [found]
  rfl

theorem takeTriggerOn_contribution (c : Fin 6) (st : Stamp) (s : State) :
    (takeTriggerOn c st s).evu.triggered.get c = true ∧
      ∃ k, (takeTriggerOn c st s).evu.contrib.get c = some k ∧ k.weight = (s.tables.channel.get c).weight ∧ k.window = 0 ∧
        k.lastOff = none := by
  refine ⟨?_, contributionOn c st s, ?_, contributionOn_fields c st s⟩
  · rw [takeTriggerOn_triggered, Six.get_set, if_pos rfl]
  · rw [takeTriggerOn_contrib, Six.get_set, if_pos rfl]

/-! ### The statement -/

/-- Settles O14: the declaration by what each of its parts leaves, the trigger-on by whether it reopens, and the span by the
look-back with room for every segment it includes. -/
theorem declarationsReopeningsAndPreEventSpan : Obligations.DeclarationsReopeningsAndPreEventSpan := by
  refine ⟨fun st s inv idle => ⟨fun light => ?light, fun heavy => ?declares⟩,
    fun c st n r s closing current found => ?triggerOn, fun n r declared s found new room => ?span⟩
  case light => rw [evaluatePhase_of_idle st idle, if_neg (Nat.not_le.mpr light)]
  case declares =>
    rw [evaluatePhase_of_idle st idle, if_pos heavy]
    have after := declareEvent_eventInv st inv idle
    obtain ⟨phase, current, last, forced, age, tail, contrib⟩ := declareEvent_marks st s
    obtain ⟨k13, k17⟩ := declareEvent_counts st s
    obtain ⟨raised, unraised⟩ := declareEvent_alu st s
    obtain ⟨r, found, rec⟩ := declareEvent_declares st inv idle
    refine ⟨phase, current, last, forced, age, tail, contrib, k13, after.range.1, after.range.2, after.next, fun short => ?_,
      declareEvent_full st inv idle,
      ⟨r, found, rec.state, rec.declared, rec.closed, rec.reason, rec.strongMotion, rec.timeDegraded, rec.blanked,
        rec.contributed.channels, rec.contributed.entries, rec.contributed.ordered⟩,
      fun enabled => ⟨k17 enabled, fun short => ?_⟩, unraised⟩
    · rw [declareEvent_numbers, withRoom_of_room short]
    · obtain ⟨x, hx, cls, payload⟩ := raised enabled short
      exact ⟨x, hx, votingChannels s, cls, payload, votingChannels_iff s⟩
  case triggerOn =>
    obtain ⟨mark, contribution⟩ := takeTriggerOn_contribution c st s
    by_cases reopens : Reopens c s
    · obtain ⟨current', age, forced, cnt, alu, ⟨r', found', joined, declared, state⟩, phase, post⟩ :=
        takeTriggerOn_of_reopening (st := st) reopens current found
      obtain ⟨-, unforced, weighs⟩ := reopens
      refine ⟨current', age, forced, cnt, alu, mark, contribution, r', found', joined, declared,
        fun _ _ => ⟨phase, post, state⟩, fun no => ?_⟩
      obtain forced | weightless := no
      · exact absurd (unforced.symm.trans forced) Bool.false_ne_true
      · omega
    · obtain ⟨current', age, forced, cnt, alu, ⟨r', found', joined, declared, state⟩, phase, post⟩ :=
        takeTriggerOn_of_staying (st := st) reopens current found
      exact ⟨current', age, forced, cnt, alu, mark, contribution, r', found', joined, declared,
        fun unforced weighs => absurd ⟨closing, unforced, weighs⟩ reopens, fun _ => ⟨phase.trans closing, post, state⟩⟩
  case span =>
    obtain ⟨k, ⟨claim, ⟨r', found', wave⟩, segments⟩, reached⟩ := keepPreEvent_of_room found new room
    dsimp only
    rw [spanStart_eq]
    exact ⟨claim, k, r', found', reached.bound, reached.length, reached.none, wave, segments, reached.free, reached.inside,
      reached.stops⟩

end Sys2Proof.Machine
end

section
/-!
SUPPORT. The kept budget (R83, R85, R87): what its invariant is read from, and what leaves it alone. `KeepsStore s t` says so for the
work outside the waveform store and the declarations.
-/

namespace Sys2Proof.Machine

variable {s t u : State}

/-! ### What the invariant is read from -/

/-- What the budget reads of a segment. -/
def Segment.place (x : Segment) : SegState × Option Nat := (x.state, x.owner)

/-- What the budget reads of a record. -/
def EventRecord.tally (r : EventRecord) : Nat × Nat := (r.number, r.wave.count)

/-- `t` has the segments of `s`, as far as the budget reads them, and the event in progress is that of `s` or has ended. -/
structure KeepsStore (s t : State) : Prop where
  segments : t.wfs.segments.map Segment.place = s.wfs.segments.map Segment.place
  writer : t.wfs.writer = s.wfs.writer
  claim : t.wfs.claim = s.wfs.claim
  records : t.evu.table.map EventRecord.tally = s.evu.table.map EventRecord.tally
  current : t.evu.current = s.evu.current ∨ t.evu.current = none

theorem KeepsStore.refl (s : State) : KeepsStore s s := ⟨rfl, rfl, rfl, rfl, .inl rfl⟩

theorem KeepsStore.trans (h : KeepsStore s t) (h' : KeepsStore t u) : KeepsStore s u := by
  obtain ⟨segments, writer, claim, records, current⟩ := h
  obtain ⟨segments', writer', claim', records', current'⟩ := h'
  exact ⟨segments'.trans segments, writer'.trans writer, claim'.trans claim, records'.trans records,
    current'.elim (fun e => current.imp e.trans e.trans) .inr⟩

/-- The segments that meet a condition on their places, counted from the places. -/
theorem length_filter_of_places {l l' : List Segment} (h : l.map Segment.place = l'.map Segment.place)
    (q : SegState × Option Nat → Bool) :
    (l.filter fun x => q x.place).length = (l'.filter fun x => q x.place).length := by
  have counted (k : List Segment) : (k.filter fun x => q x.place).length = (k.map Segment.place).countP q := by
    rw [List.countP_map, List.countP_eq_length_filter]
    rfl
  rw [counted, counted, h]

theorem mem_of_places {l l' : List Segment} (h : l.map Segment.place = l'.map Segment.place) {x : Segment} (hx : x ∈ l) :
    ∃ y ∈ l', y.state = x.state ∧ y.owner = x.owner := by
  have mem : x.place ∈ l'.map Segment.place := h ▸ List.mem_map_of_mem hx
  obtain ⟨y, hy, e⟩ := List.mem_map.mp mem
  exact ⟨y, hy, congrArg Prod.fst e, congrArg Prod.snd e⟩

theorem getElem?_of_places {l l' : List Segment} (h : l.map Segment.place = l'.map Segment.place) {i : Nat} {x : Segment}
    (hx : l[i]? = some x) : ∃ y, l'[i]? = some y ∧ y.state = x.state ∧ y.owner = x.owner := by
  have at' : l'[i]?.map Segment.place = some x.place := by
    rw [← List.getElem?_map, ← h, List.getElem?_map, hx]
    rfl
  obtain ⟨y, hy, e⟩ := Option.map_eq_some_iff.mp at'
  exact ⟨y, hy, congrArg Prod.fst e, congrArg Prod.snd e⟩

theorem mem_of_tallies {l l' : List EventRecord} (h : l.map EventRecord.tally = l'.map EventRecord.tally) {r : EventRecord}
    (hr : r ∈ l) : ∃ r' ∈ l', r'.number = r.number ∧ r'.wave.count = r.wave.count := by
  have mem : r.tally ∈ l'.map EventRecord.tally := h ▸ List.mem_map_of_mem hr
  obtain ⟨r', hr', e⟩ := List.mem_map.mp mem
  exact ⟨r', hr', congrArg Prod.fst e, congrArg Prod.snd e⟩

theorem KeepsStore.segmentInv (h : KeepsStore s t) (hs : SegmentInv s) : SegmentInv t := by
  obtain ⟨segments, writer, claim, records, current⟩ := h
  exact {
    total := by simpa [hs.total] using congrArg List.length segments
    kept := (length_filter_of_places segments fun p => p.1 == .kept).trans_le hs.kept
    owned := fun x hx kept => by
      obtain ⟨y, hy, state, owner⟩ := mem_of_places segments hx
      obtain ⟨r, hr, number⟩ := hs.owned y hy (state.trans kept)
      obtain ⟨r', hr', same, -⟩ := mem_of_tallies records.symm hr
      exact ⟨r', hr', by rw [← owner, number, same]⟩
    counted := fun r hr => by
      obtain ⟨r', hr', number, count⟩ := mem_of_tallies records hr
      rw [← number, ← count, ← hs.counted r' hr']
      exact length_filter_of_places segments fun p => p.1 == .kept && p.2 == some r'.number
    writing := fun i x hx => by
      obtain ⟨y, hy, state, -⟩ := getElem?_of_places segments hx
      rw [← state, writer]
      exact hs.writing i y hy
    writer := by rw [writer]; exact hs.writer
    claimed := by
      rw [claim]
      obtain same | ended := current
      · rw [same]; exact hs.claimed
      · rw [ended]; exact fun _ _ _ hm => nomatch hm }

/-! ### Views that are finer -/

theorem KeepsStore.of_blocks (evu : t.evu = s.evu) (wfs : t.wfs = s.wfs) : KeepsStore s t := by
  constructor
  · rw [wfs]
  · rw [wfs]
  · rw [wfs]
  · rw [evu]
  · rw [evu]; exact .inl rfl

theorem Stands.keepsStore (h : Stands s t) : KeepsStore s t := by
  obtain ⟨evu, wfs, -⟩ := h
  simp only [Evu.mk.injEq] at evu
  simp only [Wfs.mk.injEq] at wfs
  obtain ⟨-, -, -, -, -, current, -, -, -, table, -⟩ := evu
  obtain ⟨segments, writer, claim, -⟩ := wfs
  exact ⟨congrArg _ segments, writer, claim,
    map_of_finer (g := EventRecord.unblanked) (q := EventRecord.tally) (fun _ => rfl) table, .inl current⟩

theorem Alerts.keepsStore (h : Alerts s t) : KeepsStore s t := ((Stands.refl s).alerts h).keepsStore

theorem Packs.keepsStore (h : Packs s t) : KeepsStore s t := ((Stands.refl s).packs h).keepsStore

/-! ### EVU, but for a declaration (chapter 4) -/

/-- A record after work that leaves its number and waveform, and changes it only if it is that of the current event. -/
def Attended (current : Option Nat) (r r' : EventRecord) : Prop :=
  r'.number = r.number ∧ r'.wave = r.wave ∧ (current ≠ some r.number → r' = r)

/-- `t` is after work of EVU that declares no event: WFS stands, and the records but for the current one, whose waveform stands; the
event in progress goes on or ends; K15 and K16 stand. -/
structure Attends (s t : State) : Prop where
  wfs : t.wfs = s.wfs
  current : t.evu.current = s.evu.current ∨ t.evu.current = none
  table : ∃ g : EventRecord → EventRecord, t.evu.table = s.evu.table.map g ∧ ∀ r, Attended s.evu.current r (g r)
  counters : ∀ k : Fin 40, k = 15 ∨ k = 16 → t.cnt[k] = s.cnt[k]

/-- What leaves EVU and WFS, and counts in neither K15 nor K16. -/
theorem Attends.of_blocks (evu : t.evu = s.evu) (wfs : t.wfs = s.wfs)
    (counters : ∀ k : Fin 40, k = 15 ∨ k = 16 → t.cnt[k] = s.cnt[k] := by exact fun _ _ => rfl) : Attends s t :=
  ⟨wfs, .inl (congrArg _ evu), ⟨id, (congrArg Evu.table evu).trans (List.map_id _).symm, fun _ => ⟨rfl, rfl, fun _ => rfl⟩⟩,
    counters⟩

theorem Attends.refl (s : State) : Attends s s := .of_blocks rfl rfl

theorem Attends.trans (h : Attends s t) (h' : Attends t u) : Attends s u := by
  obtain ⟨wfs, current, ⟨g, table, attended⟩, counters⟩ := h
  obtain ⟨wfs', current', ⟨g', table', attended'⟩, counters'⟩ := h'
  refine ⟨wfs'.trans wfs, current'.elim (fun e => current.imp e.trans e.trans) .inr,
    ⟨g' ∘ g, by rw [table', table, List.map_map], fun r => ?_⟩, fun k hk => (counters' k hk).trans (counters k hk)⟩
  obtain ⟨number, wave, stands⟩ := attended r
  obtain ⟨number', wave', stands'⟩ := attended' (g r)
  refine ⟨number'.trans number, wave'.trans wave, fun other => (stands' fun e => ?_).trans (stands other)⟩
  rw [number] at e
  obtain same | ended := current
  · exact other (same.symm.trans e)
  · exact nomatch ended.symm.trans e

theorem Attends.keepsStore (h : Attends s t) : KeepsStore s t := by
  obtain ⟨wfs, current, ⟨g, table, attended⟩, -⟩ := h
  refine ⟨congrArg _ (congrArg _ wfs), congrArg _ wfs, congrArg _ wfs, ?_, current⟩
  rw [table, List.map_map]
  refine List.map_congr_left fun r _ => ?_
  obtain ⟨number, wave, -⟩ := attended r
  exact Prod.ext number (congrArg Waveform.count wave)

theorem count_attends (k : Fin 40) (s : State) (hk : k ≠ 15 ∧ k ≠ 16 := by decide) : Attends s (count k s) := by
  obtain ⟨-, evu, wfs⟩ := (count_alerts k s).blocks
  refine .of_blocks evu wfs fun j hj => (count_getElem k j s).trans (if_neg ?_)
  rintro rfl
  exact hj.elim hk.1 hk.2

theorem raiseEvent_attends (cls : Fin 8) (p : AlertPayload) (s : State) : Attends s (raiseEvent cls p s) := by
  obtain ⟨-, evu, wfs⟩ := (raiseEvent_alerts cls p s).blocks
  refine .of_blocks evu wfs fun k hk => ?_
  have apart : ApartFromAlerts k := by
    obtain rfl | rfl := hk <;> decide
  unfold raiseEvent
  split
  · exact raiseAlert_counter cls _ apart s
  · rfl

/-- A change of EVU's marks and counts. -/
theorem withEvu_attends (f : Evu → Evu) (s : State) (table : (f s.evu).table = s.evu.table := by rfl)
    (current : (f s.evu).current = s.evu.current := by rfl) : Attends s (s.withEvu f) :=
  ⟨rfl, .inl current, ⟨id, table.trans (List.map_id _).symm, fun _ => ⟨rfl, rfl, fun _ => rfl⟩⟩, fun _ _ => rfl⟩

/-- A change of the current record in what WFS does not write. -/
theorem updateRecord_attends {n : Nat} (current : s.evu.current = some n) (f : EventRecord → EventRecord)
    (hf : ∀ r, (f r).number = r.number ∧ (f r).wave = r.wave := by exact fun _ => ⟨rfl, rfl⟩) :
    Attends s (updateRecord n f s) := by
  refine ⟨rfl, .inl rfl, ⟨_, rfl, fun r => ?_⟩, fun _ _ => rfl⟩
  split
  · next e => exact ⟨(hf r).1, (hf r).2, fun other => absurd (e ▸ current) other⟩
  · exact ⟨rfl, rfl, fun _ => rfl⟩

theorem updateCurrent_attends (f : EventRecord → EventRecord) (s : State)
    (hf : ∀ r, (f r).number = r.number ∧ (f r).wave = r.wave := by exact fun _ => ⟨rfl, rfl⟩) :
    Attends s (updateCurrent f s) := by
  unfold updateCurrent
  split
  · exact .refl s
  · next current => exact updateRecord_attends current f hf

theorem takeTriggerOn_attends (c : Fin 6) (st : Stamp) (s : State) : Attends s (takeTriggerOn c st s) := by
  rw [takeTriggerOn_eq]
  have voted : Attends s (voteOn c st s) := withEvu_attends _ s
  refine Attends.trans ?_ (updateCurrent_attends _ _)
  split
  · exact voted.trans ((withEvu_attends _ _).trans (updateCurrent_attends _ _))
  · exact voted

theorem takeTriggerOff_attends (c : Fin 6) (m : Time) (s : State) : Attends s (takeTriggerOff c m s) :=
  (withEvu_attends _ s).trans (updateCurrent_attends _ _)

theorem takeChange_attends (b : Batch) (c : Fin 6) (s : State) : Attends s (takeChange b c s) := by
  unfold takeChange
  split
  · exact .refl s
  · exact takeTriggerOn_attends c _ s
  · exact takeTriggerOff_attends c _ s

theorem batchChanges_attends (b : Batch) (s : State) : Attends s (batchChanges b s) :=
  (withEvu_attends _ s).trans (fold_keeps .refl .trans (fun u c => takeChange_attends b c u) channels _)

theorem endContributions_attends (s : State) : Attends s (endContributions s) := by
  unfold endContributions
  exact withEvu_attends _ s

theorem evaluateOpen_attends (s : State) : Attends s (evaluateOpen s) := by
  unfold evaluateOpen
  split
  · exact (withEvu_attends _ s).trans (updateCurrent_attends _ _)
  · exact .refl s

/-- The close of a record ends the event in progress (R73). -/
theorem closeRecord_attends (st : Stamp) (f : EndReason → EndReason) (s : State) : Attends s (closeRecord st f s) := by
  cases current : s.evu.current with
  | none =>
    rw [closeRecord, current]
    exact .refl s
  | some n =>
    have rest (v : State) : Attends v (v.withEvu Evu.rest) :=
      ⟨rfl, .inr rfl, ⟨id, (List.map_id _).symm, fun _ => ⟨rfl, rfl, fun _ => rfl⟩⟩, fun _ _ => rfl⟩
    have closed := (updateRecord_attends current (EventRecord.close st f)).trans (rest _)
    rw [closeRecord, current]
    dsimp only
    split
    · exact closed
    · exact closed.trans (raiseEvent_attends _ _ _)

theorem closeEvent_attends (st : Stamp) (s : State) : Attends s (closeEvent st s) :=
  (withEvu_attends _ s).trans (closeRecord_attends _ _ _)

theorem forceClosing_attends (s : State) : Attends s (forceClosing s) :=
  ((withEvu_attends _ s).trans (updateCurrent_attends _ _)).trans (count_attends 14 _)

theorem takeMagnitude_attends (c : Fin 6) (m : Nat) (at' : Time) (s : State) : Attends s (takeMagnitude c m at' s) := by
  unfold takeMagnitude
  split
  · exact withEvu_attends _ s
  · exact updateCurrent_attends _ s

theorem takeCrossing_attends (c : Fin 6) (m : Nat) (at' : Time) (s : State) : Attends s (takeCrossing c m at' s) := by
  unfold takeCrossing
  split
  · exact .refl s
  · next current =>
    split
    · exact .refl s
    · split
      · exact .refl s
      · exact (updateRecord_attends current _).trans (raiseEvent_attends _ _ _)

theorem takeReport_attends (b : Batch) (c : Fin 6) (s : State) : Attends s (takeReport b c s) := by
  unfold takeReport
  split
  · exact .refl s
  · dsimp only
    split
    · exact (takeMagnitude_attends _ _ _ s).trans (takeCrossing_attends _ _ _ _)
    · exact takeMagnitude_attends _ _ _ s

theorem takeReports_attends (b : Batch) (s : State) : Attends s (takeReports b s) := by
  refine (fold_keeps .refl .trans (fun u c => takeReport_attends b c u) channels s).trans ?_
  unfold takeReports flagDegraded
  split
  · exact .refl _
  · exact updateCurrent_attends _ _

theorem advanceAge_attends (fresh : Bool) (s : State) : Attends s (advanceAge fresh s) := by
  unfold advanceAge
  split
  · exact .refl s
  · dsimp only
    split
    · exact (withEvu_attends _ s).trans (forceClosing_attends _)
    · exact withEvu_attends _ s

theorem advancePost_attends (fresh : Bool) (st : Stamp) (s : State) : Attends s (advancePost fresh st s) := by
  unfold advancePost
  split
  · exact .refl s
  · dsimp only
    split
    · exact (withEvu_attends _ s).trans (closeEvent_attends _ _)
    · exact withEvu_attends _ s

theorem advanceTail_attends (fresh : Bool) (s : State) : Attends s (advanceTail fresh s) := by
  unfold advanceTail
  split
  · exact .refl s
  · split
    · exact .refl s
    · exact withEvu_attends _ s

theorem advanceCounts_attends (declared began : Bool) (st : Stamp) (s : State) :
    Attends s (advanceCounts declared began st s) :=
  (advanceAge_attends _ s).trans ((advancePost_attends _ _ _).trans (advanceTail_attends _ _))

theorem offBatchTriggerOff_attends (c : Fin 6) (m : Time) (s : State) : Attends s (offBatchTriggerOff c m s) :=
  (takeTriggerOff_attends c m s).trans ((endContributions_attends _).trans (evaluateOpen_attends _))

theorem evuRestart_attends (s : State) : Attends s (evuRestart s) := by
  have quiet := withEvu_attends (fun e => { e with tail := none }) s
  unfold evuRestart
  exact (quiet.trans (closeRecord_attends _ _ _)).trans (withEvu_attends _ _)

end Sys2Proof.Machine
end

section
/-!
SUPPORT. The operations of the waveform store keep the kept budget (R83 to R88): a segment changes its place, the budget is kept by a
release or the refusal of R87, and a declaration starts with no segment of its own.
-/

namespace Sys2Proof.Machine

variable {s t : State}

/-! ### Changing one segment of a list -/

theorem length_filter_modify {α : Type} {p : α → Bool} {f : α → α} {l : List α} {i : Nat} {x : α} (at' : l[i]? = some x) :
    ((l.modify i f).filter p).length + (if p x then 1 else 0) = (l.filter p).length + (if p (f x) then 1 else 0) := by
  induction l generalizing i with
  | nil => cases at'
  | cons y l ih =>
    cases i with
    | zero =>
      obtain rfl : y = x := Option.some.inj at'
      rw [List.modify_zero_cons, List.filter_cons, List.filter_cons]
      split_ifs <;> simp
    | succ i =>
      have rest := ih (i := i) at'
      rw [List.modify_succ_cons, List.filter_cons, List.filter_cons]
      split
      · rw [List.length_cons, List.length_cons]
        omega
      · exact rest

theorem getElem?_modify_cases {α : Type} {f : α → α} {l : List α} {i j : Nat} {x y : α} (at' : l[i]? = some x)
    (h : (l.modify i f)[j]? = some y) : j = i ∧ y = f x ∨ j ≠ i ∧ l[j]? = some y := by
  rw [List.getElem?_modify] at h
  by_cases e : i = j
  · subst e
    rw [at'] at h
    exact .inl ⟨rfl, by simpa using h.symm⟩
  · exact .inr ⟨Ne.symm e, by simpa [e] using h⟩

theorem mem_modify_cases {α : Type} {f : α → α} {l : List α} {i : Nat} {x y : α} (at' : l[i]? = some x)
    (h : y ∈ l.modify i f) : y = f x ∨ y ∈ l := by
  obtain ⟨j, hj⟩ := List.mem_iff_getElem?.mp h
  exact (getElem?_modify_cases at' hj).imp (·.2) fun other => List.mem_of_getElem? other.2

/-! ### The segments in start order -/

theorem insertByOrder_perm (x : Nat × Segment) (l : List (Nat × Segment)) : (insertByOrder x l).Perm (x :: l) := by
  induction l with
  | nil => exact .refl _
  | cons y l ih =>
    unfold insertByOrder
    split
    · exact .refl _
    · exact (ih.cons y).trans (.swap x y l)

theorem byOrder_perm (l : List (Nat × Segment)) : (byOrder l).Perm l := by
  induction l with
  | nil => exact .refl _
  | cons x l ih => exact (insertByOrder_perm x (byOrder l)).trans (ih.cons x)

theorem mem_segmentsWhere {p : Segment → Bool} {x : Nat × Segment} :
    x ∈ segmentsWhere s p ↔ s.wfs.segments[x.1]? = some x.2 ∧ p x.2 = true := by
  rw [segmentsWhere, (byOrder_perm _).mem_iff, List.mem_filter, List.mem_mapIdx]
  constructor
  · rintro ⟨⟨i, hi, rfl⟩, hp⟩
    exact ⟨List.getElem?_eq_getElem hi, hp⟩
  · rintro ⟨at', hp⟩
    obtain ⟨hi, e⟩ := List.getElem?_eq_some_iff.mp at'
    exact ⟨⟨x.1, hi, by rw [e]⟩, hp⟩

/-- Each segment stands in the list once. -/
theorem segmentsWhere_nodup (s : State) (p : Segment → Bool) : ((segmentsWhere s p).map (·.1)).Nodup := by
  have indexes : ((s.wfs.segments.mapIdx fun i x => (i, x)).map (·.1)).Nodup := by
    have e : (s.wfs.segments.mapIdx fun i x => (i, x)).map (·.1) = List.range s.wfs.segments.length := by
      refine List.ext_getElem (by simp) fun i _ _ => ?_
      simp
    rw [e]
    exact List.nodup_range
  exact ((byOrder_perm _).map _).nodup_iff.mpr (indexes.sublist (List.filter_sublist.map _))

/-! ### One segment changes its place -/

/-- Segment `i` is there, and FREE. -/
def FreeAt (i : Nat) (s : State) : Prop := ∃ x, s.wfs.segments[i]? = some x ∧ x.state = .free

/-- A segment that is KEPT neither before nor after changes, and the writer with it. -/
theorem SegmentInv.change (h : SegmentInv s) {i : Nat} {x : Segment} {f : Segment → Segment}
    (at' : s.wfs.segments[i]? = some x) (segments : t.wfs.segments = s.wfs.segments.modify i f)
    (was : x.state ≠ .kept) (is : (f x).state ≠ .kept) (writing : (f x).state = .writing ↔ t.wfs.writer = some i)
    (others : ∀ j, j ≠ i → (t.wfs.writer = some j ↔ s.wfs.writer = some j))
    (records : t.evu.table.map EventRecord.tally = s.evu.table.map EventRecord.tally)
    (claimed : ∀ n ∈ t.wfs.claim, ∀ m ∈ t.evu.current, m = n) : SegmentInv t := by
  have total : t.wfs.segments.length = 128 := by rw [segments, List.length_modify, h.total]
  have inside : i < 128 := h.total ▸ (List.getElem?_eq_some_iff.mp at').1
  have same (p : Segment → Bool) (hp : p x = p (f x)) :
      (t.wfs.segments.filter p).length = (s.wfs.segments.filter p).length := by
    have := length_filter_modify (p := p) (f := f) at'
    rw [hp] at this
    rw [segments]
    exact Nat.add_right_cancel this
  exact {
    total := total
    kept := (same (fun y => y.state == .kept) (by
      rw [beq_eq_false_iff_ne.mpr was, beq_eq_false_iff_ne.mpr is])).trans_le h.kept
    owned := fun y hy kept => by
      obtain rfl | old := mem_modify_cases at' (segments ▸ hy)
      · exact absurd kept is
      · obtain ⟨r, hr, owner⟩ := h.owned y old kept
        obtain ⟨r', hr', number, -⟩ := mem_of_tallies records.symm hr
        exact ⟨r', hr', by rw [owner, number]⟩
    counted := fun r hr => by
      obtain ⟨r', hr', number, count⟩ := mem_of_tallies records hr
      rw [← number, ← count, ← h.counted r' hr']
      refine same (fun y => y.state == .kept && y.owner == some r'.number) ?_
      rw [beq_eq_false_iff_ne.mpr was, beq_eq_false_iff_ne.mpr is, Bool.false_and, Bool.false_and]
    writing := fun j y hy => by
      obtain ⟨rfl, rfl⟩ | ⟨other, old⟩ := getElem?_modify_cases at' (segments ▸ hy)
      · exact writing
      · exact (h.writing j y old).trans (others j other).symm
    writer := fun j hj => by
      by_cases e : j = i
      · exact e ▸ inside
      · exact h.writer j ((others j e).mp hj)
    claimed := claimed }

/-- The records after one has counted another segment. -/
theorem updateWave_counts {n : Nat} {g : Waveform → Waveform} {r : EventRecord} {v : State}
    (hr : r ∈ (updateWave n g v).evu.table) :
    ∃ r' ∈ v.evu.table, r'.number = r.number ∧ r.wave.count = (if r'.number = n then (g r'.wave).count else r'.wave.count) := by
  obtain ⟨r', hr', rfl⟩ := List.mem_map.mp hr
  refine ⟨r', hr', ?_⟩
  split <;> exact ⟨rfl, rfl⟩

/-- The numbers in the table stand where WFS works. -/
theorem Waves.numbers (h : Waves s t) : t.evu.table.map (·.number) = s.evu.table.map (·.number) :=
  map_of_finer (g := EventRecord.waveless) (q := (·.number)) (fun _ => rfl) h.fields.1

/-- A FREE segment is KEPT for a record of the table, with room in the budget (R84, R86, R87). -/
theorem markKept_segmentInv {i n : Nat} (h : SegmentInv s) (free : FreeAt i s) (known : n ∈ s.evu.table.map (·.number))
    (room : keptCount s < 112) : SegmentInv (markKept i n s) := by
  obtain ⟨x, at', state⟩ := free
  have unkept : (x.state == SegState.kept) = false := by rw [state]; rfl
  have segments : (markKept i n s).wfs.segments =
      s.wfs.segments.modify i fun x => { x with state := .kept, owner := some n } := rfl
  have numbers := (markKept_waves i n s).numbers
  exact {
    total := by rw [segments, List.length_modify, h.total]
    kept := (markKept_keptCount i n s).trans room
    owned := fun y hy kept => by
      have mem (m : Nat) (hm : m ∈ s.evu.table.map (·.number)) : ∃ r ∈ (markKept i n s).evu.table, some m = some r.number := by
        obtain ⟨r, hr, e⟩ := List.mem_map.mp (numbers ▸ hm)
        exact ⟨r, hr, congrArg some e.symm⟩
      obtain rfl | old := mem_modify_cases at' (segments ▸ hy)
      · exact mem n known
      · obtain ⟨r, hr, owner⟩ := h.owned y old kept
        rw [owner]
        exact mem r.number (List.mem_map_of_mem hr)
    counted := fun r hr => by
      obtain ⟨r', hr', number, count⟩ := updateWave_counts hr
      have before := h.counted r' hr'
      have after := length_filter_modify (p := fun y : Segment => y.state == .kept && y.owner == some r'.number)
        (f := fun x => { x with state := .kept, owner := some n }) at'
      rw [unkept, Bool.false_and, if_neg Bool.false_ne_true, Nat.add_zero, before] at after
      rw [segments, ← number, after, count]
      by_cases e : r'.number = n
      · rw [if_pos e, e]
        simp
      · rw [if_neg e]
        simp [Ne.symm e]
    writing := fun j y hy => by
      obtain ⟨rfl, rfl⟩ | ⟨-, old⟩ := getElem?_modify_cases at' (segments ▸ hy)
      · have idle : s.wfs.writer ≠ some j := fun e => nomatch state.symm.trans ((h.writing j x at').mpr e)
        exact ⟨fun e => (nomatch e), fun e => absurd e idle⟩
      · exact h.writing j y old
    writer := h.writer
    claimed := h.claimed }

/-- The budget refuses a FREE segment (R87, case 2). -/
theorem markPartial_segmentInv {i n : Nat} (h : SegmentInv s) (free : FreeAt i s) : SegmentInv (markPartial i n s) := by
  obtain ⟨x, at', state⟩ := free
  have writing := h.writing i x at'
  rw [state] at writing
  refine (count_alerts 15 _).keepsStore.segmentInv ?_
  refine h.change at' rfl (by rw [state]; exact fun e => nomatch e) (fun e => nomatch e) writing (fun _ _ => Iff.rfl) ?_
    (fun _ hn => nomatch hn)
  exact updateRecord_map (f := fun r => { r with truncated := true, wave := { r.wave with state := .partly } }) n
    (fun _ => rfl) s

/-! ### The release of a waveform (R88) -/

/-- A segment after the release of an event's waveform. -/
def Segment.releasedBy (n : Nat) (x : Segment) : Segment :=
  if x.state = .kept ∧ x.owner = some n then { x with state := .free, owner := none } else x

/-- The state of a release before the job is judged. -/
def released (n : Nat) (s : State) : State :=
  updateWave n (fun w => { w with first := none, count := 0 })
    (s.withWfs fun w =>
      { w with segments := w.segments.map (Segment.releasedBy n), claim := if w.claim = some n then none else w.claim })

theorem releaseWave_eq (n : Nat) (s : State) : releaseWave n s = cancelJobOn n .lost (released n s) := rfl

theorem releaseWave_keepsStore (n : Nat) (s : State) : KeepsStore (released n s) (releaseWave n s) :=
  (cancelJobOn_stands n .lost (.refl _)).keepsStore

/-- What is KEPT after a release was KEPT for another event. -/
theorem releasedBy_kept {n : Nat} {x : Segment} :
    (x.releasedBy n).state = .kept ↔ x.state = .kept ∧ x.owner ≠ some n := by
  unfold Segment.releasedBy
  split
  · next gone => exact ⟨fun e => (nomatch e), fun stays => absurd gone.2 stays.2⟩
  · next stays => exact ⟨fun kept => ⟨kept, fun owner => stays ⟨kept, owner⟩⟩, And.left⟩

theorem releasedBy_of_kept {n : Nat} {x : Segment} (h : (x.releasedBy n).state = .kept) : x.releasedBy n = x :=
  if_neg fun gone => (releasedBy_kept.mp h).2 gone.2

theorem releasedBy_writing {n : Nat} {x : Segment} : (x.releasedBy n).state = .writing ↔ x.state = .writing := by
  unfold Segment.releasedBy
  split
  · next gone => rw [gone.1]; exact ⟨fun e => (nomatch e), fun e => (nomatch e)⟩
  · exact Iff.rfl

/-- The KEPT segments that meet a condition after a release are those of the other events that met it. -/
theorem length_filter_released (n : Nat) (l : List Segment) (q : Segment → Bool) :
    ((l.map (Segment.releasedBy n)).filter fun x => x.state == .kept && q x).length =
      (l.filter fun x => x.state == .kept && q x && x.owner != some n).length := by
  rw [List.filter_map, List.length_map]
  refine congrArg _ (List.filter_congr fun x _ => ?_)
  rw [Function.comp_apply, Bool.eq_iff_iff]
  simp only [Bool.and_eq_true, beq_iff_eq, bne_iff_ne, releasedBy_kept]
  constructor
  · rintro ⟨⟨kept, other⟩, meets⟩
    rw [releasedBy_of_kept (releasedBy_kept.mpr ⟨kept, other⟩)] at meets
    exact ⟨⟨kept, meets⟩, other⟩
  · rintro ⟨⟨kept, meets⟩, other⟩
    rw [releasedBy_of_kept (releasedBy_kept.mpr ⟨kept, other⟩)]
    exact ⟨⟨kept, other⟩, meets⟩

/-- A release takes the event's segments from the budget. -/
theorem released_keptCount (n : Nat) (s : State) :
    keptCount (released n s) + (s.wfs.segments.filter fun x => x.state == .kept && x.owner == some n).length = keptCount s := by
  have left := length_filter_released n s.wfs.segments fun _ => true
  simp only [Bool.and_true] at left
  have split := List.countP_eq_countP_filter_add s.wfs.segments (fun x => x.state == .kept) (fun x => x.owner != some n)
  simp only [List.countP_eq_length_filter, List.filter_filter, bne, Bool.not_not] at split
  exact (congrArg (· + _) left).trans split.symm

theorem released_segmentInv (n : Nat) (h : SegmentInv s) : SegmentInv (released n s) := by
  have segments : (released n s).wfs.segments = s.wfs.segments.map (Segment.releasedBy n) := rfl
  have kept := released_keptCount n s
  have most := h.kept
  exact {
    total := by rw [segments, List.length_map, h.total]
    kept := by omega
    owned := fun y hy kept => by
      obtain ⟨x, hx, rfl⟩ := List.mem_map.mp hy
      obtain ⟨r, hr, owner⟩ := h.owned x hx (releasedBy_kept.mp kept).1
      rw [releasedBy_of_kept kept]
      refine ⟨_, List.mem_map_of_mem hr, ?_⟩
      split <;> exact owner
    counted := fun r hr => by
      obtain ⟨r', hr', number, count⟩ := updateWave_counts hr
      rw [segments, length_filter_released n s.wfs.segments fun x => x.owner == some r.number, count, ← number]
      by_cases e : r'.number = n
      · rw [if_pos e, e]
        refine List.length_eq_zero_iff.mpr (List.filter_eq_nil_iff.mpr fun x _ meets => ?_)
        simp only [Bool.and_eq_true, beq_iff_eq, bne_iff_ne] at meets
        exact meets.2 meets.1.2
      · rw [if_neg e, ← h.counted r' hr']
        refine congrArg _ (List.filter_congr fun x _ => ?_)
        rw [Bool.and_eq_left_iff_imp]
        intro meets
        simp only [Bool.and_eq_true, beq_iff_eq] at meets
        rw [meets.2, bne_iff_ne]
        exact fun same => e (Option.some.inj same)
    writing := fun j y hy => by
      rw [segments, List.getElem?_map] at hy
      obtain ⟨x, hx, rfl⟩ := Option.map_eq_some_iff.mp hy
      exact releasedBy_writing.trans (h.writing j x hx)
    writer := h.writer
    claimed := fun m hm => by
      have claim : (released n s).wfs.claim = if s.wfs.claim = some n then none else s.wfs.claim := rfl
      rw [claim] at hm
      split at hm
      · cases hm
      · exact h.claimed m hm }

theorem releaseWave_segmentInv (n : Nat) (h : SegmentInv s) : SegmentInv (releaseWave n s) :=
  (releaseWave_keepsStore n s).segmentInv (released_segmentInv n h)

/-- After a release no segment is KEPT for the event. -/
theorem releaseWave_unkept {n : Nat} {x : Segment} (hx : x ∈ (releaseWave n s).wfs.segments) (kept : x.state = .kept) :
    x.owner ≠ some n := by
  obtain ⟨y, hy, state, owner⟩ := mem_of_places (releaseWave_keepsStore n s).segments hx
  obtain ⟨z, -, rfl⟩ := List.mem_map.mp hy
  rw [kept] at state
  rw [releasedBy_of_kept state] at owner
  rw [← owner]
  exact (releasedBy_kept.mp state).2

theorem releaseWave_freeAt {i n : Nat} (h : FreeAt i s) : FreeAt i (releaseWave n s) := by
  obtain ⟨x, at', state⟩ := h
  have at'' : (released n s).wfs.segments[i]? = some x := by
    refine (List.getElem?_map).trans ?_
    rw [at', Option.map_some, Segment.releasedBy, if_neg]
    rw [state]
    exact fun gone => nomatch gone.1
  obtain ⟨y, hy, same, -⟩ := getElem?_of_places (releaseWave_keepsStore n s).segments.symm at''
  exact ⟨y, hy, same.trans state⟩

theorem releaseWave_keptCount (n : Nat) (s : State) : keptCount (releaseWave n s) = keptCount (released n s) :=
  length_filter_of_places (releaseWave_keepsStore n s).segments fun p => p.1 == .kept

/-! ### Keeping a segment under the budget (R87) -/

/-- What R87 releases is a record of another event that counts a segment. -/
theorem releasable_spec {n : Nat} {r : EventRecord} (h : releasable n s = some r) :
    r ∈ s.evu.table ∧ r.number ≠ n ∧ 1 ≤ r.wave.count ∧ r.state = .closed ∧ holdOf s r.number = none ∧ r.wave.state ≠ .lost := by
  have mem := List.mem_of_find?_eq_some h
  have meets := List.find?_some h
  simp only [Bool.and_eq_true, beq_iff_eq, bne_iff_ne, decide_eq_true_eq, Option.isNone_iff_eq_none] at meets
  obtain ⟨⟨⟨⟨closed, unheld⟩, there⟩, counts⟩, other⟩ := meets
  exact ⟨mem, other, counts, closed, unheld, there⟩

/-- The state in which R87 keeps a segment when it has had to release a waveform: K16 has counted it. -/
def madeRoom (n : Nat) (s : State) : State :=
  count 16 (updateWave n (fun w => { w with state := .lost }) (releaseWave n s))

theorem keepSegment_of_room {i n : Nat} (room : keptCount s < 112) : keepSegment i n s = markKept i n s := if_pos room

theorem keepSegment_of_full {i n : Nat} {r : EventRecord} (full : ¬ keptCount s < 112) (goes : releasable n s = some r) :
    keepSegment i n s = markKept i n (madeRoom r.number s) := by
  rw [keepSegment, if_neg full, goes]
  rfl

theorem keepSegment_of_none {i n : Nat} (full : ¬ keptCount s < 112) (none : releasable n s = none) :
    keepSegment i n s = markPartial i n s := by
  rw [keepSegment, if_neg full, none]

theorem madeRoom_keepsStore (n : Nat) (s : State) : KeepsStore (releaseWave n s) (madeRoom n s) := by
  have lost : KeepsStore (releaseWave n s) (updateWave n (fun w => { w with state := .lost }) (releaseWave n s)) :=
    ⟨rfl, rfl, rfl, updateRecord_map (f := fun r => { r with wave := { r.wave with state := .lost } }) n (fun _ => rfl) _,
      .inl rfl⟩
  exact lost.trans (count_alerts 16 _).keepsStore

theorem madeRoom_segmentInv (n : Nat) (h : SegmentInv s) : SegmentInv (madeRoom n s) :=
  (madeRoom_keepsStore n s).segmentInv (releaseWave_segmentInv n h)

theorem KeepsStore.freeAt {i : Nat} (h : KeepsStore s t) (free : FreeAt i s) : FreeAt i t := by
  obtain ⟨x, at', state⟩ := free
  obtain ⟨y, hy, same, -⟩ := getElem?_of_places h.segments.symm at'
  exact ⟨y, hy, same.trans state⟩

theorem madeRoom_freeAt {i n : Nat} (h : FreeAt i s) : FreeAt i (madeRoom n s) :=
  (madeRoom_keepsStore n s).freeAt (releaseWave_freeAt h)

/-- The release leaves room in the budget. -/
theorem madeRoom_keptCount {n : Nat} {r : EventRecord} (h : SegmentInv s) (goes : releasable n s = some r) :
    keptCount (madeRoom r.number s) < 112 := by
  obtain ⟨mem, -, counts, -⟩ := releasable_spec goes
  have counted := h.counted r mem
  have kept := h.kept
  have left := released_keptCount r.number s
  have same : keptCount (madeRoom r.number s) = keptCount (releaseWave r.number s) :=
    length_filter_of_places (madeRoom_keepsStore r.number s).segments fun p => p.1 == .kept
  rw [same, releaseWave_keptCount]
  omega

theorem madeRoom_waves (n : Nat) (s : State) : Waves s (madeRoom n s) :=
  ((releaseWave_waves n s).trans (updateWave_waves _ _ _)).trans (count_waves (.inr rfl) _)

theorem keepSegment_segmentInv {i n : Nat} (h : SegmentInv s) (free : FreeAt i s) (known : n ∈ s.evu.table.map (·.number)) :
    SegmentInv (keepSegment i n s) := by
  by_cases room : keptCount s < 112
  · rw [keepSegment_of_room room]
    exact markKept_segmentInv h free known room
  · cases goes : releasable n s with
    | none =>
      rw [keepSegment_of_none room goes]
      exact markPartial_segmentInv h free
    | some r =>
      rw [keepSegment_of_full room goes]
      exact markKept_segmentInv (madeRoom_segmentInv _ h) (madeRoom_freeAt free)
        ((madeRoom_waves _ s).numbers.symm ▸ known) (madeRoom_keptCount h goes)

/-- A change of one segment leaves the others FREE that are. -/
theorem freeAt_modify {i j : Nat} {f : Segment → Segment} (segments : t.wfs.segments = s.wfs.segments.modify i f)
    (other : j ≠ i) (free : FreeAt j s) : FreeAt j t := by
  obtain ⟨x, at', state⟩ := free
  refine ⟨x, ?_, state⟩
  rw [segments, List.getElem?_modify, at', Option.map_eq_map, Option.map_some, if_neg (Ne.symm other)]

theorem keepSegment_freeAt {i j n : Nat} (other : j ≠ i) (free : FreeAt j s) : FreeAt j (keepSegment i n s) := by
  by_cases room : keptCount s < 112
  · rw [keepSegment_of_room room]
    exact freeAt_modify rfl other free
  · cases goes : releasable n s with
    | none =>
      rw [keepSegment_of_none room goes]
      exact (count_alerts 15 _).keepsStore.freeAt (freeAt_modify (s := s) rfl other free)
    | some r =>
      rw [keepSegment_of_full room goes]
      exact freeAt_modify rfl other (madeRoom_freeAt free)

theorem keepEach_segmentInv {n : Nat} {l : List Nat} (h : SegmentInv s) (distinct : l.Nodup) (free : ∀ i ∈ l, FreeAt i s)
    (known : n ∈ s.evu.table.map (·.number)) : SegmentInv (keepEach n l s) := by
  induction l generalizing s with
  | nil => exact h
  | cons i l ih =>
    obtain ⟨apart, distinct⟩ := List.nodup_cons.mp distinct
    obtain ⟨first, rest⟩ := List.forall_mem_cons.mp free
    have kept := keepSegment_segmentInv h first known
    unfold keepEach
    dsimp only
    split
    · refine ih kept distinct (fun j hj => keepSegment_freeAt (fun e => apart (e ▸ hj)) (rest j hj)) ?_
      rw [(keepSegment_waves i n s).numbers]
      exact known
    · exact kept

/-! ### The writer (R82, R83, R86) -/

/-- What the writer takes next is FREE (R83). -/
theorem nextFree_freeAt {i : Nat} (h : nextFree s = some i) : FreeAt i s := by
  unfold nextFree at h
  split at h
  · next j found =>
    obtain rfl : j = i := Option.some.inj h
    obtain ⟨hj, meets, -⟩ := List.findIdx?_eq_some_iff_getElem.mp found
    simp only [Bool.and_eq_true, beq_iff_eq] at meets
    exact ⟨_, List.getElem?_eq_getElem hj, meets.1⟩
  · obtain ⟨x, head, rfl⟩ := Option.map_eq_some_iff.mp h
    obtain ⟨at', free⟩ := mem_segmentsWhere.mp (List.mem_of_head? head)
    exact ⟨x.2, at', eq_of_beq free⟩

/-- A segment as the writer takes it. -/
def Segment.begun (order : Nat) (x : Segment) : Segment :=
  { x with order := some order, first := none, count := 0, state := .writing, owner := none }

/-- The state after the writer has taken segment `i`. -/
def takenAt (i : Nat) (s : State) : State :=
  let v := updateSegment i (Segment.begun s.wfs.nextOrder) s
  v.withWfs fun w => { w with writer := some i, nextOrder := startOrderAfter s.wfs.nextOrder, claim := newClaim v }

theorem takeSegment_cases (s : State) :
    nextFree s = none ∧ takeSegment s = s ∨ ∃ i, nextFree s = some i ∧ takeSegment s = takenAt i s := by
  unfold takeSegment
  cases next : nextFree s with
  | none => exact .inl ⟨rfl, rfl⟩
  | some i => exact .inr ⟨i, rfl, rfl⟩

/-- A new claim is the current event's (R85). -/
theorem newClaim_current {n m : Nat} (claim : newClaim s = some n) (current : s.evu.current = some m) : m = n := by
  rw [newClaim, current] at claim
  dsimp only at claim
  split at claim
  · exact Option.some.inj claim
  · cases claim

theorem takeSegment_segmentInv (h : SegmentInv s) (idle : s.wfs.writer = none) : SegmentInv (takeSegment s) := by
  obtain ⟨-, e⟩ | ⟨i, next, e⟩ := takeSegment_cases s
  · rwa [e]
  · obtain ⟨x, at', state⟩ := nextFree_freeAt next
    rw [e]
    refine h.change (t := takenAt i s) at' rfl (by rw [state]; exact fun e => nomatch e) (fun e => nomatch e)
      ⟨fun _ => rfl, fun _ => rfl⟩ (fun j other => ?_) rfl fun n hn m hm => newClaim_current hn hm
    rw [idle]
    exact ⟨fun e => absurd (Option.some.inj e).symm other, fun e => (nomatch e)⟩

/-- A segment as the writer puts it down unclaimed. -/
def Segment.freed (x : Segment) : Segment := { x with state := .free, owner := none }

/-- The state after the writer has put segment `i` down, unclaimed or under its claim. -/
def putDown (i : Nat) (f : Segment → Segment) (s : State) : State :=
  updateSegment i f (s.withWfs fun w => { w with writer := none })

/-- The WRITING segment completes (R86). -/
theorem finishSegment_of_writer {i : Nat} (writer : s.wfs.writer = some i) :
    (∃ n, s.wfs.claim = some n ∧ waveKept s n = true ∧
      finishSegment s = keepSegment i n (putDown i (fun x => { x with state := .free }) s)) ∨
    ((∀ n, s.wfs.claim = some n → waveKept s n = false) ∧ finishSegment s = putDown i Segment.freed s) := by
  have same : (s.withWfs fun w => { w with writer := none }).wfs.claim = s.wfs.claim := rfl
  have kept (n : Nat) : waveKept (s.withWfs fun w => { w with writer := none }) n = waveKept s n := rfl
  unfold finishSegment
  rw [writer]
  dsimp only
  rw [same]
  cases claim : s.wfs.claim with
  | none => exact .inr ⟨fun _ e => (nomatch e), rfl⟩
  | some n =>
    dsimp only
    rw [kept]
    split
    · next there => exact .inl ⟨n, rfl, there, rfl⟩
    · next gone => exact .inr ⟨fun m e => by rw [← Option.some.inj e]; exact Bool.eq_false_of_not_eq_true gone, rfl⟩

/-- The writer's segment is there. -/
theorem SegmentInv.getElem?_writer (h : SegmentInv s) {i : Nat} (writer : s.wfs.writer = some i) :
    ∃ x, s.wfs.segments[i]? = some x ∧ x.state = .writing := by
  have inside : i < s.wfs.segments.length := h.total ▸ h.writer i writer
  exact ⟨_, List.getElem?_eq_getElem inside, (h.writing i _ (List.getElem?_eq_getElem inside)).mpr writer⟩

theorem putDown_segmentInv {i : Nat} {f : Segment → Segment} (h : SegmentInv s) (writer : s.wfs.writer = some i)
    (free : ∀ x, (f x).state = .free) : SegmentInv (putDown i f s) ∧ FreeAt i (putDown i f s) := by
  obtain ⟨x, at', state⟩ := h.getElem?_writer writer
  refine ⟨h.change (t := putDown i f s) at' rfl (by simp [state]) (by simp [free])
    ⟨fun e => ?_, fun e => (nomatch e)⟩ (fun j other => ?_) rfl h.claimed, f x, ?_, free x⟩
  · rw [free] at e
    cases e
  · rw [writer]
    exact ⟨fun e => (nomatch e), fun e => absurd (Option.some.inj e).symm other⟩
  · show (s.wfs.segments.modify i f)[i]? = _
    rw [List.getElem?_modify, at', Option.map_eq_map, Option.map_some, if_pos rfl]

/-- An event whose waveform is KEPT has a record in the table. -/
theorem known_of_waveKept {n : Nat} (h : waveKept s n = true) : n ∈ s.evu.table.map (·.number) := by
  unfold waveKept at h
  split at h
  · cases h
  · next r found => exact List.mem_map.mpr ⟨r, List.mem_of_find?_eq_some found, by simpa using List.find?_some found⟩

theorem finishSegment_segmentInv (h : SegmentInv s) : SegmentInv (finishSegment s) := by
  cases writer : s.wfs.writer with
  | none =>
    rw [finishSegment, writer]
    exact h
  | some i =>
    obtain ⟨n, -, kept, e⟩ | ⟨-, e⟩ := finishSegment_of_writer writer
    · obtain ⟨inv, free⟩ := putDown_segmentInv h writer (f := fun x => { x with state := .free }) fun _ => rfl
      rw [e]
      exact keepSegment_segmentInv inv free (known_of_waveKept kept)
    · rw [e]
      exact (putDown_segmentInv h writer fun _ => rfl).1

/-- Where a segment is kept, the writer stands as it was. -/
theorem keepSegment_writer (i n : Nat) (s : State) : (keepSegment i n s).wfs.writer = s.wfs.writer := by
  by_cases room : keptCount s < 112
  · rw [keepSegment_of_room room]
    rfl
  · cases goes : releasable n s with
    | none =>
      rw [keepSegment_of_none room goes]
      exact (count_alerts 15 _).keepsStore.writer
    | some r =>
      rw [keepSegment_of_full room goes]
      exact ((madeRoom_keepsStore _ s).writer.trans (releaseWave_keepsStore _ s).writer)

theorem finishSegment_writer (s : State) : (finishSegment s).wfs.writer = none := by
  cases writer : s.wfs.writer with
  | none =>
    rw [finishSegment, writer]
    exact writer
  | some i =>
    obtain ⟨n, -, -, e⟩ | ⟨-, e⟩ := finishSegment_of_writer writer
    · rw [e, keepSegment_writer]
      rfl
    · rw [e]
      rfl

/-- A frame stored in a segment leaves every segment in its place (R82). -/
theorem store_keepsStore (i : Nat) (d : Delivered) (s : State) : KeepsStore s (updateSegment i (Segment.store d) s) := by
  refine ⟨List.ext_getElem? fun j => ?_, rfl, rfl, rfl, .inl rfl⟩
  show ((s.wfs.segments.modify i (Segment.store d)).map Segment.place)[j]? = (s.wfs.segments.map Segment.place)[j]?
  rw [List.getElem?_map, List.getElem?_map, List.getElem?_modify]
  cases s.wfs.segments[j]? with
  | none => rfl
  | some x =>
    simp only [Option.map_eq_map, Option.map_some]
    split <;> rfl

theorem writeFrame_segmentInv (d : Delivered) (h : SegmentInv s) : SegmentInv (writeFrame d s) := by
  have taken : SegmentInv (if s.wfs.writer.isNone then takeSegment s else s) := by
    split
    · next idle => exact takeSegment_segmentInv h (Option.isNone_iff_eq_none.mp idle)
    · exact h
  unfold writeFrame
  generalize (if s.wfs.writer.isNone then takeSegment s else s) = v at taken
  dsimp only
  split
  · exact taken
  · next i _ =>
    have stored := (store_keepsStore i d v).segmentInv taken
    split
    · exact takeSegment_segmentInv (finishSegment_segmentInv stored) (finishSegment_writer _)
    · exact stored

theorem wfsRestart_segmentInv (h : SegmentInv s) : SegmentInv (wfsRestart s) := by
  have ended {u : State} (hu : SegmentInv u) : SegmentInv (u.withWfs fun w => { w with claim := none, job := none }) :=
    { hu with claimed := fun _ hn => nomatch hn }
  unfold wfsRestart
  dsimp only
  split
  · exact ended h
  · split
    · exact ended h
    · exact ended (finishSegment_segmentInv h)

/-! ### A declaration (R67 to R69, R84) -/

/-- The loss of a record takes its segments from the budget (R68). -/
theorem loseRecord_segmentInv (n : Nat) (h : SegmentInv s) : SegmentInv (loseRecord n s) := by
  have inv := releaseWave_segmentInv n h
  exact {
    total := inv.total
    kept := inv.kept
    owned := fun x hx kept => by
      obtain ⟨r, hr, owner⟩ := inv.owned x hx kept
      refine ⟨r, List.mem_filter.mpr ⟨hr, bne_iff_ne.mpr fun e => ?_⟩, owner⟩
      exact releaseWave_unkept hx kept (e ▸ owner)
    counted := fun r hr => inv.counted r (List.mem_of_mem_filter hr)
    writing := inv.writing
    writer := inv.writer
    claimed := inv.claimed }

theorem withRoom_segmentInv (h : SegmentInv s) : SegmentInv (withRoom s) := by
  unfold withRoom removeOldest
  split
  · split
    · exact h
    · next r _ => exact loseRecord_segmentInv r.number h
  · exact h

/-- The state in which the look-back of a new event begins: no segment is KEPT for its number. -/
theorem preEventBegun_segmentInv {r : EventRecord} (h : SegmentInv s) (events : EventInv s) (number : r.number = s.evu.nextNumber) :
    SegmentInv (preEventBegun s.evu.nextNumber (s.withEvu (Evu.declare r))) := by
  have fresh : ∀ x ∈ s.wfs.segments, x.state = .kept → x.owner ≠ some s.evu.nextNumber := fun x hx kept owner => by
    obtain ⟨r', hr', e⟩ := h.owned x hx kept
    exact events.next r' hr' (Option.some.inj (e.symm.trans owner))
  exact {
    total := h.total
    kept := h.kept
    owned := fun x hx kept => by
      obtain ⟨r', hr', owner⟩ := h.owned x hx kept
      refine ⟨_, List.mem_map_of_mem (List.mem_append_left _ hr'), ?_⟩
      split <;> exact owner
    counted := fun r' hr' => by
      obtain ⟨r'', mem, same, count⟩ :=
        updateWave_counts (g := fun _ => ⟨none, 0, .kept⟩) (v := s.withEvu (Evu.declare r)) hr'
      rw [count, ← same]
      obtain old | new := List.mem_append.mp mem
      · rw [if_neg (events.next r'' old)]
        exact h.counted r'' old
      · have e : r''.number = s.evu.nextNumber := (congrArg EventRecord.number (List.mem_singleton.mp new)).trans number
        rw [if_pos e, e]
        refine List.length_eq_zero_iff.mpr (List.filter_eq_nil_iff.mpr fun x hx meets => ?_)
        simp only [Bool.and_eq_true, beq_iff_eq] at meets
        exact fresh x hx meets.1 meets.2
    writing := h.writing
    writer := h.writer
    claimed := fun n hn m hm => Option.some.inj (hm.symm.trans hn) }

/-- The segments that the look-back includes are FREE, each named once (R84). -/
theorem lookBack_completed (start : Int) (most : Nat) (s : State) :
    (lookBack start most (completedSegments s)).Nodup ∧ ∀ i ∈ lookBack start most (completedSegments s), FreeAt i s := by
  obtain ⟨k, e, reach⟩ := lookBack_eq start most (completedSegments s)
  have distinct : ((completedSegments s).map (·.1)).Nodup := by
    rw [completedSegments, List.map_reverse, List.nodup_reverse]
    exact segmentsWhere_nodup s _
  rw [e]
  refine ⟨distinct.sublist ((List.take_sublist k _).map _), fun i hi => ?_⟩
  obtain ⟨x, hx, rfl⟩ := List.mem_map.mp hi
  have mem : x ∈ completedSegments s := List.mem_of_mem_take hx
  exact ⟨x.2, (mem_segmentsWhere.mp (List.mem_reverse.mp mem)).1, reach.free x hx⟩

theorem declareEvent_segmentInv (st : Stamp) (h : SegmentInv s) (events : EventInv s) (idle : s.evu.phase = .idle) :
    SegmentInv (declareEvent st s) := by
  obtain ⟨roomy, -, -⟩ := withRoom_eventInv events idle
  let v := (withRoom s).withEvu (Evu.declare (newRecord (withRoom s).evu.nextNumber st (withRoom s)))
  have begun : SegmentInv (preEventBegun (withRoom s).evu.nextNumber v) := preEventBegun_segmentInv (withRoom_segmentInv h) roomy rfl
  have known : (withRoom s).evu.nextNumber ∈ (preEventBegun (withRoom s).evu.nextNumber v).evu.table.map (·.number) := by
    rw [((updateWave_waves _ _ v).trans (withWfs_waves _ _) : Waves v (preEventBegun _ v)).numbers]
    exact List.mem_map.mpr ⟨_, List.mem_append_right _ (List.mem_singleton_self _), rfl⟩
  have span : SegmentInv (keepPreEvent (withRoom s).evu.nextNumber st.time v) := by
    rw [keepPreEvent_eq]
    split
    · exact begun
    · obtain ⟨distinct, free⟩ := lookBack_completed (spanStart st.time v) (spanBound v) v
      exact keepEach_segmentInv begun (List.nodup_reverse.mpr distinct) (fun i hi => free i (List.mem_reverse.mp hi)) known
  rw [declareEvent_eq]
  exact (raiseEvent_alerts _ _ _).keepsStore.segmentInv ((count_alerts 13 _).keepsStore.segmentInv span)

theorem evaluatePhase_segmentInv (st : Stamp) (h : SegmentInv s) (events : EventInv s) : SegmentInv (evaluatePhase st s) := by
  unfold evaluatePhase
  split
  · next idle =>
    split
    · exact declareEvent_segmentInv st h events idle
    · exact h
  · exact (evaluateOpen_attends s).keepsStore.segmentInv h
  · exact h

end Sys2Proof.Machine
end

section
/-!
PROOF. O55: every step keeps the kept budget (R83, R85, R87). Only the sample path and the starts touch the segments; the Event
Table's invariant goes with the budget's, since a new event's number has to be borne by none.
-/

namespace Sys2Proof.Machine

variable {s t u : State}

/-- Where `s` meets the invariants of the Event Table and of the segments, `t` does. -/
def KeepsBudget (s t : State) : Prop := EventInv s ∧ SegmentInv s → EventInv t ∧ SegmentInv t

theorem KeepsBudget.refl (s : State) : KeepsBudget s s := id

theorem KeepsBudget.trans (h : KeepsBudget s t) (h' : KeepsBudget t u) : KeepsBudget s u := h' ∘ h

theorem KeepsStore.budget (h : KeepsStore s t) (events : KeepsEvents s t) : KeepsBudget s t :=
  fun ⟨inv, store⟩ => ⟨events inv, h.segmentInv store⟩

theorem KeepsBudget.of_blocks (evu : t.evu = s.evu) (wfs : t.wfs = s.wfs) : KeepsBudget s t :=
  (KeepsStore.of_blocks evu wfs).budget fun h => h.of_blocks evu wfs

theorem Stands.budget (h : Stands s t) : KeepsBudget s t := h.keepsStore.budget h.eventInv

theorem Alerts.budget (h : Alerts s t) : KeepsBudget s t := h.keepsStore.budget h.eventInv

theorem Packs.budget (h : Packs s t) : KeepsBudget s t := h.keepsStore.budget h.eventInv

/-! ### The sample path (chapters 1, 3 and 4) -/

theorem evuBatch_budget (b : Batch) (s : State) : KeepsBudget s (evuBatch b s) := by
  rintro ⟨events, store⟩
  have joined := (endContributions_attends (batchChanges b s)).keepsStore.segmentInv
    ((batchChanges_attends b s).keepsStore.segmentInv store)
  have judged := evaluatePhase_segmentInv b.stamp joined (endContributions_eventInv (batchChanges_eventInv b events))
  refine ⟨evuBatch_eventInv b events, ?_⟩
  rw [evuBatch_eq]
  exact (advanceCounts_attends _ _ _ _).keepsStore.segmentInv ((takeReports_attends b _).keepsStore.segmentInv judged)

theorem sampleInstant_budget (st : Stamp) (item : SampleItem) (s : State) : KeepsBudget s (sampleInstant st item s) := by
  have detectors : KeepsBudget s { s with det := (bankInstant item s).map (·.det) } := .of_blocks rfl rfl
  have batch := (detectors.trans (bankWork_alerts item s).budget).trans (evuBatch_budget (bankBatch st item s) _)
  exact batch.trans (.of_blocks rfl rfl)

/-- A trigger-off is reported, where there is one, after a change of the detectors. -/
theorem report_keepsStore {p : Prop} [Decidable p] (c : Fin 6) (m : Time) (f : Detector → Detector) (s : State) :
    KeepsStore s (if p then offBatchTriggerOff c m (updateDetector c f s) else updateDetector c f s) := by
  have changed : KeepsStore s (updateDetector c f s) := .of_blocks rfl rfl
  split
  · exact changed.trans ((offBatchTriggerOff_attends c m _).keepsStore)
  · exact changed

theorem gapResetChannel_keepsStore (m : Time) (c : Fin 6) (s : State) : KeepsStore s (gapResetChannel m c s) := by
  unfold gapResetChannel
  dsimp only
  split
  · exact .refl s
  · exact report_keepsStore c m _ s

theorem detWrite_keepsStore (c : Fin 6) (old : ChannelEntry) (s : State) : KeepsStore s (detWrite c old s) := by
  unfold detWrite
  dsimp only
  split
  · exact .of_blocks rfl rfl
  · split
    · exact report_keepsStore c s.now _ s
    · split
      · exact report_keepsStore c s.now _ s
      · exact .refl s

theorem judgeGap_keepsStore (m : Time) (s : State) : KeepsStore s (judgeGap m s) := by
  obtain ⟨-, e⟩ | ⟨-, e⟩ := judgeGap_cases m s
  · have signalled : KeepsStore s (s.withSif fun f => { f with gapSignalled := true }) := .of_blocks rfl rfl
    have reset := signalled.trans (fold_keeps .refl .trans (fun v c => gapResetChannel_keepsStore m c v) channels _)
    obtain ⟨-, evu, wfs⟩ := onsetA6_blocks .gap (gapResetDetectors m (s.withSif fun f => { f with gapSignalled := true }))
    rw [e]
    exact reset.trans (.of_blocks evu wfs)
  · rw [e]
    exact .refl s

theorem judgeGap_budget (m : Time) (s : State) : KeepsBudget s (judgeGap m s) :=
  (judgeGap_keepsStore m s).budget (judgeGap_eventInv m)

theorem writeFrame_budget (d : Delivered) (s : State) : KeepsBudget s (writeFrame d s) :=
  fun ⟨events, store⟩ => ⟨(writeFrame_waves d s).eventInv events, writeFrame_segmentInv d store⟩

theorem declareMissing_budget (e : Strobe) (s : State) : KeepsBudget s (declareMissing e s) := by
  obtain ⟨-, evu, wfs⟩ := missingNoted_blocks e s
  have noted : KeepsBudget s (missingNoted e s) := .of_blocks evu wfs
  rw [declareMissing_eq]
  exact noted.trans ((sampleInstant_budget _ none _).trans ((packMissing_packs _).budget.trans (judgeGap_budget _ _)))

theorem deliver_budget (e : Strobe) (f : DigFrame) (s : State) : KeepsBudget s (deliver e f s) := by
  obtain ⟨-, evu, wfs⟩ := acceptedNoted_blocks e s
  have accepted : KeepsBudget s (acceptedNoted e s) := .of_blocks evu wfs
  cases hf : f.fault
  · rw [deliver_of_good hf]
    dsimp only
    obtain ⟨-, evu, wfs⟩ := usableNoted_blocks (deliveredOf s.sif.stepCarry e f) (acceptedNoted e s)
    exact (accepted.trans (.of_blocks evu wfs)).trans
      ((sampleInstant_budget _ _ _).trans ((writeFrame_budget _ _).trans (packFrame_packs _ _).budget))
  · rw [deliver_of_fault hf]
    obtain ⟨-, evu, wfs⟩ := faultNoted_blocks (acceptedNoted e s)
    exact (accepted.trans (.of_blocks evu wfs)).trans ((sampleInstant_budget _ _ _).trans
      ((writeFrame_budget _ _).trans ((packMissing_packs _).budget.trans (judgeGap_budget _ _))))

theorem deliverFront_budget (n : Nat) (s : State) : KeepsBudget s (deliverFront n s) := by
  induction n generalizing s with
  | zero => exact .refl s
  | succ n ih =>
    unfold deliverFront
    split
    · exact .refl s
    · next e rest _ =>
      have listed : KeepsBudget s (s.withSif fun x => { x with strobes := rest }) := .of_blocks rfl rfl
      split
      · exact .refl s
      · exact (listed.trans (deliver_budget e _ _)).trans (ih _)

theorem pushOut_budget (s : State) : KeepsBudget s (pushOut s) := by
  unfold pushOut
  split
  · exact .refl s
  · split
    · exact .refl s
    · next e rest _ =>
      have listed : KeepsBudget s (s.withSif fun x => { x with strobes := rest }) := .of_blocks rfl rfl
      have left : KeepsBudget (s.withSif fun x => { x with strobes := rest })
          (leave e (s.withSif fun x => { x with strobes := rest })) := by
        unfold leave
        split
        · exact deliver_budget e _ _
        · exact declareMissing_budget e _
      exact (listed.trans left).trans (deliverFront_budget _ _)

theorem strobeInstant_budget (s : State) : KeepsBudget s (strobeInstant s) := (pushOut_budget s).trans (.of_blocks rfl rfl)

theorem digitizerFrame_budget (bytes : List Byte) (s : State) : KeepsBudget s (digitizerFrame bytes s) := by
  have counted (k : Fin 40) : KeepsBudget s (count k s) := (count_alerts k s).budget
  unfold digitizerFrame
  split
  · exact counted 1
  · next f _ =>
    have stored : KeepsBudget s (storeFrame f s) := .of_blocks rfl rfl
    unfold matchFrame
    split
    · split
      · exact counted 3
      · exact stored.trans (deliverFront_budget _ _)
    · split
      · exact counted 3
      · exact counted 2

/-! ### Starts (R80, R97, R98) -/

/-- A cold EVU and a cold WFS (R79, R97). -/
theorem budget_of_cold (evu : t.evu = Cold.evu) (wfs : t.wfs = Cold.wfs) : KeepsBudget s t :=
  fun _ => ⟨eventInv_of_cold evu wfs, (KeepsStore.of_blocks (s := State.reset) evu wfs).segmentInv reset_segmentInv⟩

theorem coldStart_budget (straps : Byte) (answers : Bool) (s : State) : KeepsBudget s (coldStart straps answers s) := by
  unfold coldStart
  split <;> exact budget_of_cold rfl rfl

theorem powerDown_budget (supply : Supply) (disconnect : Bool) (s : State) : KeepsBudget s (powerDown supply disconnect s) :=
  budget_of_cold rfl rfl

theorem warmRestart_budget (straps : Byte) (s : State) : KeepsBudget s (warmRestart straps s) := by
  have stored : KeepsBudget s (wfsRestart (evuRestart s)) := fun ⟨events, store⟩ =>
    ⟨(wfsRestart_waves _).eventInv (evuRestart_eventInv events),
      wfsRestart_segmentInv ((evuRestart_attends s).keepsStore.segmentInv store)⟩
  obtain ⟨-, evu, wfs⟩ := clearA6_blocks (wfsRestart (evuRestart s))
  let v := ldaRestart (detReset (sifRestart (wfsRestart (evuRestart s))))
  have sampled : KeepsBudget s v := stored.trans (.of_blocks evu wfs)
  have timed : Stands v (tmbRestart v) := dutyRequest_stands (judgeA3_stands ((withTmb_stands _).2 (.refl _)))
  refine (sampled.trans timed.budget).trans (KeepsBudget.trans ?_ (aluRestart_alerts _).budget)
  exact .of_blocks rfl rfl

/-! ### The scan and the commands (chapters 8 and 10) -/

theorem scan_budget (x : MonitorInputs) (s : State) : KeepsBudget s (scan x s) := by
  unfold scan
  dsimp only
  split
  · exact (powerDown_budget .cut true s).trans (.of_blocks rfl rfl)
  · exact (judgeAndRemember_stands _ (levelStage_stands _ (scanToCut_stands x (.refl s)))).budget

/-- The holds are no part of the budget (R89). -/
theorem withHolds_keepsStore (f : Wfs → List Hold) (s : State) :
    KeepsStore s (s.withWfs fun w => { w with holds := f w }) := ⟨rfl, rfl, rfl, rfl, .inl rfl⟩

theorem grantHold_keepsStore (n centre seconds : Nat) (s : State) : KeepsStore s (grantHold n centre seconds s) := by
  refine (withHolds_keepsStore (fun w => w.holds ++ [⟨n, centre, seconds⟩]) s).trans ?_
  unfold grantHold
  dsimp only
  split
  · exact .refl _
  · split
    · exact (cancelJob_stands .held (.refl _)).keepsStore
    · exact .refl _

theorem cmdHold_keepsStore (n minutes centre : Nat) (s : State) : KeepsStore s (cmdHold n minutes centre s).state := by
  unfold cmdHold
  dsimp only
  split
  · exact .refl s
  · split
    · split
      · exact .refl s
      · dsimp only
        exact withHolds_keepsStore _ s
    · split
      · exact .refl s
      · split
        · exact .refl s
        · exact grantHold_keepsStore n centre _ s

theorem cmdTableWrite_keepsStore (table first n : Nat) (entries : List Byte) (s : State) :
    KeepsStore s (cmdTableWrite table first n entries s).state := by
  unfold cmdTableWrite
  split
  · exact .refl s
  · next id _ =>
    split
    · exact .refl s
    · split
      · exact .refl s
      · next es _ _ =>
        have stored : KeepsStore s { s with tables := storeEntries first es s.tables } := .of_blocks rfl rfl
        by_cases hc : id = .channel
        · subst hc
          exact (eachIndex_keeps (Q := KeepsStore s) (fun i u hu => hu.trans (detWrite_keepsStore _ _ u)) first n stored).trans
            (streamWrite_stands _ (.refl _)).keepsStore
        · exact stored.trans (actWrite_stands hc first n s.tables (.refl _)).keepsStore

theorem perform_keepsStore (c : Command) (centre : Nat) (tag : Byte) (s : State) :
    KeepsStore s (perform c centre tag s).state := by
  cases c with
  | tableWrite t f n es => exact cmdTableWrite_keepsStore t f n es s
  | hold e m => exact cmdHold_keepsStore e m centre s
  | timeSet l f => exact (cmdTimeSet_stands l f (.refl s)).keepsStore
  | counterClear f n => exact (cmdCounterClear_stands f n (.refl s)).keepsStore
  | alertAck i => exact (cmdAlertAck_stands i centre (.refl s)).keepsStore
  | release e => exact (cmdRelease_stands e centre (.refl s)).keepsStore
  | waveRequest e o n => exact (cmdWaveRequest_stands e o n centre tag (.refl s)).keepsStore
  | waveCancel => exact (cmdWaveCancel_stands centre (.refl s)).keepsStore
  | loadTest l n => exact (cmdLoadTest_stands l n (.refl s)).keepsStore
  | save => exact (cmdSave_stands centre (.refl s)).keepsStore
  | eventRead n => exact (cmdEventRead_state n s).symm ▸ .refl s
  | tableRead t f n => exact (cmdTableRead_state t f n s).symm ▸ .refl s
  | counterRead f n => exact (cmdCounterRead_state f n s).symm ▸ .refl s
  | emptyPayload | unknownKind _ | badLength _ | status | alertList | eventList | restart => exact .refl s

/-! ### Every step -/

/-- Every operation that the commands are made of keeps the kept budget. -/
theorem budget_stepLaws : StepLaws KeepsBudget where
  refl := .refl
  trans := .trans
  pending _ _ := .of_blocks rfl rfl
  passTime _ _ := .of_blocks rfl rfl
  settle s := (settle_stands (.refl s)).budget
  count k s := (count_alerts k s).budget
  coldStart := coldStart_budget
  powerDown := powerDown_budget
  strobeInstant := strobeInstant_budget
  digitizerFrame := digitizerFrame_budget
  secondBoundary s := (secondBoundary_stands (.refl s)).budget
  timeMessage bytes s := (timeMessage_stands bytes (.refl s)).budget
  ppsEdge s := (ppsEdge_stands (.refl s)).budget
  beginFrame s := (beginFrame_stands (.refl s)).budget
  completeTransmission s := (completeTransmission_stands (.refl s)).budget
  radioReady _ := .of_blocks rfl rfl
  receiver _ _ _ := .of_blocks rfl rfl
  scheduleScan _ := .of_blocks rfl rfl
  scan := scan_budget
  switchOff l s := (switchOff_stands l (.refl s)).budget
  endRest l s := ((Stands.refl s).switching (endRest_butSwitching l s)).budget
  endSuspension s := ((Stands.refl s).switching (endSuspension_butSwitching s)).budget
  endColdWait s := ((Stands.refl s).switching (endColdWait_butSwitching s)).budget
  saveComplete bytes s := (saveComplete_stands bytes (.refl s)).budget
  saveNoAnswer n s := (saveNoAnswer_stands n (.refl s)).budget
  reservePlace _ _ _ := .of_blocks rfl rfl
  fillReply _ _ := .of_blocks rfl rfl
  perform c centre tag s := (perform_keepsStore c centre tag s).budget (perform_eventInv c centre tag)
  warmRestart := warmRestart_budget

/-- Settles O55: every operation of the commands keeps the budget, beside the Event Table. -/
theorem stepKeepsSegmentBudget : Obligations.StepKeepsSegmentBudget :=
  fun _ _ events store step => (budget_stepLaws.step step ⟨events, store⟩).2

end Sys2Proof.Machine
end

section
/-!
SUPPORT. The frame that fills the WRITING segment (R86), from its sample instant to the end of its step: an instant that declares no
event leaves the waveform store and what the records say of it, and so does what follows the writer's work.
-/

namespace Sys2Proof.Machine

variable {s t u : State} {b : Batch} {item : SampleItem}

/-! ### An instant that declares no event (R41, R63) -/

/-- A batch that declines a declaration judges no more than the closing of an event in progress. -/
theorem phaseJudged_attends (h : Declines b s) : Attends s (phaseJudged b s) := by
  have joined := (batchChanges_attends b s).trans (endContributions_attends _)
  have below (idle : (batchChanges b s).evu.phase = .idle) : ¬ (endContributions (batchChanges b s)).tables.event.threshold ≤
      (endContributions (batchChanges b s)).evu.voteSum := by
    obtain going | ⟨quiet, light⟩ := h
    · exact absurd idle (List.foldlRecOn (motive := fun u : State => u.evu.phase ≠ .idle) channels _ going
        fun _ hu c _ => takeChange_phase b c hu)
    · have weight := (endContributions_voteSum _).trans (weightSum_mono fun c => (batchChanges_weight quiet s c).le)
      exact Nat.not_le.mpr (weight.trans_lt (light.trans_eq (congrArg (·.event.threshold) (batchChanges_tables b s)).symm))
  unfold phaseJudged evaluatePhase
  split
  · next idle => rwa [if_neg (below idle)]
  · exact joined.trans (evaluateOpen_attends _)
  · exact joined

theorem evuBatch_attends (h : Declines b s) : Attends s (evuBatch b s) := by
  rw [evuBatch_eq]
  exact ((phaseJudged_attends h).trans (takeReports_attends b _)).trans (advanceCounts_attends _ _ _ _)

theorem countTriggerOn_attends (x : DetResult) (c : Fin 6) (s : State) : Attends s (countTriggerOn x c s) := by
  have apart : (⟨7 + c.val, by omega⟩ : Fin 40) ≠ 15 ∧ (⟨7 + c.val, by omega⟩ : Fin 40) ≠ 16 := by
    revert c
    decide
  unfold countTriggerOn
  split
  · exact count_attends _ s apart
  · exact .refl s

theorem bankWork_attends (item : SampleItem) (s : State) : Attends s (bankWork item s) := by
  have detectors : Attends s { s with det := (bankInstant item s).map (·.det) } := .of_blocks rfl rfl
  unfold bankWork
  exact detectors.trans (fold_keeps .refl .trans (fun u c => countTriggerOn_attends _ c u) channels _)

theorem sampleInstant_attends (st : Stamp) (h : NoDeclaration item s) : Attends s (sampleInstant st item s) := by
  obtain ⟨evu, tables, -⟩ := bankWork_kept item s
  have declines : Declines (bankBatch st item s) (bankWork item s) := by
    rw [Declines, evu, tables]
    exact h.imp_right fun ⟨quiet, light⟩ => ⟨fun c => bankBatch_change (quiet c), light⟩
  exact ((bankWork_attends item s).trans (evuBatch_attends declines)).trans (.of_blocks rfl rfl)

/-! ### The delivery of a usable frame (R5) -/

theorem acceptedNoted_attends (e : Strobe) (s : State) : Attends s (acceptedNoted e s) :=
  (count_attends 0 s).trans (.of_blocks rfl rfl)

theorem usableNoted_attends (d : Delivered) (s : State) : Attends s (usableNoted d s) := by
  obtain ⟨-, evu, wfs⟩ := usableNoted_blocks d s
  refine .of_blocks evu wfs fun k hk => ?_
  have apart : ApartFromAlerts k ∧ (6 : Fin 40) ≠ k := by
    obtain rfl | rfl := hk <;> decide
  have clips : (countTimes (clipCount d.clips) 6 s).cnt[k] = s.cnt[k] :=
    (countTimes_getElem _ 6 k s).trans (if_neg apart.2)
  unfold usableNoted clearA6
  split
  · exact (reportCondition_counter_apart 6 false _ apart.1 _).trans clips
  · exact clips

/-- The state in which the writer takes a usable frame, and the work after it. -/
theorem deliver_written {e : Strobe} {f : DigFrame} (good : f.fault = false)
    (quiet : NoDeclaration (some (f.samples, f.clips)) s) :
    ∃ v d, Attends s v ∧ deliver e f s = packFrame d (writeFrame d v) := by
  rw [deliver_of_good good]
  exact ⟨_, _, ((acceptedNoted_attends e s).trans (usableNoted_attends _ _)).trans
    (sampleInstant_attends ⟨e.time, e.tq⟩ (quiet.of_usable (deliveredOf s.sif.stepCarry e f) e)), rfl⟩

/-! ### What follows the writer's work -/

/-- What a record says of its waveform. -/
def EventRecord.waveform (r : EventRecord) : Nat × Waveform × Bool := (r.number, r.wave, r.truncated)

/-- `t` has the waveform store of `s`, what its records say of it, and K15 and K16. -/
structure ShowsWaves (s t : State) : Prop where
  wfs : t.wfs = s.wfs
  records : t.evu.table.map EventRecord.waveform = s.evu.table.map EventRecord.waveform
  counters : ∀ k : Fin 40, k = 15 ∨ k = 16 → t.cnt[k] = s.cnt[k]

theorem ShowsWaves.trans (h : ShowsWaves s t) (h' : ShowsWaves t u) : ShowsWaves s u :=
  ⟨h'.wfs.trans h.wfs, h'.records.trans h.records, fun k hk => (h'.counters k hk).trans (h.counters k hk)⟩

theorem ShowsWaves.found (h : ShowsWaves s t) {n : Nat} {r : EventRecord} (found : findRecord s n = some r) :
    ∃ r', findRecord t n = some r' ∧ r'.wave = r.wave ∧ r'.truncated = r.truncated := by
  have same := findRecord_map (q := Prod.fst) (fun _ => rfl) h.records n
  rw [found] at same
  obtain ⟨r', found', waveform⟩ := Option.map_eq_some_iff.mp same
  simp only [EventRecord.waveform, Prod.mk.injEq] at waveform
  exact ⟨r', found', waveform.2⟩

theorem settle_showsWaves (s : State) : ShowsWaves s (settle s) := by
  have evu := butSwitching_evu (settle_butSwitching s)
  obtain ⟨-, -, wfs, -⟩ := settle_fields s
  exact ⟨wfs, map_of_finer (g := EventRecord.unblanked) (q := EventRecord.waveform) (fun _ => rfl) (congrArg Evu.table evu),
    fun k hk => settle_counter k s (by obtain rfl | rfl := hk <;> decide)⟩

/-! The packer counts K27 alone. -/

theorem queueData_counter {k : Fin 40} (hk : k ≠ 27) (x : DataFrame) (s : State) : (queueData x s).cnt[k] = s.cnt[k] := by
  unfold queueData
  split
  · exact (count_getElem 27 k _).trans (if_neg (Ne.symm hk))
  · rfl

theorem closeData_counter {k : Fin 40} (hk : k ≠ 27) (s : State) : (closeData s).cnt[k] = s.cnt[k] := by
  unfold closeData
  split
  · rfl
  · exact queueData_counter hk _ _

theorem closeFull_counter {k : Fin 40} (hk : k ≠ 27) (s : State) : (closeFull s).cnt[k] = s.cnt[k] := by
  unfold closeFull
  split
  · rfl
  · split
    · exact closeData_counter hk s
    · rfl

theorem packFrame_counter {k : Fin 40} (hk : k ≠ 27) (d : Delivered) (s : State) : (packFrame d s).cnt[k] = s.cnt[k] := by
  unfold packFrame
  split
  · rfl
  · split
    · exact closeFull_counter hk _
    · split
      · exact (closeFull_counter hk _).trans (closeData_counter hk s)
      · exact closeFull_counter hk _

theorem packFrame_showsWaves (d : Delivered) (s : State) : ShowsWaves s (packFrame d s) := by
  obtain ⟨-, -, evu, wfs, -⟩ := (packFrame_packs d s).blocks
  exact ⟨wfs, by rw [evu], fun k hk => packFrame_counter (by obtain rfl | rfl := hk <;> decide) d s⟩

/-! ### The writer goes on to a FREE segment (R83) -/

theorem getElem?_modify_same {α : Type} {f : α → α} {l : List α} {i : Nat} {x : α} (at' : l[i]? = some x) :
    (l.modify i f)[i]? = some (f x) := by
  rw [List.getElem?_modify_eq, at']
  rfl

theorem getElem?_modify_other {α : Type} {f : α → α} {l : List α} {i j : Nat} (other : j ≠ i) :
    (l.modify i f)[j]? = l[j]? := List.getElem?_modify_ne _ _ (Ne.symm other)

theorem segmentAt_of_getElem? {i : Nat} {x : Segment} (at' : s.wfs.segments[i]? = some x) : segmentAt s i = x := by
  rw [segmentAt, List.getD_eq_getElem?_getD, at']
  rfl

/-- With a FREE segment there is one to take. -/
theorem exists_nextFree {i : Nat} (free : FreeAt i s) : ∃ j, nextFree s = some j := by
  obtain ⟨x, at', state⟩ := free
  have mem : (i, x) ∈ segmentsWhere s fun y => y.state == .free := mem_segmentsWhere.mpr ⟨at', beq_iff_eq.mpr state⟩
  unfold nextFree
  split
  · next j _ => exact ⟨j, rfl⟩
  · rw [List.head?_eq_some_head (List.ne_nil_of_mem mem)]
    exact ⟨_, rfl⟩

/-- The writer's new segment, and the others as they were. -/
theorem takenAt_segments (j : Nat) (s : State) :
    (takenAt j s).wfs.segments = s.wfs.segments.modify j (Segment.begun s.wfs.nextOrder) := rfl

/-- A new claim is of an event whose waveform is KEPT (R86). -/
theorem newClaim_waveKept {n : Nat} (claim : newClaim s = some n) : waveKept s n = true := by
  unfold newClaim at claim
  split at claim
  · cases claim
  · split at claim
    · next kept => exact Option.some.inj claim ▸ kept
    · cases claim

/-! ### The release that R87 makes -/

theorem madeRoom_segments (n : Nat) (s : State) :
    (madeRoom n s).wfs.segments = s.wfs.segments.map (Segment.releasedBy n) := by
  obtain ⟨q, e⟩ := cancelJobOn_eq n .lost (released n s)
  obtain ⟨-, -, wfs⟩ := (count_alerts 16 (updateWave n (fun w => { w with state := .lost }) (releaseWave n s))).blocks
  rw [madeRoom, wfs]
  show (releaseWave n s).wfs.segments = _
  rw [releaseWave_eq, e]
  rfl

/-- No job is left on the event whose waveform is released (R88, R95). -/
theorem madeRoom_job {n : Nat} {w : Job} (job : (madeRoom n s).wfs.job = some w) : w.event ≠ n := by
  obtain ⟨q, e⟩ := cancelJobOn_eq n .lost (released n s)
  obtain ⟨-, -, wfs⟩ := (count_alerts 16 (updateWave n (fun w => { w with state := .lost }) (releaseWave n s))).blocks
  rw [madeRoom, wfs] at job
  have left : (releaseWave n s).wfs.job = some w := job
  rw [releaseWave_eq, e] at left
  dsimp only at left
  split at left
  · cases left
  · next other => exact fun same => other (by rw [left, Option.map_some, same])

/-- A record but the one that changes is found as it was. -/
theorem findRecord_updateRecord_other {n m : Nat} {f : EventRecord → EventRecord} (hf : ∀ r, (f r).number = r.number)
    (other : m ≠ n) (s : State) : findRecord (updateRecord n f s) m = findRecord s m := by
  have same : (fun r : EventRecord => r.number == m) ∘ (fun r => if r.number = n then f r else r) = (·.number == m) := by
    funext r
    rw [Function.comp_apply]
    split
    · rw [hf]
    · rfl
  rw [findRecord, findRecord, updateRecord, List.find?_map, same]
  cases found : s.evu.table.find? (·.number == m) with
  | none => rfl
  | some r =>
    have number : r.number = m := by simpa using List.find?_some found
    rw [Option.map_some, if_neg (number ▸ other)]

theorem releaseWave_table (n : Nat) (s : State) : (releaseWave n s).evu.table = (released n s).evu.table := by
  obtain ⟨q, e⟩ := cancelJobOn_eq n .lost (released n s)
  rw [releaseWave_eq, e]

theorem madeRoom_table (n : Nat) (s : State) :
    (madeRoom n s).evu.table = (updateWave n (fun w => { w with state := .lost }) (released n s)).evu.table := by
  obtain ⟨-, evu, -⟩ := (count_alerts 16 (updateWave n (fun w => { w with state := .lost }) (releaseWave n s))).blocks
  rw [madeRoom, evu]
  exact congrArg (List.map _) (releaseWave_table n s)

/-- The record whose waveform has been released is LOST (R88). -/
theorem madeRoom_record {n : Nat} {r : EventRecord} (found : findRecord s n = some r) :
    findRecord (madeRoom n s) n = some { r with wave := ⟨none, 0, .lost⟩ } := by
  have cleared : findRecord (released n s) n =
      (findRecord s n).map fun r => { r with wave := { r.wave with first := none, count := 0 } } :=
    findRecord_updateRecord (f := fun r => { r with wave := { r.wave with first := none, count := 0 } }) (fun _ => rfl) _
  have lost := findRecord_updateRecord (n := n) (f := fun r => { r with wave := { r.wave with state := .lost } }) (fun _ => rfl)
    (released n s)
  rw [cleared, found] at lost
  exact (findRecord_congr (madeRoom_table n s) n).trans lost

theorem madeRoom_record_other {n m : Nat} (other : m ≠ n) (s : State) : findRecord (madeRoom n s) m = findRecord s m := by
  rw [findRecord_congr (madeRoom_table n s)]
  refine (findRecord_updateRecord_other (f := fun r => { r with wave := { r.wave with state := .lost } }) (fun _ => rfl) other
    _).trans ?_
  exact findRecord_updateRecord_other (f := fun r => { r with wave := { r.wave with first := none, count := 0 } })
    (fun _ => rfl) other _

/-- K16 counts the release (R87). -/
theorem madeRoom_counter (n : Nat) (s : State) : (madeRoom n s).cnt[(16 : Fin 40)] = s.cnt[(16 : Fin 40)] + 1 := by
  obtain ⟨q, e⟩ := cancelJobOn_eq n .lost (released n s)
  have before : (releaseWave n s).cnt = s.cnt := by rw [releaseWave_eq, e]; rfl
  refine (count_getElem 16 16 _).trans ((if_pos rfl).trans ?_)
  show (releaseWave n s).cnt[(16 : Fin 40)] + 1 = _
  rw [before]

end Sys2Proof.Machine
end

section
/-!
PROOF. O15: the frame that fills the WRITING segment completes it, FREE, KEPT or refused by the kept budget, and the writer goes on
(R83, R86, R87).
-/

namespace Sys2Proof.Machine

variable {s t u v : State} {i n : Nat} {x : Segment} {d : Delivered}

/-! ### The instant leaves what the budget is judged from -/

theorem Attends.found {m : Nat} {r : EventRecord} (h : Attends s v) (found : findRecord s m = some r) :
    ∃ r', findRecord v m = some r' ∧ r'.wave = r.wave := by
  obtain ⟨-, -, ⟨g, table, attended⟩, -⟩ := h
  have view : v.evu.table.map (fun r => (r.number, r.wave)) = s.evu.table.map fun r => (r.number, r.wave) := by
    rw [table, List.map_map]
    exact List.map_congr_left fun r _ => Prod.ext (attended r).1 (attended r).2.1
  have same := findRecord_map (q := Prod.fst) (fun _ => rfl) view m
  rw [found] at same
  obtain ⟨r', found', e⟩ := Option.map_eq_some_iff.mp same
  exact ⟨r', found', (Prod.mk.inj e).2⟩

/-- What may be released for the current event is no record that the instant changes. -/
theorem Attends.releasable (h : Attends s v) (alone : ∀ m ∈ s.evu.current, m = n) : releasable n v = releasable n s := by
  obtain ⟨wfs, -, ⟨g, table, attended⟩, -⟩ := h
  have stands {r : EventRecord} (other : r.number ≠ n) : g r = r :=
    (attended r).2.2 fun current => other (alone _ current)
  have holds (m : Nat) : holdOf v m = holdOf s m := by rw [holdOf, holdOf, wfs]
  unfold Machine.releasable
  simp only [table, List.find?_map, holds]
  have same : (fun r : EventRecord => r.state == .closed && (holdOf s r.number).isNone && r.wave.state != .lost &&
      decide (1 ≤ r.wave.count) && r.number != n) ∘ g = fun r => r.state == .closed && (holdOf s r.number).isNone &&
        r.wave.state != .lost && decide (1 ≤ r.wave.count) && r.number != n := by
    funext r
    by_cases e : r.number = n
    · have number := (attended r).1.trans e
      simp [number, e]
    · rw [Function.comp_apply, stands e]
  rw [same]
  cases found : s.evu.table.find? _ with
  | none => rfl
  | some r =>
    have meets := List.find?_some found
    rw [Bool.and_eq_true, bne_iff_ne] at meets
    rw [Option.map_some, stands meets.2]

/-! ### The WRITING segment is filled and put down (R82, R86) -/

/-- The writer with a frame more in its segment. -/
def filled (i : Nat) (d : Delivered) (v : State) : State := updateSegment i (Segment.store d) v

/-- The frame that fills a segment completes it, and the writer goes on. -/
theorem writeFrame_fills (writer : v.wfs.writer = some i) (at' : v.wfs.segments[i]? = some x) (last : x.count = 2047) :
    writeFrame d v = takeSegment (finishSegment (filled i d v)) := by
  have full : segmentAt (filled i d v) i = Segment.store d x := segmentAt_of_getElem? (getElem?_modify_same at')
  unfold writeFrame
  simp only [writer, Option.isNone_some, Bool.false_eq_true, if_false]
  refine if_pos ?_
  show Config.segmentFrames ≤ (segmentAt (filled i d v) i).count
  rw [full]
  show 2048 ≤ x.count + 1
  omega

/-- The segment put down, as the budget finds it. -/
def unclaimed (i : Nat) (d : Delivered) (v : State) : State := putDown i (fun x => { x with state := .free }) (filled i d v)

theorem putDown_at {f : Segment → Segment} (at' : v.wfs.segments[i]? = some x) :
    (putDown i f (filled i d v)).wfs.segments[i]? = some (f (Segment.store d x)) :=
  getElem?_modify_same (getElem?_modify_same at')

/-- The segment that is put down was not in the budget, and is not yet. -/
theorem unclaimed_keptCount (at' : v.wfs.segments[i]? = some x) (writing : x.state = .writing) :
    keptCount (unclaimed i d v) = keptCount v := by
  have put := length_filter_modify (p := fun y : Segment => y.state == .kept) (f := fun y => { y with state := .free })
    (show (filled i d v).wfs.segments[i]? = some (Segment.store d x) from getElem?_modify_same at')
  have stored : ((Segment.store d x).state == SegState.kept) = false := beq_eq_false_iff_ne.mpr fun e => nomatch writing.symm.trans e
  rw [stored] at put
  exact put.trans (length_filter_of_places (store_keepsStore i d v).segments fun p => p.1 == .kept)

theorem putDown_freeAt {f : Segment → Segment} {l : Nat} (other : l ≠ i) (free : FreeAt l v) :
    FreeAt l (putDown i f (filled i d v)) :=
  freeAt_modify (s := filled i d v) rfl other (freeAt_modify (s := v) rfl other free)

/-! ### The three outcomes under a claim (R86, R87) -/

/-- The segment is KEPT for the event, which counts it. -/
theorem markKept_outcome {r : EventRecord} (at' : u.wfs.segments[i]? = some x) (found : findRecord u n = some r) :
    (markKept i n u).wfs.segments[i]? = some { x with state := .kept, owner := some n } ∧
      ∃ r', findRecord (markKept i n u) n = some r' ∧ r'.wave.count = r.wave.count + 1 ∧ r'.wave.first.isSome = true := by
  refine ⟨getElem?_modify_same at', _, (markKept_record i n u).trans (congrArg _ found), rfl, ?_⟩
  cases h : r.wave.first <;> simp [h]

/-- What a KEPT segment of another event shows of the release of an event's waveform. -/
theorem releasedBy_other {q : Nat} {z : Segment} (kept : (z.releasedBy q).state = .kept) :
    (z.releasedBy q).owner ≠ some q := by
  rw [releasedBy_of_kept kept]
  exact (releasedBy_kept.mp kept).2

theorem markKept_record_other {m : Nat} (other : m ≠ n) (u : State) : findRecord (markKept i n u) m = findRecord u m :=
  findRecord_updateRecord_other (f := fun r =>
    { r with wave := { r.wave with first := r.wave.first.or (some i), count := r.wave.count + 1 } }) (fun _ => rfl) other
      (updateSegment i (fun x => { x with state := .kept, owner := some n }) u)

/-- With the release of another event's waveform the segment is KEPT, and none of that event's is. -/
theorem madeRoom_outcome {m : Nat} {q : EventRecord} (at' : u.wfs.segments[i]? = some x) (free : x.state = .free)
    (other : m ≠ n) (found : findRecord u m = some q) :
    (markKept i n (madeRoom m u)).wfs.segments[i]? = some { x with state := .kept, owner := some n } ∧
      (∀ y ∈ (markKept i n (madeRoom m u)).wfs.segments, y.state = .kept → y.owner ≠ some m) ∧
      ∃ q', findRecord (markKept i n (madeRoom m u)) m = some q' ∧ q'.wave = ⟨none, 0, .lost⟩ := by
  have stays : (madeRoom m u).wfs.segments[i]? = some x := by
    rw [madeRoom_segments, List.getElem?_map, at', Option.map_some, Segment.releasedBy, if_neg]
    exact fun gone => nomatch free.symm.trans gone.1
  have record := (markKept_record_other (i := i) other (madeRoom m u)).trans (madeRoom_record found)
  refine ⟨getElem?_modify_same stays, fun y hy kept => ?_, _, record, rfl⟩
  obtain rfl | old := mem_modify_cases stays hy
  · exact fun same => other (Option.some.inj same).symm
  · rw [madeRoom_segments] at old
    obtain ⟨z, -, rfl⟩ := List.mem_map.mp old
    exact releasedBy_other kept

/-- With none to release the segment is FREE, and the waveform PARTIAL and truncated. -/
theorem markPartial_outcome {r : EventRecord} (at' : u.wfs.segments[i]? = some x) (found : findRecord u n = some r) :
    (markPartial i n u).wfs.segments[i]? = some { x with state := .free, owner := none } ∧
      (markPartial i n u).cnt[(15 : Fin 40)] = u.cnt[(15 : Fin 40)] + 1 ∧
      (markPartial i n u).cnt[(16 : Fin 40)] = u.cnt[(16 : Fin 40)] ∧
      ∃ r', findRecord (markPartial i n u) n = some r' ∧ r'.truncated = true ∧
        r'.wave = { r.wave with state := .partly } := by
  let p := (updateRecord n (fun r => { r with truncated := true, wave := { r.wave with state := .partly } })
    (updateSegment i (fun x => { x with state := .free, owner := none }) u)).withWfs fun w => { w with claim := none }
  obtain ⟨-, evu, wfs⟩ := (count_alerts 15 p).blocks
  have eq : markPartial i n u = count 15 p := rfl
  refine ⟨?_, count_getElem 15 15 p, count_getElem 15 16 p,
    { r with truncated := true, wave := { r.wave with state := .partly } }, ?_, rfl, rfl⟩
  · rw [eq, wfs]
    exact getElem?_modify_same at'
  · rw [eq, findRecord_congr (congrArg Evu.table evu)]
    refine (findRecord_updateRecord (f := fun r => { r with truncated := true, wave := { r.wave with state := .partly } })
      (fun _ => rfl) (updateSegment i (fun x => { x with state := .free, owner := none }) u)).trans ?_
    exact congrArg _ found

/-! ### The writer goes on (R83) -/

theorem keepSegment_nextOrder (i n : Nat) (s : State) : (keepSegment i n s).wfs.nextOrder = s.wfs.nextOrder := by
  have counted (k : Fin 40) (p : State) : (count k p).wfs.nextOrder = p.wfs.nextOrder :=
    congrArg Wfs.nextOrder (count_alerts k p).blocks.2.2
  by_cases room : keptCount s < 112
  · rw [keepSegment_of_room room]
    rfl
  · cases goes : releasable n s with
    | none =>
      rw [keepSegment_of_none room goes]
      exact counted 15 _
    | some r =>
      obtain ⟨q, e⟩ := cancelJobOn_eq r.number .lost (released r.number s)
      have same : (releaseWave r.number s).wfs.nextOrder = s.wfs.nextOrder := by
        rw [releaseWave_eq, e]
        rfl
      rw [keepSegment_of_full room goes]
      exact (counted 16 _).trans same

/-- The segment is put down unclaimed, or under the claim of an event whose waveform is KEPT. -/
theorem finishSegment_filled (writer : v.wfs.writer = some i) :
    (∃ n, v.wfs.claim = some n ∧ waveKept v n = true ∧ finishSegment (filled i d v) = keepSegment i n (unclaimed i d v)) ∨
      ((∀ n, v.wfs.claim = some n → waveKept v n = false) ∧ finishSegment (filled i d v) = putDown i Segment.freed (filled i d v)) :=
  finishSegment_of_writer (s := filled i d v) writer

theorem finishSegment_claimed (writer : v.wfs.writer = some i) (claim : v.wfs.claim = some n) (kept : waveKept v n = true) :
    finishSegment (filled i d v) = keepSegment i n (unclaimed i d v) := by
  obtain ⟨m, same, -, e⟩ | ⟨none, -⟩ := finishSegment_filled (d := d) writer
  · rwa [Option.some.inj (claim.symm.trans same)]
  · exact absurd kept (by rw [none n claim]; exact Bool.false_ne_true)

theorem finishSegment_unclaimed (writer : v.wfs.writer = some i) (claim : v.wfs.claim = none) :
    finishSegment (filled i d v) = putDown i Segment.freed (filled i d v) := by
  obtain ⟨m, same, -⟩ | ⟨-, e⟩ := finishSegment_filled (d := d) writer
  · exact nomatch claim.symm.trans same
  · exact e

theorem finishSegment_nextOrder (writer : v.wfs.writer = some i) :
    (finishSegment (filled i d v)).wfs.nextOrder = v.wfs.nextOrder := by
  obtain ⟨n, -, -, e⟩ | ⟨-, e⟩ := finishSegment_filled (d := d) writer
  · rw [e, keepSegment_nextOrder]
    rfl
  · rw [e]
    rfl

theorem finishSegment_freeAt {l : Nat} (writer : v.wfs.writer = some i) (other : l ≠ i) (free : FreeAt l v) :
    FreeAt l (finishSegment (filled i d v)) := by
  obtain ⟨n, -, -, e⟩ | ⟨-, e⟩ := finishSegment_filled (d := d) writer
  · rw [e]
    exact keepSegment_freeAt other (putDown_freeAt other free)
  · rw [e]
    exact putDown_freeAt other free

/-- What the step shows of the new segment. -/
theorem ShowsWaves.taken {j : Nat} (h : ShowsWaves (takenAt j u) t) (free : FreeAt j u)
    (order : u.wfs.nextOrder < 4294967295) :
    t.wfs.writer = some j ∧ (segmentAt t j).state = .writing ∧ (segmentAt t j).count = 0 ∧
      (segmentAt t j).order = some u.wfs.nextOrder ∧ t.wfs.nextOrder = u.wfs.nextOrder + 1 := by
  obtain ⟨x, at', -⟩ := free
  have new : segmentAt t j = Segment.begun u.wfs.nextOrder x :=
    segmentAt_of_getElem? (by rw [h.wfs]; exact getElem?_modify_same at')
  rw [new, h.wfs]
  exact ⟨rfl, rfl, rfl, rfl, if_neg (by omega)⟩

/-- What the step shows of another segment. -/
theorem ShowsWaves.segment {j : Nat} {y : Segment} (h : ShowsWaves (takenAt j u) t) (other : j ≠ i)
    (at' : u.wfs.segments[i]? = some y) : segmentAt t i = y :=
  segmentAt_of_getElem? (by rw [h.wfs]; exact (getElem?_modify_other (Ne.symm other)).trans at')

/-- What the step shows of a record: the taking of a segment changes none. -/
theorem ShowsWaves.record {j m : Nat} {r : EventRecord} (h : ShowsWaves (takenAt j u) t) (found : findRecord u m = some r) :
    ∃ r', findRecord t m = some r' ∧ r'.wave = r.wave ∧ r'.truncated = r.truncated := h.found found

/-! ### The whole step -/

/-- The step of the frame that fills the segment: the state `v` of the writer's work, the segment `j` that is taken, and the state
that the step leaves. -/
theorem exec_segmentComplete {after : Nat} {bytes : List Byte} {f : DigFrame} {e : Strobe} {rest : List Strobe}
    (front : FrontArrives bytes f e rest s) (writer : s.wfs.writer = some i) (at' : s.wfs.segments[i]? = some x)
    (last : x.count = 2047) (writing : x.state = .writing) (quiet : NoDeclaration (some (f.samples, f.clips)) s)
    (free : ∃ y ∈ s.wfs.segments, y.state = .free) :
    ∃ v d j t, Attends s v ∧ exec (.segmentComplete (.frame after bytes)) s = .next t ∧
      FreeAt j (finishSegment (filled i d v)) ∧ ShowsWaves (takenAt j (finishSegment (filled i d v))) t := by
  obtain ⟨w, listed, run, mem⟩ := frontFrame_instant after front.toFrontFrame
  obtain ⟨v, d, attends, delivered⟩ := deliver_written (s := w) (e := e) front.good
    (quiet.congr listed.det (by rw [listed.sif]) listed.evu listed.tables)
  have attends : Attends s v := .trans (.of_blocks listed.evu listed.wfs fun k _ => by rw [listed.cnt]) attends
  have occurs : completesSegment ⟨{ e with frame := some f }, w⟩ = true := by
    simp only [completesSegment, Option.isSome_some, listed.wfs, writer, Bool.true_and, decide_eq_true_eq]
    rw [segmentAt_congr listed.wfs, segmentAt_of_getElem? at', last]
  have writer' : v.wfs.writer = some i := attends.wfs ▸ writer
  have at'' : v.wfs.segments[i]? = some x := attends.wfs ▸ at'
  obtain ⟨y, hy, state⟩ := free
  obtain ⟨l, hl⟩ := List.mem_iff_getElem?.mp hy
  have other : l ≠ i := by
    rintro rfl
    rw [Option.some.inj (hl.symm.trans at'), writing] at state
    cases state
  have left : FreeAt l (finishSegment (filled i d v)) := finishSegment_freeAt writer' other ⟨y, attends.wfs ▸ hl, state⟩
  obtain ⟨j, next⟩ := exists_nextFree left
  have taken : takeSegment (finishSegment (filled i d v)) = takenAt j (finishSegment (filled i d v)) := by
    obtain ⟨none, -⟩ | ⟨j', next', e⟩ := takeSegment_cases (finishSegment (filled i d v))
    · exact nomatch next.symm.trans none
    · rwa [Option.some.inj (next.symm.trans next')]
  refine ⟨v, d, j, _, attends, stepInstant_of_mem front.supply mem occurs, nextFree_freeAt next, ?_⟩
  rw [run, delivered, writeFrame_fills writer' at'' last, taken]
  exact (packFrame_showsWaves d _).trans (settle_showsWaves _)

/-- A segment that has been KEPT is not the one that the writer takes. -/
theorem FreeAt.ne_of_kept {j : Nat} (free : FreeAt j s) (at' : s.wfs.segments[i]? = some x) (kept : x.state = .kept) : j ≠ i := by
  rintro rfl
  obtain ⟨y, hy, state⟩ := free
  rw [Option.some.inj (hy.symm.trans at'), kept] at state
  cases state

section outcomes
variable {j : Nat} {r : EventRecord}

/-- With room in the budget (R86). -/
theorem ShowsWaves.of_room (shows : ShowsWaves (takenAt j (keepSegment i n u)) t) (taken : FreeAt j (keepSegment i n u))
    (at' : u.wfs.segments[i]? = some x) (found : findRecord u n = some r) (room : keptCount u < 112) :
    (segmentAt t i).state = .kept ∧ (segmentAt t i).owner = some n ∧ (segmentAt t i).count = x.count ∧
      ∃ r', findRecord t n = some r' ∧ r'.wave.count = r.wave.count + 1 ∧ r'.wave.first.isSome = true := by
  obtain ⟨kept, r', found', count, first⟩ := markKept_outcome (i := i) at' found
  rw [keepSegment_of_room room] at shows taken
  obtain ⟨r'', found'', wave, -⟩ := shows.record found'
  rw [shows.segment (taken.ne_of_kept kept rfl) kept]
  exact ⟨rfl, rfl, rfl, r'', found'', by rw [wave, count], by rw [wave, first]⟩

/-- Keeping a segment and taking another leaves the counters and the job. -/
theorem takenAt_markKept (j i n : Nat) (u : State) :
    (takenAt j (markKept i n u)).cnt = u.cnt ∧ (takenAt j (markKept i n u)).wfs.job = u.wfs.job := ⟨rfl, rfl⟩

/-- At a full budget with a waveform to release (R87, case 1). -/
theorem ShowsWaves.of_release {q : EventRecord} (shows : ShowsWaves (takenAt j (keepSegment i n u)) t)
    (taken : FreeAt j (keepSegment i n u)) (at' : u.wfs.segments[i]? = some x) (free : x.state = .free)
    (full : ¬ keptCount u < 112) (goes : releasable n u = some q) :
    (segmentAt t i).state = .kept ∧ (segmentAt t i).owner = some n ∧ t.cnt[(16 : Fin 40)] = u.cnt[(16 : Fin 40)] + 1 ∧
      (∀ y ∈ t.wfs.segments, y.state = .kept → y.owner ≠ some q.number) ∧ (∀ w ∈ t.wfs.job, w.event ≠ q.number) ∧
      ∃ q', findRecord t q.number = some q' ∧ q'.wave = ⟨none, 0, .lost⟩ := by
  obtain ⟨mem, other, -⟩ := releasable_spec goes
  obtain ⟨q₀, found⟩ : ∃ q₀, findRecord u q.number = some q₀ :=
    Option.isSome_iff_exists.mp (List.find?_isSome.mpr ⟨q, mem, beq_self_eq_true _⟩)
  obtain ⟨kept, unkept, q', found', lost⟩ := madeRoom_outcome at' free other found
  rw [keepSegment_of_full full goes] at shows taken
  obtain ⟨q'', found'', wave, -⟩ := shows.record found'
  obtain ⟨y, hy, writing⟩ := taken
  rw [shows.segment (FreeAt.ne_of_kept ⟨y, hy, writing⟩ kept rfl) kept]
  obtain ⟨cnt, job⟩ := takenAt_markKept j i n (madeRoom q.number u)
  have k16 := shows.counters 16 (.inr rfl)
  rw [cnt, madeRoom_counter] at k16
  refine ⟨rfl, rfl, k16, fun z hz still => ?_, fun w hw => ?_, q'',
    found'', wave.trans lost⟩
  · rw [shows.wfs, takenAt_segments] at hz
    obtain rfl | old := mem_modify_cases hy hz
    · cases still
    · exact unkept z old still
  · rw [shows.wfs, job] at hw
    exact madeRoom_job hw

/-- At a full budget with none to release (R87, case 2). -/
theorem ShowsWaves.of_refusal (shows : ShowsWaves (takenAt j (keepSegment i n u)) t) (taken : FreeAt j (keepSegment i n u))
    (at' : u.wfs.segments[i]? = some x) (found : findRecord u n = some r) (full : ¬ keptCount u < 112)
    (none : releasable n u = none) :
    (segmentAt t i).state ≠ .kept ∧ t.cnt[(15 : Fin 40)] = u.cnt[(15 : Fin 40)] + 1 ∧
      t.cnt[(16 : Fin 40)] = u.cnt[(16 : Fin 40)] ∧ t.wfs.claim ≠ some n ∧
      ∃ r', findRecord t n = some r' ∧ r'.truncated = true ∧ r'.wave = { r.wave with state := .partly } := by
  obtain ⟨freed, k15, k16, r', found', truncated, partly⟩ := markPartial_outcome (i := i) at' found
  rw [keepSegment_of_none full none] at shows taken
  obtain ⟨r'', found'', wave, flag⟩ := shows.record found'
  refine ⟨?_, (shows.counters 15 (.inl rfl)).trans k15, (shows.counters 16 (.inr rfl)).trans k16, fun claim => ?_, r'', found'',
    flag.trans truncated, wave.trans partly⟩
  · obtain rfl | other := eq_or_ne j i
    · rw [segmentAt_of_getElem? (by rw [shows.wfs]; exact getElem?_modify_same freed)]
      exact fun e => nomatch e
    · rw [shows.segment other freed]
      exact fun e => nomatch e
  · rw [shows.wfs] at claim
    have kept : waveKept (markPartial i n u) n = true := newClaim_waveKept claim
    rw [Machine.waveKept, found'] at kept
    exact nomatch (congrArg Waveform.state partly).symm.trans (eq_of_beq kept)

end outcomes

/-- A claim in the store that the writer's work finds, where the event's waveform is KEPT. -/
theorem Attends.waveKept {r : EventRecord} (h : Attends s v) (found : findRecord s n = some r) (kept : r.wave.state = .kept) :
    waveKept v n = true := by
  obtain ⟨r', found', wave⟩ := h.found found
  rw [Machine.waveKept, found']
  exact beq_iff_eq.mpr ((congrArg Waveform.state wave).trans kept)

/-- Settles O15: the step's one instant leaves what the writer's work is judged from; the segment is put down, kept or refused as the
budget says; and what follows leaves it so. -/
theorem fullSegmentCompletes : Obligations.FullSegmentCompletes := by
  intro i x after bytes f e rest s front writer at' last writing _ order quiet free
  obtain ⟨v, d, j, t, attends, step, taken, shows⟩ := exec_segmentComplete (after := after) front writer at' last writing quiet free
  have writer' : v.wfs.writer = some i := attends.wfs ▸ writer
  have at'' : v.wfs.segments[i]? = some x := attends.wfs ▸ at'
  have nextOrder : (finishSegment (filled i d v)).wfs.nextOrder = s.wfs.nextOrder := by
    rw [finishSegment_nextOrder writer', attends.wfs]
  obtain ⟨newWriter, state, count, newOrder, following⟩ := shows.taken taken (nextOrder ▸ order)
  rw [nextOrder] at newOrder following
  refine ⟨t, j, step, newWriter, state, count, newOrder, following, fun unclaimed other => ?unclaimed,
    fun n r claim found kept => ?claimed⟩
  case unclaimed =>
    have put : (finishSegment (filled i d v)).wfs.segments[i]? = some (Segment.freed (Segment.store d x)) := by
      rw [finishSegment_unclaimed writer' (attends.wfs ▸ unclaimed)]
      exact putDown_at at''
    rw [shows.segment other put]
    exact ⟨rfl, congrArg (· + 1) last⟩
  case claimed =>
    rw [finishSegment_claimed writer' (attends.wfs ▸ claim) (attends.waveKept found kept)] at shows taken
    have put : (Machine.unclaimed i d v).wfs.segments[i]? = some { Segment.store d x with state := .free } := putDown_at at''
    have full : keptCount (Machine.unclaimed i d v) = keptCount s :=
      (unclaimed_keptCount at'' writing).trans (by rw [keptCount, attends.wfs, keptCount])
    obtain ⟨r', found', wave⟩ := attends.found found
    have k15 : (Machine.unclaimed i d v).cnt[(15 : Fin 40)] = s.cnt[(15 : Fin 40)] := attends.counters 15 (.inl rfl)
    have k16 : (Machine.unclaimed i d v).cnt[(16 : Fin 40)] = s.cnt[(16 : Fin 40)] := attends.counters 16 (.inr rfl)
    have candidates (alone : ∀ m ∈ s.evu.current, m = n) : releasable n (Machine.unclaimed i d v) = releasable n s :=
      attends.releasable alone
    rw [← full, ← wave]
    refine ⟨fun room => ?_, fun q most goes alone => ?_, fun most none alone => ?_⟩
    · obtain ⟨state, owner, count, counted⟩ := shows.of_room taken put found' room
      exact ⟨state, owner, count.trans (congrArg (· + 1) last), counted⟩
    · obtain ⟨state, owner, counted, released⟩ :=
        shows.of_release taken put rfl (Nat.not_lt.mpr most) ((candidates alone).trans goes)
      exact ⟨state, owner, counted.trans (congrArg (· + 1) k16), released⟩
    · obtain ⟨state, refused, stands, partly⟩ :=
        shows.of_refusal taken put found' (Nat.not_lt.mpr most) ((candidates alone).trans none)
      exact ⟨state, refused.trans (congrArg (· + 1) k15), stands.trans k16, partly⟩

end Sys2Proof.Machine
end

section
/-!
PROOF. O25: FRAME_BEGIN sends the first ready kind in the order of R120, and what it takes moves on (R94, R107, R118, R119, R126).
-/

namespace Sys2Proof.Machine

variable {s v : State}

/-! ### The frame on the line -/

/-- The work at the end of a step leaves the transmitter. -/
theorem settle_tx (s : State) : (settle s).lnk.tx = s.lnk.tx :=
  (congrArg Lnk.tx (butSwitching_lnk (settle_butSwitching s)) :)

/-- The transmission of a frame, from its first byte. -/
def sendingOf (f : UpFrame) : Sending := ⟨f, lineTime f.body.payload⟩

/-- What every frame's beginning shows: the frame on the line with its line time, and its header (R118, R119). -/
structure Begins (u : State) (x : Sending) (s : State) : Prop where
  step : exec .frameBegin s = .next (settle u)
  tx : u.lnk.tx = some x
  still : (settle u).lnk.tx = some x
  left : x.left = ((x.frame.body.payload + 12) * 10 * 1000000000 + 115199) / 115200
  address : x.frame.address = s.lnk.address
  broadcast : x.frame.broadcast = (x.frame.centre == 0)

/-- A part that may begin a frame begins the one that it has chosen. -/
theorem begins_of_chosen {kind centre : Nat} {tag : Byte} {body : UpBody} (supply : s.supply = .on) (free : s.lnk.tx = none)
    (ready : s.lnk.radio = .ready) (something : somethingReady s = true)
    (chosen : beginFrame s = startSending (upFrame s kind centre tag body) v) :
    Begins (startSending (upFrame s kind centre tag body) v) (sendingOf (upFrame s kind centre tag body)) s where
  step := by
    have due : mayBegin s = true := by simp [mayBegin, free, ready, something]
    rw [← chosen]
    exact stepWhen_of_due supply due
  tx := rfl
  still := settle_tx _
  left := rfl
  address := rfl
  broadcast := rfl

/-! ### The choice (R120) -/

theorem readyReply_eq (s : State) : readyReply s = s.lnk.replies.head?.bind fun p => p.reply.map fun r => (p, r) := by
  unfold readyReply
  cases s.lnk.replies <;> rfl

theorem beginFrame_of_alert {a : AlertInstance} (alert : alertOffer s = some a) : beginFrame s = sendAlert a s := by
  rw [beginFrame, alert]

theorem beginFrame_of_reply {p : ReplyPlace} {r : Reply} (alert : alertOffer s = none) (reply : readyReply s = some (p, r)) :
    beginFrame s =
      startSending (upFrame s 4 p.centre p.tag (.reply r)) (s.withLnk fun l => { l with replies := l.replies.drop 1 }) := by
  rw [beginFrame, alert, reply]

theorem beginFrame_of_notice {n : Notice} {rest : List Notice} (alert : alertOffer s = none) (reply : readyReply s = none)
    (notices : s.lnk.notices = n :: rest) :
    beginFrame s = startSending (upFrame s 5 n.dest 0 (.notice n)) (s.withLnk fun l => { l with notices := rest }) := by
  rw [beginFrame, alert, reply, notices]

theorem beginFrame_of_wave {w : WaveFrame} (alert : alertOffer s = none) (reply : readyReply s = none)
    (notices : s.lnk.notices = []) (wave : readyWave s = some w) :
    beginFrame s = startSending (upFrame s 2 w.centre w.tag (.wave w)) (advanceJob s) := by
  rw [beginFrame, alert, reply, notices, wave]

theorem beginFrame_of_data {f : DataFrame} {rest : List DataFrame} (alert : alertOffer s = none) (reply : readyReply s = none)
    (notices : s.lnk.notices = []) (wave : readyWave s = none) (data : s.lnk.dataQueue = f :: rest) :
    beginFrame s = startSending (upFrame s 1 0 0 (.data f)) (s.withLnk fun l => { l with dataQueue := rest }) := by
  rw [beginFrame, alert, reply, notices, wave, data]

/-! ### The alert's send (R107) -/

/-- A queued alert after its send. -/
def AlertInstance.sentOnce (interval : Nat) (a : AlertInstance) : AlertInstance :=
  { a with sends := min 255 (a.sends + 1), state := .sent, wait := interval }

/-- The state in which an alert's frame begins: the queued alert has been sent once more, and K18 has counted it. -/
def alertSent (a : AlertInstance) (s : State) : State :=
  count 18 (s.withAlu fun x =>
    { x with queue := x.queue.map fun q => if q.id = a.id then a.sentOnce (s.tables.alert.get a.cls).interval else q })

theorem beginFrame_alert_eq {a : AlertInstance} (alert : alertOffer s = some a) :
    beginFrame s =
      startSending (upFrame s 3 (match a.pending with | [c] => c | _ => 0) 0
        (.alert (alertBody (a.sentOnce (s.tables.alert.get a.cls).interval)))) (alertSent a s) := by
  rw [beginFrame_of_alert alert]
  rfl

/-- What the send of an alert leaves and counts (R107). -/
theorem alertSent_spec {a : AlertInstance} (mem : a ∈ s.alu.queue) :
    a.sentOnce (s.tables.alert.get a.cls).interval ∈ (alertSent a s).alu.queue ∧
      (alertSent a s).cnt[(18 : Fin 40)] = s.cnt[(18 : Fin 40)] + 1 ∧ (alertSent a s).lnk.replies = s.lnk.replies ∧
      (alertSent a s).wfs = s.wfs ∧ (alertSent a s).lnk.dataQueue = s.lnk.dataQueue := by
  obtain ⟨q, -, e⟩ := count_eq 18 (s.withAlu fun x =>
    { x with queue := x.queue.map fun q => if q.id = a.id then a.sentOnce (s.tables.alert.get a.cls).interval else q })
  refine ⟨?_, (count_getElem 18 18 _).trans (if_pos rfl), ?_, ?_, ?_⟩
  · rw [alertSent, e]
    exact List.mem_map.mpr ⟨a, mem, if_pos rfl⟩
  all_goals
    rw [alertSent, e]
    rfl

/-! ### The job's advance (R94) -/

/-- A WAVE frame is ready where a job holds it. -/
theorem readyWave_some {w : WaveFrame} (wave : readyWave s = some w) : ∃ j, s.wfs.job = some j ∧ j.ready = w := by
  unfold readyWave at wave
  split at wave
  · cases wave
  · exact Option.map_eq_some_iff.mp wave

/-- The frames of the segment that the job stands at. -/
def Job.slots (j : Job) (s : State) : Nat := ((keptOf s j.event)[j.nextSegment]?.map (·.2.count)).getD 0

/-- Where the job stands after its ready frame. -/
def Job.place (j : Job) (s : State) : Nat × Nat :=
  if j.slots s ≤ j.nextFrame + j.ready.frames.length then (j.nextSegment + 1, 0)
  else (j.nextSegment, j.nextFrame + j.ready.frames.length)

/-- The job after its ready frame has begun, with frames left to send. -/
def Job.next (j : Job) (s : State) : Job :=
  { j with
    nextSegment := (j.place s).1
    nextFrame := (j.place s).2
    left := j.left - j.ready.frames.length
    sent := j.sent + j.ready.frames.length
    ready := formWave s j.event j.centre j.tag (j.place s).1 (j.place s).2 (j.left - j.ready.frames.length) }

theorem advanceJob_eq {j : Job} (job : s.wfs.job = some j) :
    advanceJob s = s.withWfs fun w =>
      { w with job := if j.left - j.ready.frames.length = 0 then none else some (j.next s) } := by
  rw [advanceJob, job]
  rfl

/-! ### The statement -/

/-- Settles O25: the first kind that has a ready frame supplies it, by the kinds in turn. -/
theorem frameBeginFollowsOrderOfKinds : Obligations.FrameBeginFollowsOrderOfKinds := by
  intro s supply free radio something
  have begins {kind centre : Nat} {tag : Byte} {body : UpBody} {v : State} :=
    begins_of_chosen (kind := kind) (centre := centre) (tag := tag) (body := body) (v := v) supply free radio something
  rw [← readyReply_eq]
  cases alert : alertOffer s with
  | some a =>
    obtain ⟨step, tx, still, left, address, broadcast⟩ := begins (beginFrame_alert_eq alert)
    obtain ⟨sent, k18, rest⟩ := alertSent_spec (List.mem_of_find?_eq_some alert)
    exact ⟨_, _, step, tx, still, left, address, broadcast, rfl, rfl, ⟨_, sent, rfl, rfl, rfl, rfl⟩, k18, rest⟩
  | none =>
    cases reply : readyReply s with
    | some pr =>
      obtain ⟨step, tx, still, left, address, broadcast⟩ := begins (beginFrame_of_reply alert reply)
      exact ⟨_, _, step, tx, still, left, address, broadcast, rfl, rfl, rfl, rfl, rfl, rfl, rfl, rfl, rfl, rfl⟩
    | none =>
      cases notices : s.lnk.notices with
      | cons n rest =>
        obtain ⟨step, tx, still, left, address, broadcast⟩ := begins (beginFrame_of_notice alert reply notices)
        exact ⟨_, _, step, tx, still, left, address, broadcast, rfl, rfl, rfl, rfl, rfl, rfl, rfl, rfl, rfl⟩
      | nil =>
        cases wave : readyWave s with
        | some w =>
          obtain ⟨j, job, rfl⟩ := readyWave_some wave
          have chosen := beginFrame_of_wave alert reply notices wave
          rw [advanceJob_eq job] at chosen
          obtain ⟨step, tx, still, left, address, broadcast⟩ := begins chosen
          rw [job]
          refine ⟨_, _, step, tx, still, left, address, broadcast, rfl, rfl, rfl, rfl, rfl, rfl, rfl, rfl, rfl, rfl, rfl, rfl, rfl,
            rfl, fun out => ?_, fun more => ⟨j.next s, ?_, rfl, rfl, rfl, rfl, rfl, rfl, rfl, rfl⟩⟩
          · exact if_pos (Nat.sub_eq_zero_of_le out)
          · exact if_neg (Nat.sub_ne_zero_of_lt more)
        | none =>
          have data : s.lnk.dataQueue ≠ [] := by
            rw [somethingReady, alert, reply, notices, wave] at something
            simpa using something
          obtain ⟨f, rest, data⟩ := List.exists_cons_of_ne_nil data
          obtain ⟨step, tx, still, left, address, broadcast⟩ := begins (beginFrame_of_data alert reply notices wave data)
          rw [data]
          exact ⟨_, _, step, tx, still, left, address, broadcast, rfl, rfl, rfl, rfl, rfl, rfl, rfl, rfl, rfl⟩

end Sys2Proof.Machine
end

section
/-!
PROOF. A command that CMD takes is answered as its own rule decides in the state it arrives in (R126, R172), and with that
HOLD and RELEASE in the order of their findings (R89, R90): O44.
-/

namespace Sys2Proof.Machine

variable {s : State} {src : Sender} {n centre : Nat}

/-! ### The arrival and the answer (R126, R172) -/

/-- What the commands on events and waveforms read stands while the command arrives. -/
theorem arrived_blocks (src : Sender) (s : State) :
    (arrived src s).evu = s.evu ∧ (arrived src s).wfs = s.wfs ∧ (arrived src s).bmn = s.bmn := by
  unfold arrived
  split <;> exact ⟨rfl, rfl, rfl⟩

theorem findRecord_arrived (src : Sender) (s : State) (n : Nat) : findRecord (arrived src s) n = findRecord s n :=
  findRecord_congr (congrArg Evu.table (arrived_blocks src s).1) n

theorem holdOf_arrived (src : Sender) (s : State) (n : Nat) : holdOf (arrived src s) n = holdOf s n := by
  rw [holdOf, (arrived_blocks src s).2.1, holdOf]

/-- A command that CMD takes is answered as its own rule decides. -/
theorem fromCentre_decided {c : Command} {d : Done} (accepted : Accepted src c s) (ordinary : c ≠ .restart)
    (decided : perform c src.centre.toNat src.tag (arrived src s) = d) :
    fromCentre src c s = .next (answered src c d.status d.data d.state) := by
  rw [fromCentre_of_accepted accepted ordinary, decided]

/-- The answer leaves WFS. -/
theorem answered_wfs (src : Sender) (c : Command) (st : ReplyStatus) (d : ReplyData) (s : State) :
    (answered src c st d s).wfs = s.wfs := by
  obtain ⟨-, -, settled, -⟩ := settle_fields
    (if src.broadcast then countStatus st s else fillReply ⟨c.kind, st, d⟩ (countStatus st s))
  have counted : (countStatus st s).wfs = s.wfs := by
    cases st with
    | done | clamped => exact (count_alerts 22 s).blocks.2.2
    | refused r => exact (count_alerts 23 s).blocks.2.2
  have replied (x : Reply) (u : State) : (fillReply x u).wfs = u.wfs := rfl
  refine settled.trans ?_
  split <;> simp only [replied, counted]

/-- A reply that is placed is the last one (R126). -/
theorem answered_reply (addressed : src.broadcast = false) (c : Command) (st : ReplyStatus) (d : ReplyData) {s : State}
    {l : List ReplyPlace} {p : ReplyPlace} (places : s.lnk.replies = l ++ [p]) :
    (answered src c st d s).lnk.replies.getLast?.bind (·.reply) = some ⟨c.kind, st, d⟩ := by
  have counted : (countStatus st s).lnk.replies = l ++ [p] := by
    rw [← places]
    cases st with
    | done | clamped =>
      obtain ⟨q, -, e⟩ := count_eq 22 s
      rw [countStatus, e]
    | refused r =>
      obtain ⟨q, -, e⟩ := count_eq 23 s
      rw [countStatus, e]
  have settled : (answered src c st d s).lnk.replies = (fillReply ⟨c.kind, st, d⟩ (countStatus st s)).lnk.replies := by
    rw [answered, addressed]
    exact (congrArg Lnk.replies (butSwitching_lnk (settle_butSwitching _)) :)
  rw [settled, fillReply]
  simp [State.withLnk, counted]

/-! ### HOLD (R89) -/

theorem cmdHold_unknown {minutes : Nat} (found : findRecord s n = none) : cmdHold n minutes centre s = refuse .noEvent s := by
  rw [cmdHold, found]

theorem cmdHold_held {minutes : Nat} {r : EventRecord} {h : Hold} (found : findRecord s n = some r) (held : holdOf s n = some h)
    (other : h.owner ≠ centre) : cmdHold n minutes centre s = refuseHeld h.owner s := by
  rw [cmdHold, found]
  dsimp only
  rw [held]
  exact if_pos other

/-- The state after an owner's own hold has been lengthened. -/
def lengthened (n seconds : Nat) (s : State) : State :=
  s.withWfs fun w => { w with holds := w.holds.map fun x => if x.event = n then { x with seconds := seconds } else x }

theorem cmdHold_own {minutes : Nat} {r : EventRecord} {h : Hold} (found : findRecord s n = some r) (held : holdOf s n = some h)
    (own : ¬ h.owner ≠ centre) :
    cmdHold n minutes centre s =
      ⟨lengthened n (max h.seconds (clampN 1 240 minutes * 60)) s, doneOrClamped (clampN 1 240 minutes != minutes),
        .hold centre (max h.seconds (clampN 1 240 minutes * 60)) r.wave.state⟩ := by
  rw [cmdHold, found]
  dsimp only
  rw [held]
  exact if_neg own

theorem cmdHold_lost {minutes : Nat} {r : EventRecord} (found : findRecord s n = some r) (unheld : holdOf s n = none)
    (lost : r.wave.state = .lost) : cmdHold n minutes centre s = refuse .noWave s := by
  rw [cmdHold, found]
  dsimp only
  rw [unheld]
  exact if_pos lost

theorem cmdHold_full {minutes : Nat} {r : EventRecord} (found : findRecord s n = some r) (unheld : holdOf s n = none)
    (there : r.wave.state ≠ .lost) (full : 2 ≤ s.wfs.holds.length) : cmdHold n minutes centre s = refuse .noRoom s := by
  rw [cmdHold, found]
  dsimp only
  rw [unheld]
  exact (if_neg there).trans (if_pos full)

theorem cmdHold_granted {minutes : Nat} {r : EventRecord} (found : findRecord s n = some r) (unheld : holdOf s n = none)
    (there : r.wave.state ≠ .lost) (room : ¬ 2 ≤ s.wfs.holds.length) :
    cmdHold n minutes centre s =
      ⟨grantHold n centre (clampN 1 240 minutes * 60) s, doneOrClamped (clampN 1 240 minutes != minutes),
        .hold centre (clampN 1 240 minutes * 60) r.wave.state⟩ := by
  rw [cmdHold, found]
  dsimp only
  rw [unheld]
  exact (if_neg there).trans (if_neg room)

/-- A granted hold stands last, and leaves no other centre's job on the event (R89). -/
theorem grantHold_spec (n centre seconds : Nat) (s : State) :
    (grantHold n centre seconds s).wfs.holds = s.wfs.holds ++ [⟨n, centre, seconds⟩] ∧
      (∀ j ∈ (grantHold n centre seconds s).wfs.job, j.event = n → j.centre = centre) ∧
      (grantHold n centre seconds s).evu = s.evu := by
  cases job : s.wfs.job with
  | none =>
    have eq : grantHold n centre seconds s = s.withWfs fun w => { w with holds := w.holds ++ [⟨n, centre, seconds⟩] } := by
      simp only [grantHold, State.withWfs, job]
    rw [eq]
    exact ⟨rfl, fun j hj => (nomatch job.symm.trans hj), rfl⟩
  | some k =>
    have eq : grantHold n centre seconds s =
        if k.event = n ∧ k.centre ≠ centre then
          cancelJob .held (s.withWfs fun w => { w with holds := w.holds ++ [⟨n, centre, seconds⟩] })
        else s.withWfs fun w => { w with holds := w.holds ++ [⟨n, centre, seconds⟩] } := by
      simp only [grantHold, State.withWfs, job]
    rw [eq]
    split
    · simp only [cancelJob, State.withWfs, job]
      exact ⟨rfl, fun j hj => (nomatch hj), rfl⟩
    · next stays =>
      refine ⟨rfl, fun j hj event => ?_, rfl⟩
      obtain rfl : k = j := Option.some.inj (job.symm.trans hj)
      by_contra other
      exact stays ⟨event, other⟩

/-- The status says whether the minutes were brought to their range. -/
theorem doneOrClamped_eq (m minutes : Nat) : doneOrClamped (m != minutes) = if m = minutes then .done else .clamped := by
  unfold doneOrClamped
  by_cases same : m = minutes <;> simp [same]

/-! ### RELEASE (R90) -/

theorem cmdRelease_unknown (found : findRecord s n = none) : cmdRelease n centre s = refuse .noEvent s := by
  rw [cmdRelease, found]

theorem cmdRelease_unheld (unheld : holdOf s n = none) : cmdRelease n centre s = refuse .noEvent s := by
  rw [cmdRelease, unheld]
  cases findRecord s n <;> rfl

theorem cmdRelease_held {r : EventRecord} {h : Hold} (found : findRecord s n = some r) (held : holdOf s n = some h)
    (other : h.owner ≠ centre) : cmdRelease n centre s = refuseHeld h.owner s := by
  rw [cmdRelease, found, held]
  exact if_pos other

/-- The state after a hold has been given back: it leaves the list, and a job on its event is cancelled (R90). -/
def givenBack (n : Nat) (s : State) : State :=
  cancelJobOn n .release (s.withWfs fun w => { w with holds := w.holds.filter (·.event != n) })

theorem cmdRelease_own {r : EventRecord} {h : Hold} (found : findRecord s n = some r) (held : holdOf s n = some h)
    (own : ¬ h.owner ≠ centre) : cmdRelease n centre s = ⟨givenBack n s, .done, .none⟩ := by
  rw [cmdRelease, found, held]
  exact if_neg own

/-- No job on the event is left (R90). -/
theorem cancelJobOn_job (n : Nat) (cause : CancelCause) (s : State) : ∀ j ∈ (cancelJobOn n cause s).wfs.job, j.event ≠ n := by
  intro j left event
  unfold cancelJobOn cancelJob at left
  cases job : s.wfs.job with
  | none =>
    simp only [job] at left
    exact nomatch left
  | some k =>
    simp only [job] at left
    split at left
    · exact nomatch left
    · next stays =>
      obtain rfl : k = j := Option.some.inj (job.symm.trans left)
      exact stays event

theorem givenBack_spec (n : Nat) (s : State) :
    (givenBack n s).wfs.holds = s.wfs.holds.filter (·.event != n) ∧ (givenBack n s).evu = s.evu ∧
      (givenBack n s).wfs.segments = s.wfs.segments := by
  obtain ⟨q, e⟩ := cancelJobOn_eq n .release (s.withWfs fun w => { w with holds := w.holds.filter (·.event != n) })
  rw [givenBack, e]
  exact ⟨rfl, rfl, rfl⟩

theorem holdOf_givenBack (n : Nat) (s : State) : holdOf (givenBack n s) n = none := by
  rw [holdOf, (givenBack_spec n s).1, List.find?_eq_none]
  intro h left same
  simp [List.mem_filter, beq_iff_eq.mp same] at left

/-- Settles O44: HOLD and RELEASE are judged in the state the command arrives in, which shows the records and holds of the
state before. -/
theorem holdIsGrantedAndReleasedInOrder : Obligations.HoldIsGrantedAndReleasedInOrder := by
  unfold Obligations.HoldIsGrantedAndReleasedInOrder
  refine ⟨fun src event minutes s => ?hold, fun src event s => ?release⟩
  case hold =>
    intro c n centre m status _ accepted
    have answer {d : Done} := fromCentre_decided (d := d) accepted (by simp [c])
    have said : doneOrClamped (clampN 1 240 minutes.toNat != minutes.toNat) = status := doneOrClamped_eq _ _
    have holds : (arrived src s).wfs = s.wfs := (arrived_blocks src s).2.1
    cases found : findRecord s n with
    | none => exact answer (cmdHold_unknown ((findRecord_arrived src s n).trans found))
    | some r =>
      have known := (findRecord_arrived src s n).trans found
      cases held : holdOf s n with
      | some h =>
        have owned := (holdOf_arrived src s n).trans held
        by_cases other : h.owner ≠ centre
        · exact (if_pos other).mpr (answer (cmdHold_held known owned other))
        · refine (if_neg other).mpr ⟨lengthened n (max h.seconds (m * 60)) (arrived src s), ?_, ?_, ?_⟩
          · rw [← said]
            exact answer (cmdHold_own known owned other)
          · rw [lengthened, ← holds]; rfl
          · rw [lengthened, ← holds]; rfl
      | none =>
        have owned := (holdOf_arrived src s n).trans held
        by_cases lost : r.wave.state = .lost
        · exact (if_pos lost).mpr (answer (cmdHold_lost known owned lost))
        · refine (if_neg lost).mpr ?_
          by_cases full : 2 ≤ s.wfs.holds.length
          · exact (if_pos full).mpr (answer (cmdHold_full known owned lost (holds.symm ▸ full)))
          · obtain ⟨added, kept, evu⟩ := grantHold_spec n centre (m * 60) (arrived src s)
            refine (if_neg full).mpr ⟨grantHold n centre (m * 60) (arrived src s), ?_, ?_, kept, ?_⟩
            · rw [← said]
              exact answer (cmdHold_granted known owned lost (holds.symm ▸ full))
            · rw [added, holds]
            · exact evu.trans (arrived_blocks src s).1
  case release =>
    intro c n _ accepted
    have answer {d : Done} := fromCentre_decided (d := d) accepted (by simp [c])
    cases found : findRecord s n with
    | none => exact answer (cmdRelease_unknown ((findRecord_arrived src s n).trans found))
    | some r =>
      cases held : holdOf s n with
      | none => exact answer (cmdRelease_unheld ((holdOf_arrived src s n).trans held))
      | some h =>
        have known := (findRecord_arrived src s n).trans found
        have owned := (holdOf_arrived src s n).trans held
        by_cases other : h.owner ≠ src.centre.toNat
        · exact (if_pos other).mpr (answer (cmdRelease_held known owned other))
        · obtain ⟨left, evu, segments⟩ := givenBack_spec n (arrived src s)
          obtain ⟨evu', wfs', -⟩ := arrived_blocks src s
          exact (if_neg other).mpr ⟨givenBack n (arrived src s), answer (cmdRelease_own known owned other),
            left.trans (by rw [wfs']), holdOf_givenBack n _, cancelJobOn_job n _ _, evu.trans evu', segments.trans (by rw [wfs'])⟩

end Sys2Proof.Machine
end

section
/-!
PROOF. The retrieval job as the centres ask for it and end it: WAVE_REQUEST in the order of its findings (R92, R93: O45), and
WAVE_CANCEL (R96: O46).
-/

namespace Sys2Proof.Machine

variable {s : State} {n offset count centre : Nat} {tag : Byte}

/-! ### WAVE_REQUEST (R92) -/

theorem atLevel_arrived (src : Sender) (s : State) (l : ShedLevel) : (arrived src s).atLevel l = s.atLevel l := by
  rw [State.atLevel, (arrived_blocks src s).2.2, State.atLevel]

theorem keptOf_arrived (src : Sender) (s : State) (n : Nat) : keptOf (arrived src s) n = keptOf s n := by
  rw [keptOf, segmentsWhere, (arrived_blocks src s).2.1, keptOf, segmentsWhere]

theorem formWave_arrived (src : Sender) (s : State) (event centre : Nat) (tag : Byte) (offset index left : Nat) :
    formWave (arrived src s) event centre tag offset index left = formWave s event centre tag offset index left := by
  simp only [formWave, keptOf_arrived]

/-- The kept segments that a request asks for: from the offset on, all of them for a count of 0 (R92). -/
def askedSegments (n offset count : Nat) (s : State) : List (Nat × Segment) :=
  if count = 0 then (keptOf s n).drop offset else ((keptOf s n).drop offset).take count

/-- The frames of the segments that a request asks for (R92). -/
def askedFrames (n offset count : Nat) (s : State) : Nat := ((askedSegments n offset count s).map (·.2.count)).sum

theorem cmdWaveRequest_busy (busy : s.wfs.job.isSome) : cmdWaveRequest n offset count centre tag s = refuse .busy s :=
  if_pos busy

section Findings

variable {r : EventRecord} (idle : ¬ s.wfs.job.isSome)
include idle

theorem cmdWaveRequest_shed (shed : s.atLevel .survival) : cmdWaveRequest n offset count centre tag s = refuse .shed s :=
  (if_neg idle).trans (if_pos shed)

variable (served : ¬ s.atLevel .survival)
include served

theorem cmdWaveRequest_unknown (found : findRecord s n = none) :
    cmdWaveRequest n offset count centre tag s = refuse .noEvent s := by
  rw [cmdWaveRequest, if_neg idle, if_neg served, found]

variable (found : findRecord s n = some r)
include found

theorem cmdWaveRequest_open (still : r.state ≠ .closed) :
    cmdWaveRequest n offset count centre tag s = refuse .notClosed s := by
  rw [cmdWaveRequest, if_neg idle, if_neg served, found]
  exact if_pos still

variable (closed : ¬ r.state ≠ .closed)
include closed

theorem cmdWaveRequest_lost (lost : r.wave.state = .lost) :
    cmdWaveRequest n offset count centre tag s = refuse .noWave s := by
  rw [cmdWaveRequest, if_neg idle, if_neg served, found]
  exact (if_neg closed).trans (if_pos lost)

variable (there : r.wave.state ≠ .lost)
include there

theorem cmdWaveRequest_held {h : Hold} (held : holdOf s n = some h) (other : h.owner ≠ centre) :
    cmdWaveRequest n offset count centre tag s = refuseHeld h.owner s := by
  rw [cmdWaveRequest, if_neg idle, if_neg served, found]
  refine (if_neg closed).trans ((if_neg there).trans ?_)
  rw [held]
  exact if_pos other

/-- With no other centre's hold in the way, the offset decides (R92). -/
theorem cmdWaveRequest_allowed (own : ∀ h, holdOf s n = some h → h.owner = centre) :
    cmdWaveRequest n offset count centre tag s =
      if (keptOf s n).length ≤ offset then refuse .badIndex s
      else ⟨startJob n offset (askedFrames n offset count s) centre tag s, .done,
        .wave (askedSegments n offset count s).length (askedFrames n offset count s)⟩ := by
  rw [cmdWaveRequest, if_neg idle, if_neg served, found]
  refine (if_neg closed).trans ((if_neg there).trans ?_)
  cases held : holdOf s n with
  | none => rfl
  | some h => exact if_neg fun other => other (own h held)

end Findings

/-- Settles O45: the findings are judged in the state the command arrives in, and the job that starts is the answer's. -/
theorem waveRequestStartsJobOrIsRefusedInOrder : Obligations.WaveRequestStartsJobOrIsRefusedInOrder := by
  unfold Obligations.WaveRequestStartsJobOrIsRefusedInOrder
  refine ⟨fun src event offset count r s => ?started, fun src event offset count s => ?refused⟩
  case started =>
    intro c n kept taken frames addressed accepted idle served found closed there own inside
    obtain ⟨-, wfs, -⟩ := arrived_blocks src s
    have asked : askedSegments n offset.toNat count.toNat (arrived src s) = taken := by
      have zero : count.toNat = 0 ↔ count = 0 := by bv_omega
      simp only [askedSegments, keptOf_arrived, zero, taken, kept]
    have total : askedFrames n offset.toNat count.toNat (arrived src s) = frames := by rw [askedFrames, asked]
    have decided := cmdWaveRequest_allowed (s := arrived src s) (n := n) (offset := offset.toNat) (count := count.toNat)
      (centre := src.centre.toNat) (tag := src.tag) (by simp [wfs, idle]) (by simp [atLevel_arrived, served])
      ((findRecord_arrived src s n).trans found) (not_not.mpr closed) there (by rwa [holdOf_arrived])
    rw [if_neg (by rw [keptOf_arrived]; omega), asked, total] at decided
    have places : (arrived src s).lnk.replies = s.lnk.replies ++ [⟨src.centre.toNat, src.tag, none⟩] := by
      rw [arrived, addressed]
      rfl
    refine ⟨_, ⟨n, src.centre.toNat, src.tag, offset.toNat, 0, frames, 0, _⟩,
      fromCentre_decided accepted (by simp) decided, congrArg Wfs.job (answered_wfs ..),
      rfl, rfl, rfl, rfl, rfl, rfl, rfl,
      formWave_arrived src s n src.centre.toNat src.tag offset.toNat 0 frames, ?_, ?_, ?_, answered_reply addressed c _ _ places⟩
    · exact (congrArg Wfs.segments (answered_wfs ..)).trans (by rw [← wfs]; rfl)
    · exact (congrArg Wfs.holds (answered_wfs ..)).trans (by rw [← wfs]; rfl)
    · refine (answered_counter src c (st := .done) (by simp) _ _ 22).trans ((if_pos rfl).trans ?_)
      show (arrived src s).cnt[(22 : Fin 40)] + 1 = s.cnt[(22 : Fin 40)] + 1
      rw [arrived_cnt]
  case refused =>
    intro c answer _ accepted
    have taken {d : Done} := fromCentre_decided (d := d) accepted (by simp [c])
    rw [← (arrived_blocks src s).2.1, ← atLevel_arrived src s, ← findRecord_arrived src s, ← holdOf_arrived src s,
      ← keptOf_arrived src s]
    by_cases busy : (arrived src s).wfs.job.isSome
    · exact (if_pos busy).mpr (taken (cmdWaveRequest_busy busy))
    refine (if_neg busy).mpr ?_
    by_cases shed : (arrived src s).atLevel .survival
    · exact (if_pos shed).mpr (taken (cmdWaveRequest_shed busy shed))
    refine (if_neg shed).mpr ?_
    cases found : findRecord (arrived src s) event.toNat with
    | none => exact taken (cmdWaveRequest_unknown busy shed found)
    | some r =>
      by_cases still : r.state ≠ .closed
      · exact (if_pos still).mpr (taken (cmdWaveRequest_open busy shed found still))
      refine (if_neg still).mpr ?_
      by_cases lost : r.wave.state = .lost
      · exact (if_pos lost).mpr (taken (cmdWaveRequest_lost busy shed found still lost))
      refine (if_neg lost).mpr ?_
      cases held : holdOf (arrived src s) event.toNat with
      | none =>
        exact fun outside => taken ((cmdWaveRequest_allowed busy shed found still lost (by simp [held])).trans
          (if_pos outside))
      | some h =>
        by_cases other : h.owner ≠ src.centre.toNat
        · exact (if_pos other).mpr (taken (cmdWaveRequest_held busy shed found still lost held other))
        · refine (if_neg other).mpr fun outside => taken
            ((cmdWaveRequest_allowed busy shed found still lost ?_).trans (if_pos outside))
          rintro h' same
          obtain rfl : h = h' := Option.some.inj (held.symm.trans same)
          exact not_not.mp other

/-! ### WAVE_CANCEL (R96) -/

theorem cmdWaveCancel_idle (idle : s.wfs.job = none) : cmdWaveCancel centre s = refuse .noEvent s := by
  rw [cmdWaveCancel, idle]

theorem cmdWaveCancel_held {j : Job} (job : s.wfs.job = some j) (other : j.centre ≠ centre) :
    cmdWaveCancel centre s = refuseHeld j.centre s := by
  rw [cmdWaveCancel, job]
  exact if_pos other

theorem cmdWaveCancel_own {j : Job} (job : s.wfs.job = some j) (own : ¬ j.centre ≠ centre) :
    cmdWaveCancel centre s = ⟨cancelJob .cancel s, .done, .none⟩ := by
  rw [cmdWaveCancel, job]
  exact if_neg own

/-- A job that is cancelled goes, and the last notice tells its requester what was sent (R95). -/
theorem cancelJob_spec {j : Job} (job : s.wfs.job = some j) (cause : CancelCause) :
    (cancelJob cause s).wfs = { s.wfs with job := none } ∧
      ((cancelJob cause s).lnk.notices.getLast?.map fun x => (x.body, x.dest)) =
        some (.cancelled j.event cause j.sent, j.centre) := by
  rw [cancelJob, job]
  exact ⟨rfl, by simp [queueNotice]⟩

/-- Settles O46: the job is the one that runs in the state the command arrives in. -/
theorem waveCancelEndsOwnJob : Obligations.WaveCancelEndsOwnJob := by
  unfold Obligations.WaveCancelEndsOwnJob
  intro src s _ accepted
  obtain ⟨-, wfs, -⟩ := arrived_blocks src s
  have answer {d : Done} := fromCentre_decided (d := d) accepted (by simp)
  cases running : s.wfs.job with
  | none => exact answer (cmdWaveCancel_idle ((congrArg Wfs.job wfs).trans running))
  | some j =>
    have job : (arrived src s).wfs.job = some j := (congrArg Wfs.job wfs).trans running
    by_cases other : j.centre ≠ src.centre.toNat
    · exact (if_pos other).mpr (answer (cmdWaveCancel_held job other))
    · obtain ⟨ended, told⟩ := cancelJob_spec job .cancel
      rw [wfs] at ended
      exact (if_neg other).mpr ⟨cancelJob .cancel (arrived src s), answer (cmdWaveCancel_own job other),
        by rw [ended], by rw [ended], by rw [ended], told⟩

end Sys2Proof.Machine
end
